-- ==== Sys2Proof/Word.lean ====
section
/-! DEFINITION. The machine's word types, byte lists, lane lists and keyed tables, with their plainest arithmetic. -/

namespace Sys2Proof

/-- One byte of memory. -/
abbrev Byte := BitVec 8

/-- A 32-bit register word. -/
abbrev Word := BitVec 32

/-- A 64-bit value: a register pair, a system register, a counter. -/
abbrev Dword := BitVec 64

/-- A 56-bit code address (R46, R80). -/
abbrev CodeAddr := BitVec 56

/-- A set of the lanes of one group; bit n is lane n (GWIDTH = 32, R3). -/
abbrev Mask := BitVec 32

/-- The 32 lane values of one lane register. -/
abbrev Vec := List Word

/-- A table keyed by Nat: the newest pair for a key stands alone for it (`Tbl.set` replaces). -/
abbrev Tbl (α : Type) := List (Nat × α)

namespace Tbl

variable {α : Type}

/-- The value at key `k`, or the default `d`. -/
def getD (t : Tbl α) (k : Nat) (d : α) : α :=
  match t with
  | [] => d
  | (j, a) :: r => if j = k then a else getD r k d

/-- The value at key `k` where the table has one. -/
def get? (t : Tbl α) (k : Nat) : Option α :=
  match t with
  | [] => none
  | (j, a) :: r => if j = k then some a else get? r k

/-- Replaces or appends the value at key `k`. -/
def set (t : Tbl α) (k : Nat) (a : α) : Tbl α :=
  match t with
  | [] => [(k, a)]
  | (j, b) :: r => if j = k then (k, a) :: r else (j, b) :: set r k a

/-- Removes key `k`. -/
def erase (t : Tbl α) (k : Nat) : Tbl α := t.filter fun p => p.1 != k

/-- The values in table order. -/
def vals (t : Tbl α) : List α := t.map Prod.snd

end Tbl

/-- The lane indices of a group, in increasing order (R3). -/
def laneIdx : List Nat := List.range 32

/-- A lane register value built lane by lane. -/
def Vec.ofFn (f : Nat → Word) : Vec := laneIdx.map f

/-- The value of one lane. -/
def Vec.lane (v : Vec) (i : Nat) : Word := v.getD i 0

/-- A lane set built lane by lane. -/
def Mask.ofFn (f : Nat → Bool) : Mask :=
  laneIdx.foldl (fun m i => if f i then m ||| (1#32 <<< i) else m) 0

/-- The members of a lane set in increasing order. -/
def Mask.lanes (m : Mask) : List Nat := laneIdx.filter fun i => m.getLsbD i

/-- The lowest member of a lane set. -/
def Mask.lowest (m : Mask) : Option Nat := m.lanes.head?

/-- The little-endian bytes of a number, `n` of them (R8). -/
def bytesOf (n : Nat) (v : Nat) : List Byte :=
  (List.range n).map fun i => BitVec.ofNat 8 (v >>> (8 * i))

/-- The number whose little-endian bytes are given (R8). -/
def ofBytes : List Byte → Nat
  | [] => 0
  | b :: r => b.toNat + 256 * ofBytes r

/-- The signed reading of the low `w` bits of a number. -/
def signedOf (w v : Nat) : Int :=
  let x := v % 2 ^ w
  if x < 2 ^ (w - 1) then (x : Int) else (x : Int) - (2 ^ w : Nat)

/-- Two's complement wrap of an exact integer to `w` bits. -/
def wrapTo (w : Nat) (t : Int) : Nat := (t % ((2 ^ w : Nat) : Int)).toNat

/-- Bits `[hi:lo]` of a number (R7). -/
def bitsOf (v hi lo : Nat) : Nat := (v >>> lo) % 2 ^ (hi + 1 - lo)

/-- One bit of a number. -/
def bitOf (v i : Nat) : Bool := v.testBit i

end Sys2Proof
end

