-- ==== Sys2Proof/Syntax.lean ====
section
/-! DEFINITION. The instruction formats (R48, R50, R53, R64), what the events carry, and Instr: one constructor per row
of spec/opcode_table.json. A row that is an operation carries the fields of its format as they stand in the encoding; a
row that is an event carries what the manual leaves open or takes from outside (an index, a register value, a placement,
a flit). -/

namespace Sys2Proof

/-- The C16 format (R48). -/
structure C16F where
  s : BitVec 5
  d : BitVec 5
  e : BitVec 1
deriving DecidableEq, Repr

/-- The W32 format (R50); `st` is the S bit. -/
structure W32F where
  k : BitVec 1
  b : BitVec 7
  a : BitVec 7
  d : BitVec 7
  st : BitVec 1
  e : BitVec 1
deriving DecidableEq, Repr

/-- The W64 format (R53); `st` is the S bit. -/
structure W64F where
  m12 : BitVec 12
  c : BitVec 9
  b : BitVec 9
  a : BitVec 9
  d : BitVec 9
  gn : BitVec 1
  g : BitVec 3
  st : BitVec 1
  e : BitVec 1
deriving DecidableEq, Repr

/-- The W64I format (R64); `st` is the S bit. -/
structure W64IF where
  imm : BitVec 32
  mod7 : BitVec 7
  d : BitVec 9
  gn : BitVec 1
  g : BitVec 3
  st : BitVec 1
  e : BitVec 1
deriving DecidableEq, Repr

/-- Where the Hearth puts one group of a block (R343). -/
structure Place where
  core : Nat
  part : Nat
deriving DecidableEq, Repr

/-- A flit of the fabric (R386): header fields and payload bytes. -/
structure Flit where
  dpkg : Nat
  spkg : Nat
  ddie : Nat
  sdie : Nat
  vc : Nat
  type : Nat
  len : Nat
  tag : Nat
  seq : Nat
  ack : Nat
  ctx : Nat
  paddr : Nat
  aux : BitVec 32
  rsv : Nat
  payload : List Byte
deriving DecidableEq, Repr

/-- A firmware image as the management ROM reads it (R384): its public key, its bytes, its signature and its security version. -/
structure FwImage where
  key : List Byte
  body : List Byte
  sig : List Byte
  version : BitVec 16
deriving DecidableEq, Repr

/-- One part of bring-up (R384, R385): its start, by power or by an I3C reset; the ROM's firmware check; the ports trained and the package
number; a stage that brings nothing from outside; a measurement that a stage makes before it passes control. -/
inductive BringUp where
  | start (i3c : Bool)
  | firmware (img : FwImage)
  | links (ports : BitVec 16) (pkg : BitVec 12)
  | stage
  | measure (reg : Nat) (digest : BitVec 512)
deriving DecidableEq, Repr

/-- What the package's sensors read over an interval (R380, R383): its power and its hottest temperature. -/
structure Sensors where
  power : Nat
  tmax : Nat
deriving DecidableEq, Repr

/-- Where a soft error strikes (R312, R314) and whether its code can correct it. -/
inductive ErrPlace where
  | homeLine (pa : Nat)
  | l1 (core line : Nat) (bytes : BitVec 64)
  | spadWord (blk addr : Nat)
  | tileWord (gid tile word : Nat)
  | accWord (gid slot word : Nat)
  | planeWord (quad plane word : Nat)
  | laneReg (gid name lane : Nat)
  | uniReg (gid n : Nat)
  | bankReg (core part n : Nat)
deriving DecidableEq, Repr

/-- One soft error (R314). -/
structure SoftError where
  place : ErrPlace
  correctable : Bool
deriving DecidableEq, Repr

/-- The rows of the table of operations and events, one constructor a row. -/
inductive Instr where
  /-- IADD (R111): Integer add per element, wrapped or saturated by FIT. -/
  | iadd (f : W64F)
  /-- IADD_C16 (R111): Two-address short form of IADD on v0-v31. -/
  | iaddC16 (f : C16F)
  /-- IADD_W32 (R111): W32 form of IADD with k as the LA bit. -/
  | iaddW32 (f : W32F)
  /-- ISUB (R111): Integer subtract per element. -/
  | isub (f : W64F)
  /-- ISUB_C16 (R111): Two-address short form of ISUB. -/
  | isubC16 (f : C16F)
  /-- ISUB_W32 (R111): W32 form of ISUB. -/
  | isubW32 (f : W32F)
  /-- IMUL (R111): Integer multiply, low half or clamped exact product. -/
  | imul (f : W64F)
  /-- IMUL_C16 (R111): Two-address short form of IMUL. -/
  | imulC16 (f : C16F)
  /-- IMUL_W32 (R111): W32 form of IMUL. -/
  | imulW32 (f : W32F)
  /-- IMULH (R111): High 32 bits of the exact 64-bit product. -/
  | imulh (f : W64F)
  /-- IMULH_W32 (R111): W32 form of IMULH. -/
  | imulhW32 (f : W32F)
  /-- IMAD (R111): Integer multiply-add a*b+c fitted to 32 bits. -/
  | imad (f : W64F)
  /-- IMADW (R111): Widening multiply-add into a 64-bit pair. -/
  | imadw (f : W64F)
  /-- IADDC (R111): Add with carry in and out through a lane predicate. -/
  | iaddc (f : W64F)
  /-- ISUBB (R111): Subtract with borrow in and out through a lane predicate. -/
  | isubb (f : W64F)
  /-- INEG (R111): Integer negate. -/
  | ineg (f : W64F)
  /-- INEG_W32 (R111): W32 form of INEG. -/
  | inegW32 (f : W32F)
  /-- IABS (R111): Integer absolute value. -/
  | iabs (f : W64F)
  /-- IABS_W32 (R111): W32 form of IABS. -/
  | iabsW32 (f : W32F)
  /-- IMIN (R111): Integer minimum, signed or unsigned by TY. -/
  | imin (f : W64F)
  /-- IMIN_W32 (R111): W32 form of IMIN. -/
  | iminW32 (f : W32F)
  /-- IMAX (R111): Integer maximum. -/
  | imax (f : W64F)
  /-- IMAX_W32 (R111): W32 form of IMAX. -/
  | imaxW32 (f : W32F)
  /-- AND (R112): Bitwise AND. -/
  | and (f : W64F)
  /-- AND_C16 (R112): Two-address short form of AND. -/
  | andC16 (f : C16F)
  /-- AND_W32 (R112): W32 form of AND. -/
  | andW32 (f : W32F)
  /-- OR (R112): Bitwise OR. -/
  | or (f : W64F)
  /-- OR_C16 (R112): Two-address short form of OR. -/
  | orC16 (f : C16F)
  /-- OR_W32 (R112): W32 form of OR. -/
  | orW32 (f : W32F)
  /-- XOR (R112): Bitwise XOR. -/
  | xor (f : W64F)
  /-- XOR_C16 (R112): Two-address short form of XOR. -/
  | xorC16 (f : C16F)
  /-- XOR_W32 (R112): W32 form of XOR. -/
  | xorW32 (f : W32F)
  /-- NOT (R112): Bitwise complement. -/
  | not (f : W64F)
  /-- NOT_C16 (R112): Unary short form of NOT. -/
  | notC16 (f : C16F)
  /-- NOT_W32 (R112): W32 form of NOT. -/
  | notW32 (f : W32F)
  /-- ANDN (R112): a AND NOT b. -/
  | andn (f : W64F)
  /-- ANDN_W32 (R112): W32 form of ANDN. -/
  | andnW32 (f : W32F)
  /-- SHL (R112): Shift left by b[7:0]. -/
  | shl (f : W64F)
  /-- SHL_C16 (R112): Two-address short form of SHL. -/
  | shlC16 (f : C16F)
  /-- SHL_W32 (R112): W32 form of SHL. -/
  | shlW32 (f : W32F)
  /-- SHRL (R112): Logical shift right. -/
  | shrl (f : W64F)
  /-- SHRL_C16 (R112): Two-address short form of SHRL. -/
  | shrlC16 (f : C16F)
  /-- SHRL_W32 (R112): W32 form of SHRL. -/
  | shrlW32 (f : W32F)
  /-- SHRA (R112): Arithmetic shift right. -/
  | shra (f : W64F)
  /-- SHRA_C16 (R112): Two-address short form of SHRA. -/
  | shraC16 (f : C16F)
  /-- SHRA_W32 (R112): W32 form of SHRA. -/
  | shraW32 (f : W32F)
  /-- ROTL (R112): Rotate left. -/
  | rotl (f : W64F)
  /-- ROTL_W32 (R112): W32 form of ROTL. -/
  | rotlW32 (f : W32F)
  /-- FUNL (R112): Funnel shift of the 64-bit concatenation a:b. -/
  | funl (f : W64F)
  /-- BFX (R112): Bit-field extract, zero- or sign-extended. -/
  | bfx (f : W64F)
  /-- BFI (R112): Bit-field insert into c. -/
  | bfi (f : W64F)
  /-- POPC (R112): Population count. -/
  | popc (f : W64F)
  /-- POPC_W32 (R112): W32 form of POPC. -/
  | popcW32 (f : W32F)
  /-- CLZ (R112): Count leading zeros. -/
  | clz (f : W64F)
  /-- CLZ_W32 (R112): W32 form of CLZ. -/
  | clzW32 (f : W32F)
  /-- BREV (R112): Bit reverse. -/
  | brev (f : W64F)
  /-- BREV_W32 (R112): W32 form of BREV. -/
  | brevW32 (f : W32F)
  /-- IDIV (R113): Integer divide truncating toward zero with fixed edge cases. -/
  | idiv (f : W64F)
  /-- IREM (R113): Integer remainder with the sign of a. -/
  | irem (f : W64F)
  /-- LEA (R114): 64-bit address a + (EXT(b) << shift). -/
  | lea (f : W64F)
  /-- IADDW (R114): Widening 32-bit add into a 64-bit pair. -/
  | iaddw (f : W64F)
  /-- ICMP (R115): Integer compare set, ANDed or ORed into a lane predicate. -/
  | icmp (f : W64F)
  /-- BYSEL (R112): Byte select, reverse and fill from an 8-byte pool. -/
  | bysel (f : W64F)
  /-- DOT4 (R111): Four-way 8-bit dot product accumulated into 32 bits. -/
  | dot4 (f : W64F)
  /-- FADD (R117): FP32 add rounded once under RM. -/
  | fadd (f : W64F)
  /-- FADD_C16 (R117): Two-address short form of FADD. -/
  | faddC16 (f : C16F)
  /-- FADD_W32 (R117): W32 form of FADD. -/
  | faddW32 (f : W32F)
  /-- FSUB (R117): FP32 subtract. -/
  | fsub (f : W64F)
  /-- FSUB_C16 (R117): Two-address short form of FSUB. -/
  | fsubC16 (f : C16F)
  /-- FSUB_W32 (R117): W32 form of FSUB. -/
  | fsubW32 (f : W32F)
  /-- FMUL (R117): FP32 multiply. -/
  | fmul (f : W64F)
  /-- FMUL_C16 (R117): Two-address short form of FMUL. -/
  | fmulC16 (f : C16F)
  /-- FMUL_W32 (R117): W32 form of FMUL. -/
  | fmulW32 (f : W32F)
  /-- FFMA (R117): Fused FP32 multiply-add with one rounding. -/
  | ffma (f : W64F)
  /-- FMIN (R119): IEEE minimum. -/
  | fmin (f : W64F)
  /-- FMIN_C16 (R119): Two-address short form of FMIN. -/
  | fminC16 (f : C16F)
  /-- FMIN_W32 (R119): W32 form of FMIN. -/
  | fminW32 (f : W32F)
  /-- FMAX (R119): IEEE maximum. -/
  | fmax (f : W64F)
  /-- FMAX_C16 (R119): Two-address short form of FMAX. -/
  | fmaxC16 (f : C16F)
  /-- FMAX_W32 (R119): W32 form of FMAX. -/
  | fmaxW32 (f : W32F)
  /-- FMINN (R119): IEEE minimumNumber. -/
  | fminn (f : W64F)
  /-- FMINN_W32 (R119): W32 form of FMINN. -/
  | fminnW32 (f : W32F)
  /-- FMAXN (R119): IEEE maximumNumber. -/
  | fmaxn (f : W64F)
  /-- FMAXN_W32 (R119): W32 form of FMAXN. -/
  | fmaxnW32 (f : W32F)
  /-- FCMP (R120): FP32 compare combined into a lane predicate. -/
  | fcmp (f : W64F)
  /-- FCLASS (R121): One-hot class mask of an FP32 or FP64 value. -/
  | fclass (f : W64F)
  /-- FDIV (R117): Correctly rounded FP32 divide. -/
  | fdiv (f : W64F)
  /-- FDIV_W32 (R117): W32 form of FDIV. -/
  | fdivW32 (f : W32F)
  /-- FSQRT (R117): Correctly rounded FP32 square root. -/
  | fsqrt (f : W64F)
  /-- FSQRT_W32 (R117): W32 form of FSQRT. -/
  | fsqrtW32 (f : W32F)
  /-- FRCP (R117): Correctly rounded reciprocal. -/
  | frcp (f : W64F)
  /-- FRCP_W32 (R117): W32 form of FRCP. -/
  | frcpW32 (f : W32F)
  /-- FRSQ (R117): Correctly rounded reciprocal square root. -/
  | frsq (f : W64F)
  /-- FRSQ_W32 (R117): W32 form of FRSQ. -/
  | frsqW32 (f : W32F)
  /-- FEXP2 (R117): Correctly rounded 2^a. -/
  | fexp2 (f : W64F)
  /-- FEXP2_W32 (R117): W32 form of FEXP2. -/
  | fexp2W32 (f : W32F)
  /-- FLOG2 (R117): Correctly rounded log2. -/
  | flog2 (f : W64F)
  /-- FLOG2_W32 (R117): W32 form of FLOG2. -/
  | flog2W32 (f : W32F)
  /-- FSINPI (R117): Correctly rounded sin(pi*a). -/
  | fsinpi (f : W64F)
  /-- FCOSPI (R117): Correctly rounded cos(pi*a). -/
  | fcospi (f : W64F)
  /-- FTANH (R117): Correctly rounded tanh. -/
  | ftanh (f : W64F)
  /-- FTANH_W32 (R117): W32 form of FTANH. -/
  | ftanhW32 (f : W32F)
  /-- FRINT (R122): Round FP32 to an integral value under RM. -/
  | frint (f : W64F)
  /-- FRINT_W32 (R122): W32 form of FRINT with RNE. -/
  | frintW32 (f : W32F)
  /-- FLDEXP (R117): Scale a by 2^b with one rounding. -/
  | fldexp (f : W64F)
  /-- HFMA2 (R117): Packed FP16/BF16 fused multiply-add. -/
  | hfma2 (f : W64F)
  /-- HADD2 (R117): Packed half-precision add. -/
  | hadd2 (f : W64F)
  /-- HADD2_W32 (R117): W32 form of HADD2. -/
  | hadd2W32 (f : W32F)
  /-- HMUL2 (R117): Packed half-precision multiply. -/
  | hmul2 (f : W64F)
  /-- HMUL2_W32 (R117): W32 form of HMUL2. -/
  | hmul2W32 (f : W32F)
  /-- HMIN2 (R119): Packed half-precision minimum or minimumNumber. -/
  | hmin2 (f : W64F)
  /-- HMIN2_W32 (R119): W32 form of HMIN2. -/
  | hmin2W32 (f : W32F)
  /-- HMAX2 (R119): Packed half-precision maximum or maximumNumber. -/
  | hmax2 (f : W64F)
  /-- HMAX2_W32 (R119): W32 form of HMAX2. -/
  | hmax2W32 (f : W32F)
  /-- DADD (R117): FP64 add on register pairs. -/
  | dadd (f : W64F)
  /-- DADD_W32 (R117): W32 form of DADD. -/
  | daddW32 (f : W32F)
  /-- DMUL (R117): FP64 multiply. -/
  | dmul (f : W64F)
  /-- DMUL_W32 (R117): W32 form of DMUL. -/
  | dmulW32 (f : W32F)
  /-- DFMA (R117): FP64 fused multiply-add. -/
  | dfma (f : W64F)
  /-- DMIN (R119): FP64 minimum or minimumNumber. -/
  | dmin (f : W64F)
  /-- DMAX (R119): FP64 maximum or maximumNumber. -/
  | dmax (f : W64F)
  /-- DCMP (R120): FP64 compare into a lane predicate. -/
  | dcmp (f : W64F)
  /-- DDIV (R117): FP64 divide. -/
  | ddiv (f : W64F)
  /-- DSQRT (R117): FP64 square root. -/
  | dsqrt (f : W64F)
  /-- CVT (R124): Convert between integer and floating lane types. -/
  | cvt (f : W64F)
  /-- CVTN (R125): Narrow two FP32 values into a format slot's format at a position. -/
  | cvtn (f : W64F)
  /-- CVTW (R126): Widen one packed element to FP32. -/
  | cvtw (f : W64F)
  /-- SPRS (R127): Impose 2:4 sparsity or emit its metadata. -/
  | sprs (f : W64F)
  /-- SEL (R128): Select a or b by a predicate. -/
  | sel (f : W64F)
  /-- PSET (R128): Logical combination of two predicates. -/
  | pset (f : W64F)
  /-- PMOV (R128): Move lane predicates to or from a register. -/
  | pmov (f : W64F)
  /-- RNGH (R129): Fixed stateless 32-bit hash. -/
  | rngh (f : W64F)
  /-- SREG (R130): Read a special register; OPX 1 reads and clears FPSTAT. -/
  | sreg (f : W64F)
  /-- MOV (R131): Register move without change. -/
  | mov (f : W64F)
  /-- MOV_C16 (R131): Unary short form of MOV; all-zero halfword is a no-op. -/
  | movC16 (f : C16F)
  /-- MOV_W32 (R131): W32 form of MOV. -/
  | movW32 (f : W32F)
  /-- BCAST (R131): Broadcast a uniform register to lanes. -/
  | bcast (f : W64F)
  /-- BCAST_W32 (R131): W32 form of BCAST. -/
  | bcastW32 (f : W32F)
  /-- READL (R131): Copy one lane's value into a uniform register. -/
  | readl (f : W64F)
  /-- READL_W32 (R131): W32 form of READL. -/
  | readlW32 (f : W32F)
  /-- VFREE (R182): Clear LIVE bits of a name and free it if unused. -/
  | vfree (f : W64F)
  /-- VFREE_W32 (R182): W32 form of VFREE. -/
  | vfreeW32 (f : W32F)
  /-- SHFL (R134): Read operand A from a chosen source lane. -/
  | shfl (f : W64F)
  /-- SHFL_W32 (R134): W32 form of SHFL.idx without validity predicate. -/
  | shflW32 (f : W32F)
  /-- VRED (R135): Fixed-tree reduction across executing lanes. -/
  | vred (f : W64F)
  /-- VRED_W32 (R135): W32 form of VRED.add.i32. -/
  | vredW32 (f : W32F)
  /-- VSCAN (R135): Fixed-order inclusive prefix scan. -/
  | vscan (f : W64F)
  /-- VOTE (R136): Vote a predicate over executing lanes. -/
  | vote (f : W64F)
  /-- BALLOT (R137): Mask word of lanes whose predicate holds. -/
  | ballot (f : W64F)
  /-- MATCH (R137): Mask word of lanes holding an equal value. -/
  | matchLanes (f : W64F)
  /-- BRD (R94): Divergent per-lane branch, optionally creating a join record. -/
  | brd (f : W64F)
  /-- BRANY (R95): Whole-split branch if any executing lane's predicate holds. -/
  | brany (f : W64F)
  /-- BRALL (R95): Whole-split branch if every executing lane's predicate holds. -/
  | brall (f : W64F)
  /-- BRNONE (R95): Whole-split branch if no executing lane's predicate holds. -/
  | brnone (f : W64F)
  /-- JMP (R96): Jump executing lanes to a target. -/
  | jmp (f : W64F)
  /-- JMPI (R96): Indirect jump checked against the indirect-target table. -/
  | jmpi (f : W64F)
  /-- CALL (R97): Push return address and call. -/
  | call (f : W64F)
  /-- CALLI (R97): Indirect call checked against the table, creating a join. -/
  | calli (f : W64F)
  /-- RET (R98): Pop return address, or exit at depth 0. -/
  | ret (f : W64F)
  /-- RET_W32 (R98): W32 form of RET. -/
  | retW32 (f : W32F)
  /-- EXIT (R98): End executing lanes. -/
  | exit (f : W64F)
  /-- EXIT_W32 (R98): W32 form of EXIT. -/
  | exitW32 (f : W32F)
  /-- YIELD (R99): Free the slot for parked lanes or requeue the run as youngest. -/
  | yield (f : W64F)
  /-- YIELD_W32 (R99): W32 form of YIELD. -/
  | yieldW32 (f : W32F)
  /-- LOOPG (R100): Decrement a uniform register and branch the split while non-zero. -/
  | loopg (f : W64F)
  /-- NOP (R99): No effect beyond its E bit. -/
  | nop (f : W64F)
  /-- NOP_W32 (R99): W32 form of NOP. -/
  | nopW32 (f : W32F)
  /-- LD (R143): Register-targeted global load per lane. -/
  | ld (f : W64F)
  /-- ST (R143): Global store per lane in increasing lane order. -/
  | st (f : W64F)
  /-- LDS (R143): Register-targeted scratchpad load. -/
  | lds (f : W64F)
  /-- STS (R143): Scratchpad store. -/
  | sts (f : W64F)
  /-- LDFE (R145): Wait for full words, load them and optionally empty them indivisibly. -/
  | ldfe (f : W64F)
  /-- STFE (R145): Optionally wait for empty words, then store and mark full indivisibly. -/
  | stfe (f : W64F)
  /-- FESET (R146): Set full/empty bits of a word range. -/
  | feset (f : W64F)
  /-- ATOM (R147): Global atomic at home returning the old value. -/
  | atom (f : W64F)
  /-- ATOMS (R147): Scratchpad atomic at the ranked core's bank. -/
  | atoms (f : W64F)
  /-- RED (R284): Atomic at home with no result. -/
  | red (f : W64F)
  /-- REDO (R286): Send one contribution per lane to an ordered-reduction slot and wait for acceptance. -/
  | redo (f : W64F)
  /-- FENCE (R283): Memory fence with acquire, release and optional sc waits. -/
  | fence (f : W64F)
  /-- PREF (R149): Prefetch a line into L1 or home L2. -/
  | pref (f : W64F)
  /-- DROP (R149): Write back or discard and invalidate a line in the issuing L1. -/
  | drop (f : W64F)
  /-- GLD (R144): Uniform register-targeted load once per split. -/
  | gld (f : W64F)
  /-- GST (R144): Uniform store once per split. -/
  | gst (f : W64F)
  /-- GADD (R191): Uniform integer add. -/
  | gadd (f : W64F)
  /-- GADD_W32 (R191): W32 form of GADD. -/
  | gaddW32 (f : W32F)
  /-- GSUB (R191): Uniform integer subtract. -/
  | gsub (f : W64F)
  /-- GSUB_W32 (R191): W32 form of GSUB. -/
  | gsubW32 (f : W32F)
  /-- GMUL (R191): Uniform integer multiply. -/
  | gmul (f : W64F)
  /-- GMUL_W32 (R191): W32 form of GMUL. -/
  | gmulW32 (f : W32F)
  /-- GMAD (R191): Uniform multiply-add. -/
  | gmad (f : W64F)
  /-- GAND (R191): Uniform bitwise AND. -/
  | gand (f : W64F)
  /-- GAND_W32 (R191): W32 form of GAND. -/
  | gandW32 (f : W32F)
  /-- GOR (R191): Uniform bitwise OR. -/
  | gor (f : W64F)
  /-- GOR_W32 (R191): W32 form of GOR. -/
  | gorW32 (f : W32F)
  /-- GXOR (R191): Uniform bitwise XOR. -/
  | gxor (f : W64F)
  /-- GXOR_W32 (R191): W32 form of GXOR. -/
  | gxorW32 (f : W32F)
  /-- GSHL (R191): Uniform shift left. -/
  | gshl (f : W64F)
  /-- GSHL_W32 (R191): W32 form of GSHL. -/
  | gshlW32 (f : W32F)
  /-- GSHR (R191): Uniform shift right, logical or arithmetic. -/
  | gshr (f : W64F)
  /-- GSHR_W32 (R191): W32 form of GSHR (logical). -/
  | gshrW32 (f : W32F)
  /-- GCMP (R191): Uniform compare into a uniform predicate. -/
  | gcmp (f : W64F)
  /-- GSEL (R191): Uniform select by a uniform predicate. -/
  | gsel (f : W64F)
  /-- GMIN (R191): Uniform minimum. -/
  | gmin (f : W64F)
  /-- GMIN_W32 (R191): W32 form of GMIN. -/
  | gminW32 (f : W32F)
  /-- GMAX (R191): Uniform maximum. -/
  | gmax (f : W64F)
  /-- GMAX_W32 (R191): W32 form of GMAX. -/
  | gmaxW32 (f : W32F)
  /-- GLEA (R191): Uniform 64-bit address arithmetic. -/
  | glea (f : W64F)
  /-- GFADD (R191): Uniform FP32 add. -/
  | gfadd (f : W64F)
  /-- GFADD_W32 (R191): W32 form of GFADD. -/
  | gfaddW32 (f : W32F)
  /-- GFMUL (R191): Uniform FP32 multiply. -/
  | gfmul (f : W64F)
  /-- GFMUL_W32 (R191): W32 form of GFMUL. -/
  | gfmulW32 (f : W32F)
  /-- WAIT (R174): Wait until a class counter is at most N and report a covered failure. -/
  | wait (f : W64F)
  /-- WAIT_W32 (R174): W32 form of WAIT. -/
  | waitW32 (f : W32F)
  /-- SLEEPT (R177): Sleep the split until TIME reaches a deadline. -/
  | sleept (f : W64F)
  /-- SLEEPT_PROM (R177): Sleep until the oldest BC operation completes or its promise passes. -/
  | sleeptProm (f : W64F)
  /-- PLVL (R170): Set the group's requested performance level. -/
  | plvl (f : W64F)
  /-- REGCLM (R187): Queue a claim of registers from the block pool and issue once served. -/
  | regclm (f : W64F)
  /-- REGREL (R187): Release registers of the cap to the block pool. -/
  | regrel (f : W64F)
  /-- BAR (R216): Arrive at a barrier and free the slot. -/
  | bar (f : W64F)
  /-- DQPUSH (R219): Push an entry at the bottom of the core's deque. -/
  | dqpush (f : W64F)
  /-- DQPOP (R219): Pop the bottom entry of the core's deque. -/
  | dqpop (f : W64F)
  /-- DQSTEAL (R219): Take the top entry of a target core's deque. -/
  | dqsteal (f : W64F)
  /-- LNCH (R341): Append a checked launch record to a device queue. -/
  | lnch (f : W64F)
  /-- TRAP (R197): Raise SOFTWARE with TINFO = n. -/
  | trap (f : W64F)
  /-- ERET (R196): Leave handler mode and resume or replay. -/
  | eret (f : W64F)
  /-- MFSR (R197): Read a word of a system register in handler mode. -/
  | mfsr (f : W64F)
  /-- MTSR (R197): Write a word of a system register in handler mode. -/
  | mtsr (f : W64F)
  /-- TLBINV (R296): Invalidate TLB entries over a reach and wait for completion. -/
  | tlbinv (f : W64F)
  /-- BKPT (R197): Raise BKPT. -/
  | bkpt (f : W64F)
  /-- MLD (R211): Check and queue a tile load from scratchpad. -/
  | mld (f : W64F)
  /-- MST (R211): Check and queue a tile store to scratchpad. -/
  | mst (f : W64F)
  /-- MSHP (R210): Set a tile's shape and slot immediately. -/
  | mshp (f : W64F)
  /-- MMOV (R212): Queue a whole-tile copy. -/
  | mmov (f : W64F)
  /-- MZERO (R212): Queue a tile clear. -/
  | mzero (f : W64F)
  /-- EMSK (R232): Set an edge mask. -/
  | emsk (f : W64F)
  /-- MMA (R233): Check and enter a dense matrix multiply request. -/
  | mma (f : W64F)
  /-- MMAS (R235): Check and enter a 2:4-sparse matrix multiply request. -/
  | mmas (f : W64F)
  /-- MCNT (R251): Take a counter plane, update its record and enter a counted pass. -/
  | mcnt (f : W64F)
  /-- MQCH (R254): Capture scales, clear depths and enter a quench of a plane. -/
  | mqch (f : W64F)
  /-- MMRG (R255): Merge one local counter plane into another. -/
  | mmrg (f : W64F)
  /-- MMRG_PEER (R257): Pull another group's counter plane into a local plane. -/
  | mmrgPeer (f : W64F)
  /-- MDRN (R236): Enter a drain of accumulator elements into a tile. -/
  | mdrn (f : W64F)
  /-- MDRNA (R237): Enter an add of a slot into another group's slot. -/
  | mdrna (f : W64F)
  /-- MACZ (R238): Enter a clear of unmasked accumulator elements. -/
  | macz (f : W64F)
  /-- SCTRD (R263): Read the maximum of a scale-table entry. -/
  | sctrd (f : W64F)
  /-- SCTADV (R263): Advance the scale table to a step. -/
  | sctadv (f : W64F)
  /-- SCTADV_AMAX (R263): Arm amax recording on an entry. -/
  | sctadvAmax (f : W64F)
  /-- SCTADV_OFF (R263): Disarm amax recording. -/
  | sctadvOff (f : W64F)
  /-- BCPY (R306): Check and queue a Tongs copy with a promise. -/
  | bcpy (f : W64F)
  /-- BFILL (R306): Check and queue a Tongs fill with a pattern. -/
  | bfill (f : W64F)
  /-- FRZ (R320): Raise freeze counts of a page range indivisibly. -/
  | frz (f : W64F)
  /-- THAW (R320): Lower freeze counts of a page range indivisibly. -/
  | thaw (f : W64F)
  /-- FRZQ (R323): Read a page's freeze directory entry. -/
  | frzq (f : W64F)
  /-- PBAR (R363): Mark a persist epoch boundary for the group. -/
  | pbar (f : W64F)
  /-- PFLUSH (R364): Release at pdom and queue a flush of older SCM writes. -/
  | pflush (f : W64F)
  /-- STEPTAG (R369): Set the group's STEP. -/
  | steptag (f : W64F)
  /-- STEPCM (R370): Check and queue a commit of a step. -/
  | stepcm (f : W64F)
  /-- STEPAB (R371): Check and queue an abort of an uncommitted step. -/
  | stepab (f : W64F)
  /-- SNAPREQ (R373): Check and queue a snapshot of a stepped region. -/
  | snapreq (f : W64F)
  /-- COLL (R397): Check and contribute to a pod collective. -/
  | coll (f : W64F)
  /-- SIGADD (R401): Release at pod scope and add to a signal word. -/
  | sigadd (f : W64F)
  /-- SIGWAIT (R402): Wait until a signal word reaches a threshold. -/
  | sigwait (f : W64F)
  /-- MOVI (R65): Load a 32-bit immediate into lanes. -/
  | movi (f : W64IF)
  /-- GMOVI (R65): Load a 32-bit immediate into a uniform register. -/
  | gmovi (f : W64IF)
  /-- IADDI (R65): Add an immediate in lanes, optionally saturating. -/
  | iaddi (f : W64IF)
  /-- GADDI (R65): Add an immediate to a uniform register. -/
  | gaddi (f : W64IF)
  /-- ICMPI (R65): Compare lanes with an immediate into a predicate. -/
  | icmpi (f : W64IF)
  /-- GCMPI (R65): Compare a uniform register with an immediate. -/
  | gcmpi (f : W64IF)
  /-- ANDI (R65): AND lanes with an immediate. -/
  | andi (f : W64IF)
  /-- RUN_SELECT (R164): A partition not issuing chooses a ready run under ISSCTL policy. -/
  | runSelect (core part : Nat)
  /-- RUN_BOUNDARY (R84): At a run's end the group's splits are re-formed, merged, joined and bound. -/
  | runBoundary (core part : Nat)
  /-- JOIN_TIMEOUT (R87): JAGE reaches 4,096 and the join record is dropped. -/
  | joinTimeout (gid j : Nat)
  /-- RUN_ROTATION (R86): NRUN reaches 256 with bindable parked lanes and the slot frees. -/
  | runRotation (gid slot : Nat)
  /-- STALL_ROTATION (R86): NSTALL reaches 4,096 with bindable parked lanes and the slot frees. -/
  | stallRotation (gid slot : Nat)
  /-- INSTRUCTION_FETCH_FILL (R158): Missing instruction-cache lines arrive and the run becomes ready. -/
  | instructionFetchFill (core ctx : Nat) (line : CodeAddr)
  /-- LOAD_RETURN (R159): A register-targeted load's data returns into the holding buffer. -/
  | loadReturn (id : Nat)
  /-- SETTLE_COMMIT (R159): Once earlier loads have returned, a settle point commits them and its instruction issues. -/
  | settleCommit (gid slot : Nat)
  /-- TRAP_ENTRY (R193): A pending trap enters the partition's free handler bank. -/
  | trapEntry (core part : Nat)
  /-- SLEEPT_WAKE (R177): A sleeping split wakes on its deadline, completion or promise. -/
  | sleeptWake (gid slot : Nat)
  /-- CLOCK_RESTART (R168): A stopped core clock restarts at the grain after a wake condition. -/
  | clockRestart (core grains : Nat)
  /-- LEVEL_RAISE_SETTLED (R169): A domain's raised level takes effect once its voltage settles. -/
  | levelRaiseSettled (dom : Nat)
  /-- REGCLM_CLAIM_SERVED (R187): The claim at the queue head is served when BPOOL covers it. -/
  | regclmClaimServed (blk : Nat)
  /-- REGPOOL_DEADLOCK (R188): End-of-cycle test finds every group blocked and traps the REGCLM splits. -/
  | regpoolDeadlock (blk : Nat)
  /-- EMPTY_ORPHAN (R206): A block with no possible filler traps its stalled LDFE and STFE. -/
  | emptyOrphan (blk : Nat)
  /-- BARRIER_COMPLETE (R216): Every participant lane waits or has exited and the barrier releases them. -/
  | barrierComplete (owner lvl id unit : Nat)
  /-- GROUP_RETIRE (R98): An exited group retires once its BC, TL, MX and FZ operations complete. -/
  | groupRetire (gid : Nat)
  /-- REMOTE_SCRATCHPAD_ACCESS (R202): A remote scratchpad access arriving at a core's banks is performed. -/
  | remoteScratchpadAccess (id : Nat)
  /-- DQSTEAL_ARRIVAL (R220): A steal from another core is applied at the target deque. -/
  | dqstealArrival (id : Nat)
  /-- TL_OPERATION (R213): A group's next TL operation runs and completes in issue order. -/
  | tlOperation (gid : Nat)
  /-- FUSION_HOLD_END (R241): A partial-quarter request's 4-cycle fusion hold expires. -/
  | fusionHoldEnd (quad req : Nat)
  /-- PRIORITY_AGING (R242): A request eligible for 4,096 engine cycles gets effective priority 4. -/
  | priorityAging (quad req : Nat)
  /-- ANVIL_PASS (R242): The array grants an eligible MMA, MMAS or MCNT pass and runs it. -/
  | anvilPass (quad : Nat)
  /-- PASS_RESULT (R244): A pass's results reach its slot 8 engine cycles after its last step. -/
  | passResult (quad req : Nat)
  /-- ACCUMULATOR_PORT_GRANT (R242): The accumulator port grants and performs MDRN, MDRNA, MACZ, MQCH or MMRG. -/
  | accumulatorPortGrant (quad : Nat)
  /-- MDRNA_ARRIVAL (R237): Drained data arrives at the target quad and enters its table or is refused. -/
  | mdrnaArrival (id : Nat)
  /-- PEER_MERGE_TRANSFER (R257): The source quad reads, zeroes and sends the bands of a peer merge. -/
  | peerMergeTransfer (quad req : Nat)
  /-- MX_COMPLETE (R243): An MX operation is reported complete in issue order. -/
  | mxComplete (gid : Nat)
  /-- PAGE_WALK (R294): A walker completes a page-table walk after all TLBs miss. -/
  | pageWalk (core ctx : Nat) (va : Dword)
  /-- HOME_ACCESS (R266): An access, atomic or write-back is performed at its home slice. -/
  | homeAccess (id : Nat)
  /-- L1_EVICTION (R267): An L1 evicts a line, writing back its dirty bytes. -/
  | l1Eviction (core line : Nat)
  /-- REDO_ARRIVAL (R286): A contribution arrives at its slot and is accepted, refused or completes the set. -/
  | redoArrival (id : Nat)
  /-- FAULT_RECORD_WRITE (R298): A waiting fault record is written when the ring has room. -/
  | faultRecordWrite (ctx : Nat)
  /-- FRESP (R301): Firmware answers a KIND 1 record. -/
  | fresp (die : Nat) (v : Dword)
  /-- FIRMWARE_RESUME (R302): A suspended split resumes or enters the handler once all its records are answered. -/
  | firmwareResume (gid slot : Nat)
  /-- TONGS_CHUNK (R307): A Tongs engine performs the next chunk of an operation, pausing or failing as needed. -/
  | tongsChunk (die engine ctx : Nat)
  /-- WBQ_ENTRY (R357): A write waiting at a home slice enters the freed WBQ entry. -/
  | wbqEntry (id : Nat)
  /-- WBQ_DRAIN (R357): A WBQ drains its oldest entry into the SCM stack. -/
  | wbqDrain (die : Nat)
  /-- PFLUSH_COMPLETE (R364): All older SCM writes have entered WBQs and the PFLUSH completes. -/
  | pflushComplete (id : Nat)
  /-- STEPCM_OPERATION (R370): Die 0 commits a step durably and updates every die's C. -/
  | stepcmOperation (ctx : Nat)
  /-- STEPAB_OPERATION (R371): Die 0 sweeps regions marking versions of the aborted step absent. -/
  | stepabOperation (ctx : Nat)
  /-- SNAPSHOT_LINE (R373): The snapshot engine copies the next line of a region. -/
  | snapshotLine (die : Nat)
  /-- FREEZE_NOTICE (R321): A die adds a page to its freeze filter on a notice. -/
  | freezeNotice (die page : Nat)
  /-- FREEZE_ACK (R321): A die acknowledges once earlier writes to the page are performed. -/
  | freezeAck (die page : Nat)
  /-- SEALING_END (R321): All acknowledgements arrived and the page leaves SEALING. -/
  | sealingEnd (page : Nat)
  /-- GATHER (R322): A die removes frozen copies of a thawing page and acknowledges. -/
  | gather (die page : Nat)
  /-- GATHER_END (R322): The last gather acknowledgement arrives and the page leaves THAWING. -/
  | gatherEnd (page : Nat)
  /-- LQPROD_WRITE (R333): Host writes PI of a host queue as the kick. -/
  | lqprodWrite (q : Nat) (v : Dword)
  /-- RECORD_START (R334): The Hearth starts the record at CI or halts the queue. -/
  | recordStart (q : Nat)
  /-- PREDECESSOR_READ (R335): The Hearth rereads a predecessor word after a write to it. -/
  | predecessorRead (q n : Nat)
  /-- GRID_COMPLETE (R335): A grid completes and its completion counter is incremented. -/
  | gridComplete (grid : Nat)
  /-- BLOCK_PLACEMENT (R343): The Hearth places a whole block where resources allow. -/
  | blockPlacement (grid : Nat) (at_ : List Place)
  /-- GATE_REQUEST (R345): An idle quad's THRESH timer expires and the gate sequence runs. -/
  | gateRequest (quad : Nat)
  /-- QUAD_WAKE (R345): A gated quad's voltage settles and the dispatched block is placed. -/
  | quadWake (quad : Nat)
  /-- KTVAL_WRITE (R339): Setting a VAL bit reads and validates a kernel table entry. -/
  | ktvalWrite (ctx w : Nat) (v : Dword)
  /-- SWOUT (R348): CTXCMD 1 starts switching a context out. -/
  | swout (ctx : Nat)
  /-- SWOUT_COMPLETE (R348): After draining, state is saved and STATE becomes 2. -/
  | swoutComplete (ctx : Nat)
  /-- SWIN (R350): CTXCMD 2 places and restores a saved context. -/
  | swin (ctx : Nat) (at_ : List (List Place))
  /-- CLAMP (R351): CTXCMD 3 clamps a context. -/
  | clamp (ctx : Nat)
  /-- RELEASE (R352): CTXCMD 4 resumes every clamped master of a context. -/
  | release (ctx : Nat)
  /-- DESTROY (R352): CTXCMD 5 ends a context. -/
  | destroy (ctx : Nat)
  /-- MCLMP_CLAMP (R353): Firmware clamps one group, Tongs queue or launch queue. -/
  | mclmpClamp (ctx : Nat) (v : Dword)
  /-- MCLMP_RELEASE (R353): Firmware releases one master clamped through MCLMP. -/
  | mclmpRelease (ctx : Nat) (v : Dword)
  /-- TODEV (R355): Hand a region to the device, invalidating its L1 lines. -/
  | todev (host : Bool)
  /-- TOHOST (R355): Hand a region to the host, writing back dirty bytes. -/
  | tohost (host : Bool)
  /-- HANDOVER_DONE (R355): A running hand-over command finishes and sets DONE. -/
  | handoverDone
  /-- REGISTER_WRITE (R332): A write to a register with no behaviour of its own. -/
  | registerWrite (host : Bool) (off : Nat) (v : Dword)
  /-- STEPREC_WRITE (R365): Writing REC loads C from the step record. -/
  | steprecWrite (ctx : Nat) (v : Dword)
  /-- REGION_ENABLE (R372): Writing EN = 1 checks a region and starts its enable sweep. -/
  | regionEnable (ctx r : Nat) (v : Dword)
  /-- ENABLE_SWEEP_END (R372): The enable sweep ends and stepped accesses proceed. -/
  | enableSweepEnd (ctx r : Nat)
  /-- SCRUB (R315): Firmware writes a line with zeros and clears its error-set entry. -/
  | scrub (die : Nat) (v : Dword)
  /-- POWER_FAILURE (R360): Supply loss cuts home slices, drains WBQs and removes power. -/
  | powerFailure
  /-- BELLOWS_INTERVAL (R380): Each 1 µs the Bellows samples power and adjusts pass counts and grants. -/
  | bellowsInterval (now : Sensors) (cur : Tbl Nat)
  /-- CURRENT_LIMIT (R381): Sustained overcurrent forces pass count 4 in a domain. -/
  | currentLimit (dom : Nat)
  /-- THERMAL_TRIP (R382): TMAX at 115 °C for 1 µs runs the power-failure sequence. -/
  | thermalTrip (tmax : Nat)
  /-- BRING_UP (R385): Power-on or I3C reset runs the bring-up stages. -/
  | bringUp (b : BringUp)
  /-- ATTESTATION_REQUEST (R384): A nonce request returns a signed attestation report. -/
  | attestationRequest (nonce : BitVec 256)
  /-- NULL (R387): An acknowledgement-only flit is received. -/
  | nullFlit (port : Nat) (f : Flit)
  /-- RD (R391): A remote read request is performed at the owning home. -/
  | rdFlit (port : Nat) (f : Flit)
  /-- RDD (R391): Read data returns to the requester. -/
  | rddFlit (port : Nat) (f : Flit)
  /-- WR (R391): A remote write is performed at the owning home. -/
  | wrFlit (port : Nat) (f : Flit)
  /-- WACK (R391): A write acknowledgement completes the remote write. -/
  | wackFlit (port : Nat) (f : Flit)
  /-- AT (R393): A remote atomic is applied at the home atomic unit. -/
  | atFlit (port : Nat) (f : Flit)
  /-- ATD (R393): An atomic's old value returns. -/
  | atdFlit (port : Nat) (f : Flit)
  /-- RDO (R393): A remote REDO contribution reaches its slot. -/
  | rdoFlit (port : Nat) (f : Flit)
  /-- FRZN (R404): A freeze notice or gather reaches a package and passes to its dies. -/
  | frznFlit (port : Nat) (f : Flit)
  /-- FACK (R404): A freeze or gather acknowledgement reaches the home. -/
  | fackFlit (port : Nat) (f : Flit)
  /-- COLD (R398): A collective contribution reaches a collective engine and is held or combined. -/
  | coldFlit (port : Nat) (f : Flit)
  /-- BARM (R403): A barrier arrival or release reaches a barrier unit. -/
  | barmFlit (port : Nat) (f : Flit)
  /-- STR (R408): Stripe data or a parity delta is received and applied. -/
  | strFlit (port : Nat) (f : Flit)
  /-- BULK (R387): A multi-line engine transfer flit is received. -/
  | bulkFlit (port : Nat) (f : Flit)
  /-- BAD_FLIT (R387): A flit with unknown TYPE or RSV bits is dropped and counted. -/
  | badFlit (port : Nat) (f : Flit)
  /-- FLIT_CRC_FAILURE (R388): A flit failing CRC is discarded and replayed by the sender. -/
  | flitCrcFailure (port : Nat)
  /-- FABFAIL_WRITE (R404): Setting a FABFAIL bit resolves awaited acknowledgements of that package. -/
  | fabfailWrite (w : Nat) (v : Dword)
  /-- EGCTL_ENABLE (R405): Writing EN = 1 checks and enables the erasure group. -/
  | egctlEnable (v : Dword)
  /-- EGRBLD_GO (R409): Writing GO starts a rebuild of EGRANGE. -/
  | egrbldGo (v : Dword)
  /-- REBUILD_STRIPE (R409): The rebuild solves and writes the package's unit of the next stripe. -/
  | rebuildStripe
  /-- COLLECTIVE_COMPLETE (R399): All members contributed and every DST is written; members complete. -/
  | collectiveComplete (job key seq : Nat)
  /-- SIGADD_APPLIED (R401): The signal addition is applied at home and completes. -/
  | sigaddApplied (id : Nat)
  /-- SIGWAIT_RETEST (R402): Home retests a signal word after a write and may satisfy SIGWAIT. -/
  | sigwaitRetest (gid slot : Nat)
  /-- HOST_WRITE (R324): A host write to device memory through the memory window is checked against freeze filters, stepped regions and erasure areas and either lands at home or is refused with a Completer Abort. -/
  | hostWrite (ctx pa : Nat) (data : List Byte)
  /-- DIE_TLBINV_COMMAND (R295): The TLBINV command written to a die's register window removes matching translations over its reach. -/
  | dieTlbinvCommand (die ctx kind reach : Nat) (va : Dword)
  /-- CLOCK_STOP (R168): A core's clock stops once no group is resident, or once every bound split sleeps in SLEEPT and the last held class has expired. -/
  | clockStop (core : Nat)
  /-- THROTTLING (R382): TMAX crosses THROT, or falls below THROT minus 5 °C, which starts or ends throttling and sets THRT and ALERT bit 2. -/
  | throttling (tmax : Nat)
  /-- FLIT_REPLAY (R388): A sender replays flits from the first unacknowledged one, and after 8 consecutive failed replays the port goes down. -/
  | flitReplay (port : Nat)
  /-- NEAR_BUFFER_EVICTION (R326): A die's near buffer silently evicts a frozen copy of a line. -/
  | nearBufferEviction (die line : Nat)
  /-- SOFT_ERROR (R314): A stored word or line takes an error that its code can correct, or one it can only detect. -/
  | softError (e : SoftError)
deriving DecidableEq, Repr

end Sys2Proof
end

