-- ==== Sys2Proof/WellFormed.lean ====
section
/-! DEFINITION. The machine words an instruction stands for, and which terms of Instr stand for words: an operation whose
row is one mode of a shared op8 must hold that mode's code; an event stands for no word. -/

namespace Sys2Proof

/-- The fields of an operation with the operation code its format carries: op4, op6 or op8. -/
inductive Words where
  | c16 (op4 : BitVec 4) (f : C16F)
  | w32 (op6 : BitVec 6) (f : W32F)
  | w64 (op8 : BitVec 8) (f : W64F)
  | w64i (op8 : BitVec 8) (f : W64IF)
deriving DecidableEq, Repr

/-- The format and operation code of every row (R49, R52, R65, R66); none for an event. -/
def Instr.words : Instr → Option Words
  | .iadd f => some (.w64 0x00 f)
  | .iaddC16 f => some (.c16 2 f)
  | .iaddW32 f => some (.w32 0 f)
  | .isub f => some (.w64 0x01 f)
  | .isubC16 f => some (.c16 3 f)
  | .isubW32 f => some (.w32 1 f)
  | .imul f => some (.w64 0x02 f)
  | .imulC16 f => some (.c16 4 f)
  | .imulW32 f => some (.w32 2 f)
  | .imulh f => some (.w64 0x03 f)
  | .imulhW32 f => some (.w32 3 f)
  | .imad f => some (.w64 0x04 f)
  | .imadw f => some (.w64 0x05 f)
  | .iaddc f => some (.w64 0x06 f)
  | .isubb f => some (.w64 0x07 f)
  | .ineg f => some (.w64 0x08 f)
  | .inegW32 f => some (.w32 59 f)
  | .iabs f => some (.w64 0x09 f)
  | .iabsW32 f => some (.w32 60 f)
  | .imin f => some (.w64 0x0A f)
  | .iminW32 f => some (.w32 4 f)
  | .imax f => some (.w64 0x0B f)
  | .imaxW32 f => some (.w32 5 f)
  | .and f => some (.w64 0x0C f)
  | .andC16 f => some (.c16 5 f)
  | .andW32 f => some (.w32 6 f)
  | .or f => some (.w64 0x0D f)
  | .orC16 f => some (.c16 6 f)
  | .orW32 f => some (.w32 7 f)
  | .xor f => some (.w64 0x0E f)
  | .xorC16 f => some (.c16 7 f)
  | .xorW32 f => some (.w32 8 f)
  | .not f => some (.w64 0x0F f)
  | .notC16 f => some (.c16 1 f)
  | .notW32 f => some (.w32 58 f)
  | .andn f => some (.w64 0x10 f)
  | .andnW32 f => some (.w32 9 f)
  | .shl f => some (.w64 0x11 f)
  | .shlC16 f => some (.c16 8 f)
  | .shlW32 f => some (.w32 10 f)
  | .shrl f => some (.w64 0x12 f)
  | .shrlC16 f => some (.c16 9 f)
  | .shrlW32 f => some (.w32 11 f)
  | .shra f => some (.w64 0x13 f)
  | .shraC16 f => some (.c16 10 f)
  | .shraW32 f => some (.w32 12 f)
  | .rotl f => some (.w64 0x14 f)
  | .rotlW32 f => some (.w32 13 f)
  | .funl f => some (.w64 0x15 f)
  | .bfx f => some (.w64 0x16 f)
  | .bfi f => some (.w64 0x17 f)
  | .popc f => some (.w64 0x18 f)
  | .popcW32 f => some (.w32 14 f)
  | .clz f => some (.w64 0x19 f)
  | .clzW32 f => some (.w32 15 f)
  | .brev f => some (.w64 0x1A f)
  | .brevW32 f => some (.w32 16 f)
  | .idiv f => some (.w64 0x1B f)
  | .irem f => some (.w64 0x1C f)
  | .lea f => some (.w64 0x1D f)
  | .iaddw f => some (.w64 0x1E f)
  | .icmp f => some (.w64 0x1F f)
  | .bysel f => some (.w64 0x20 f)
  | .dot4 f => some (.w64 0x21 f)
  | .fadd f => some (.w64 0x30 f)
  | .faddC16 f => some (.c16 11 f)
  | .faddW32 f => some (.w32 17 f)
  | .fsub f => some (.w64 0x31 f)
  | .fsubC16 f => some (.c16 12 f)
  | .fsubW32 f => some (.w32 18 f)
  | .fmul f => some (.w64 0x32 f)
  | .fmulC16 f => some (.c16 13 f)
  | .fmulW32 f => some (.w32 19 f)
  | .ffma f => some (.w64 0x33 f)
  | .fmin f => some (.w64 0x34 f)
  | .fminC16 f => some (.c16 14 f)
  | .fminW32 f => some (.w32 20 f)
  | .fmax f => some (.w64 0x35 f)
  | .fmaxC16 f => some (.c16 15 f)
  | .fmaxW32 f => some (.w32 21 f)
  | .fminn f => some (.w64 0x36 f)
  | .fminnW32 f => some (.w32 22 f)
  | .fmaxn f => some (.w64 0x37 f)
  | .fmaxnW32 f => some (.w32 23 f)
  | .fcmp f => some (.w64 0x38 f)
  | .fclass f => some (.w64 0x39 f)
  | .fdiv f => some (.w64 0x3A f)
  | .fdivW32 f => some (.w32 29 f)
  | .fsqrt f => some (.w64 0x3B f)
  | .fsqrtW32 f => some (.w32 28 f)
  | .frcp f => some (.w64 0x3C f)
  | .frcpW32 f => some (.w32 24 f)
  | .frsq f => some (.w64 0x3D f)
  | .frsqW32 f => some (.w32 25 f)
  | .fexp2 f => some (.w64 0x3E f)
  | .fexp2W32 f => some (.w32 26 f)
  | .flog2 f => some (.w64 0x3F f)
  | .flog2W32 f => some (.w32 27 f)
  | .fsinpi f => some (.w64 0x40 f)
  | .fcospi f => some (.w64 0x41 f)
  | .ftanh f => some (.w64 0x42 f)
  | .ftanhW32 f => some (.w32 30 f)
  | .frint f => some (.w64 0x43 f)
  | .frintW32 f => some (.w32 63 f)
  | .fldexp f => some (.w64 0x44 f)
  | .hfma2 f => some (.w64 0x45 f)
  | .hadd2 f => some (.w64 0x46 f)
  | .hadd2W32 f => some (.w32 31 f)
  | .hmul2 f => some (.w64 0x47 f)
  | .hmul2W32 f => some (.w32 32 f)
  | .hmin2 f => some (.w64 0x48 f)
  | .hmin2W32 f => some (.w32 33 f)
  | .hmax2 f => some (.w64 0x49 f)
  | .hmax2W32 f => some (.w32 34 f)
  | .dadd f => some (.w64 0x4A f)
  | .daddW32 f => some (.w32 35 f)
  | .dmul f => some (.w64 0x4B f)
  | .dmulW32 f => some (.w32 36 f)
  | .dfma f => some (.w64 0x4C f)
  | .dmin f => some (.w64 0x4D f)
  | .dmax f => some (.w64 0x4E f)
  | .dcmp f => some (.w64 0x4F f)
  | .ddiv f => some (.w64 0x50 f)
  | .dsqrt f => some (.w64 0x51 f)
  | .cvt f => some (.w64 0x60 f)
  | .cvtn f => some (.w64 0x61 f)
  | .cvtw f => some (.w64 0x62 f)
  | .sprs f => some (.w64 0x63 f)
  | .sel f => some (.w64 0x64 f)
  | .pset f => some (.w64 0x65 f)
  | .pmov f => some (.w64 0x66 f)
  | .rngh f => some (.w64 0x67 f)
  | .sreg f => some (.w64 0x68 f)
  | .mov f => some (.w64 0x69 f)
  | .movC16 f => some (.c16 0 f)
  | .movW32 f => some (.w32 37 f)
  | .bcast f => some (.w64 0x6A f)
  | .bcastW32 f => some (.w32 38 f)
  | .readl f => some (.w64 0x6B f)
  | .readlW32 f => some (.w32 39 f)
  | .vfree f => some (.w64 0x6C f)
  | .vfreeW32 f => some (.w32 40 f)
  | .shfl f => some (.w64 0x70 f)
  | .shflW32 f => some (.w32 61 f)
  | .vred f => some (.w64 0x71 f)
  | .vredW32 f => some (.w32 62 f)
  | .vscan f => some (.w64 0x72 f)
  | .vote f => some (.w64 0x73 f)
  | .ballot f => some (.w64 0x74 f)
  | .matchLanes f => some (.w64 0x75 f)
  | .brd f => some (.w64 0x80 f)
  | .brany f => some (.w64 0x81 f)
  | .brall f => some (.w64 0x82 f)
  | .brnone f => some (.w64 0x83 f)
  | .jmp f => some (.w64 0x84 f)
  | .jmpi f => some (.w64 0x85 f)
  | .call f => some (.w64 0x86 f)
  | .calli f => some (.w64 0x87 f)
  | .ret f => some (.w64 0x88 f)
  | .retW32 f => some (.w32 57 f)
  | .exit f => some (.w64 0x89 f)
  | .exitW32 f => some (.w32 56 f)
  | .yield f => some (.w64 0x8A f)
  | .yieldW32 f => some (.w32 54 f)
  | .loopg f => some (.w64 0x8B f)
  | .nop f => some (.w64 0x8C f)
  | .nopW32 f => some (.w32 55 f)
  | .ld f => some (.w64 0x90 f)
  | .st f => some (.w64 0x91 f)
  | .lds f => some (.w64 0x92 f)
  | .sts f => some (.w64 0x93 f)
  | .ldfe f => some (.w64 0x94 f)
  | .stfe f => some (.w64 0x95 f)
  | .feset f => some (.w64 0x96 f)
  | .atom f => some (.w64 0x97 f)
  | .atoms f => some (.w64 0x98 f)
  | .red f => some (.w64 0x99 f)
  | .redo f => some (.w64 0x9A f)
  | .fence f => some (.w64 0x9B f)
  | .pref f => some (.w64 0x9C f)
  | .drop f => some (.w64 0x9D f)
  | .gld f => some (.w64 0x9E f)
  | .gst f => some (.w64 0x9F f)
  | .gadd f => some (.w64 0xB0 f)
  | .gaddW32 f => some (.w32 41 f)
  | .gsub f => some (.w64 0xB1 f)
  | .gsubW32 f => some (.w32 42 f)
  | .gmul f => some (.w64 0xB2 f)
  | .gmulW32 f => some (.w32 43 f)
  | .gmad f => some (.w64 0xB3 f)
  | .gand f => some (.w64 0xB4 f)
  | .gandW32 f => some (.w32 44 f)
  | .gor f => some (.w64 0xB5 f)
  | .gorW32 f => some (.w32 45 f)
  | .gxor f => some (.w64 0xB6 f)
  | .gxorW32 f => some (.w32 46 f)
  | .gshl f => some (.w64 0xB7 f)
  | .gshlW32 f => some (.w32 47 f)
  | .gshr f => some (.w64 0xB8 f)
  | .gshrW32 f => some (.w32 48 f)
  | .gcmp f => some (.w64 0xB9 f)
  | .gsel f => some (.w64 0xBA f)
  | .gmin f => some (.w64 0xBB f)
  | .gminW32 f => some (.w32 49 f)
  | .gmax f => some (.w64 0xBC f)
  | .gmaxW32 f => some (.w32 50 f)
  | .glea f => some (.w64 0xBD f)
  | .gfadd f => some (.w64 0xBE f)
  | .gfaddW32 f => some (.w32 51 f)
  | .gfmul f => some (.w64 0xBF f)
  | .gfmulW32 f => some (.w32 52 f)
  | .wait f => some (.w64 0xC0 f)
  | .waitW32 f => some (.w32 53 f)
  | .sleept f => some (.w64 0xC1 f)
  | .sleeptProm f => some (.w64 0xC1 f)
  | .plvl f => some (.w64 0xC2 f)
  | .regclm f => some (.w64 0xC3 f)
  | .regrel f => some (.w64 0xC4 f)
  | .bar f => some (.w64 0xC5 f)
  | .dqpush f => some (.w64 0xC6 f)
  | .dqpop f => some (.w64 0xC7 f)
  | .dqsteal f => some (.w64 0xC8 f)
  | .lnch f => some (.w64 0xC9 f)
  | .trap f => some (.w64 0xCA f)
  | .eret f => some (.w64 0xCB f)
  | .mfsr f => some (.w64 0xCC f)
  | .mtsr f => some (.w64 0xCD f)
  | .tlbinv f => some (.w64 0xCE f)
  | .bkpt f => some (.w64 0xCF f)
  | .mld f => some (.w64 0xD0 f)
  | .mst f => some (.w64 0xD1 f)
  | .mshp f => some (.w64 0xD2 f)
  | .mmov f => some (.w64 0xD3 f)
  | .mzero f => some (.w64 0xD4 f)
  | .emsk f => some (.w64 0xD5 f)
  | .mma f => some (.w64 0xD6 f)
  | .mmas f => some (.w64 0xD7 f)
  | .mcnt f => some (.w64 0xD8 f)
  | .mqch f => some (.w64 0xD9 f)
  | .mmrg f => some (.w64 0xDA f)
  | .mmrgPeer f => some (.w64 0xDA f)
  | .mdrn f => some (.w64 0xDB f)
  | .mdrna f => some (.w64 0xDC f)
  | .macz f => some (.w64 0xDD f)
  | .sctrd f => some (.w64 0xDE f)
  | .sctadv f => some (.w64 0xDF f)
  | .sctadvAmax f => some (.w64 0xDF f)
  | .sctadvOff f => some (.w64 0xDF f)
  | .bcpy f => some (.w64 0xE0 f)
  | .bfill f => some (.w64 0xE1 f)
  | .frz f => some (.w64 0xE2 f)
  | .thaw f => some (.w64 0xE3 f)
  | .frzq f => some (.w64 0xE4 f)
  | .pbar f => some (.w64 0xE5 f)
  | .pflush f => some (.w64 0xE6 f)
  | .steptag f => some (.w64 0xE7 f)
  | .stepcm f => some (.w64 0xE8 f)
  | .stepab f => some (.w64 0xE9 f)
  | .snapreq f => some (.w64 0xEA f)
  | .coll f => some (.w64 0xEB f)
  | .sigadd f => some (.w64 0xEC f)
  | .sigwait f => some (.w64 0xED f)
  | .movi f => some (.w64i 0xF0 f)
  | .gmovi f => some (.w64i 0xF1 f)
  | .iaddi f => some (.w64i 0xF2 f)
  | .gaddi f => some (.w64i 0xF3 f)
  | .icmpi f => some (.w64i 0xF4 f)
  | .gcmpi f => some (.w64i 0xF5 f)
  | .andi f => some (.w64i 0xF6 f)
  | .runSelect _ _ => none
  | .runBoundary _ _ => none
  | .joinTimeout _ _ => none
  | .runRotation _ _ => none
  | .stallRotation _ _ => none
  | .instructionFetchFill _ _ _ => none
  | .loadReturn _ => none
  | .settleCommit _ _ => none
  | .trapEntry _ _ => none
  | .sleeptWake _ _ => none
  | .clockRestart _ _ => none
  | .levelRaiseSettled _ => none
  | .regclmClaimServed _ => none
  | .regpoolDeadlock _ => none
  | .emptyOrphan _ => none
  | .barrierComplete _ _ _ _ => none
  | .groupRetire _ => none
  | .remoteScratchpadAccess _ => none
  | .dqstealArrival _ => none
  | .tlOperation _ => none
  | .fusionHoldEnd _ _ => none
  | .priorityAging _ _ => none
  | .anvilPass _ => none
  | .passResult _ _ => none
  | .accumulatorPortGrant _ => none
  | .mdrnaArrival _ => none
  | .peerMergeTransfer _ _ => none
  | .mxComplete _ => none
  | .pageWalk _ _ _ => none
  | .homeAccess _ => none
  | .l1Eviction _ _ => none
  | .redoArrival _ => none
  | .faultRecordWrite _ => none
  | .fresp _ _ => none
  | .firmwareResume _ _ => none
  | .tongsChunk _ _ _ => none
  | .wbqEntry _ => none
  | .wbqDrain _ => none
  | .pflushComplete _ => none
  | .stepcmOperation _ => none
  | .stepabOperation _ => none
  | .snapshotLine _ => none
  | .freezeNotice _ _ => none
  | .freezeAck _ _ => none
  | .sealingEnd _ => none
  | .gather _ _ => none
  | .gatherEnd _ => none
  | .lqprodWrite _ _ => none
  | .recordStart _ => none
  | .predecessorRead _ _ => none
  | .gridComplete _ => none
  | .blockPlacement _ _ => none
  | .gateRequest _ => none
  | .quadWake _ => none
  | .ktvalWrite _ _ _ => none
  | .swout _ => none
  | .swoutComplete _ => none
  | .swin _ _ => none
  | .clamp _ => none
  | .release _ => none
  | .destroy _ => none
  | .mclmpClamp _ _ => none
  | .mclmpRelease _ _ => none
  | .todev _ => none
  | .tohost _ => none
  | .handoverDone => none
  | .registerWrite _ _ _ => none
  | .steprecWrite _ _ => none
  | .regionEnable _ _ _ => none
  | .enableSweepEnd _ _ => none
  | .scrub _ _ => none
  | .powerFailure => none
  | .bellowsInterval _ _ => none
  | .currentLimit _ => none
  | .thermalTrip _ => none
  | .bringUp _ => none
  | .attestationRequest _ => none
  | .nullFlit _ _ => none
  | .rdFlit _ _ => none
  | .rddFlit _ _ => none
  | .wrFlit _ _ => none
  | .wackFlit _ _ => none
  | .atFlit _ _ => none
  | .atdFlit _ _ => none
  | .rdoFlit _ _ => none
  | .frznFlit _ _ => none
  | .fackFlit _ _ => none
  | .coldFlit _ _ => none
  | .barmFlit _ _ => none
  | .strFlit _ _ => none
  | .bulkFlit _ _ => none
  | .badFlit _ _ => none
  | .flitCrcFailure _ => none
  | .fabfailWrite _ _ => none
  | .egctlEnable _ => none
  | .egrbldGo _ => none
  | .rebuildStripe => none
  | .collectiveComplete _ _ _ => none
  | .sigaddApplied _ => none
  | .sigwaitRetest _ _ => none
  | .hostWrite _ _ _ => none
  | .dieTlbinvCommand _ _ _ _ _ => none
  | .clockStop _ => none
  | .throttling _ => none
  | .flitReplay _ => none
  | .nearBufferEviction _ _ => none
  | .softError _ => none

/-- Whether the row is an event: a step of the part that no instruction word encodes. -/
def Instr.isEvent (i : Instr) : Bool := i.words.isNone

/-- The code in M12 that selects a row where rows share one op8: MODE of SLEEPT (R177), OPX of MMRG (R250) and of SCTADV
(R263). The base row of each takes every code no other row takes, reserved ones included. -/
def Instr.modeOk : Instr → Bool
  | .sleept f => f.m12.extractLsb' 9 3 != 1#3
  | .sleeptProm f => f.m12.extractLsb' 9 3 == 1#3
  | .mmrg f => f.m12.extractLsb' 0 2 != 1#2
  | .mmrgPeer f => f.m12.extractLsb' 0 2 == 1#2
  | .sctadv f => f.m12.extractLsb' 0 2 == 0#2 || f.m12.extractLsb' 0 2 == 3#2
  | .sctadvAmax f => f.m12.extractLsb' 0 2 == 1#2
  | .sctadvOff f => f.m12.extractLsb' 0 2 == 2#2
  | _ => true

/-- A term is well formed when it stands for words: it is an operation and holds its row's mode code. -/
def Instr.wellFormed (i : Instr) : Bool := !i.isEvent && i.modeOk

end Sys2Proof
end

