-- ==== Sys2Proof/Decode.lean ====
section
/-! DEFINITION. The decoder, total on any bytes and rejecting by name (R45, R69), and after it the encoder, written from
the same encoding tables (R48 to R66). Lean's compiled code cannot build a term of a constructor beyond the 245th that has
fields, so the definitions that build one are marked noncomputable: the kernel evaluates them as any other. -/

namespace Sys2Proof

/-- Why bytes are no instruction. -/
inductive DecodeError where
  /-- Fewer bytes than the first halfword's length names (R45). -/
  | truncated
  /-- The op8 is reserved: the encoding faults ILLEGAL_OPCODE (R69). -/
  | reservedOp8 (op8 : Nat)
deriving DecidableEq, Repr

/-- The op4 map (R49), part 0. -/
noncomputable def c16Ctors0 : List (Nat × (C16F → Instr)) :=
  [(0, .movC16), (1, .notC16), (2, .iaddC16), (3, .isubC16),
   (4, .imulC16), (5, .andC16), (6, .orC16), (7, .xorC16),
   (8, .shlC16), (9, .shrlC16), (10, .shraC16), (11, .faddC16),
   (12, .fsubC16), (13, .fmulC16), (14, .fminC16), (15, .fmaxC16)]

/-- The op4 map (R49). -/
noncomputable def c16Ctors : List (Nat × (C16F → Instr)) := c16Ctors0

/-- The op6 map (R52), part 0. -/
noncomputable def w32Ctors0 : List (Nat × (W32F → Instr)) :=
  [(0, .iaddW32), (1, .isubW32), (2, .imulW32), (3, .imulhW32),
   (4, .iminW32), (5, .imaxW32), (6, .andW32), (7, .orW32),
   (8, .xorW32), (9, .andnW32), (10, .shlW32), (11, .shrlW32),
   (12, .shraW32), (13, .rotlW32), (14, .popcW32), (15, .clzW32),
   (16, .brevW32), (17, .faddW32), (18, .fsubW32), (19, .fmulW32),
   (20, .fminW32), (21, .fmaxW32), (22, .fminnW32), (23, .fmaxnW32),
   (24, .frcpW32), (25, .frsqW32), (26, .fexp2W32), (27, .flog2W32),
   (28, .fsqrtW32), (29, .fdivW32), (30, .ftanhW32), (31, .hadd2W32)]

/-- The op6 map (R52), part 1. -/
noncomputable def w32Ctors1 : List (Nat × (W32F → Instr)) :=
  [(32, .hmul2W32), (33, .hmin2W32), (34, .hmax2W32), (35, .daddW32),
   (36, .dmulW32), (37, .movW32), (38, .bcastW32), (39, .readlW32),
   (40, .vfreeW32), (41, .gaddW32), (42, .gsubW32), (43, .gmulW32),
   (44, .gandW32), (45, .gorW32), (46, .gxorW32), (47, .gshlW32),
   (48, .gshrW32), (49, .gminW32), (50, .gmaxW32), (51, .gfaddW32),
   (52, .gfmulW32), (53, .waitW32), (54, .yieldW32), (55, .nopW32),
   (56, .exitW32), (57, .retW32), (58, .notW32), (59, .inegW32),
   (60, .iabsW32), (61, .shflW32), (62, .vredW32), (63, .frintW32)]

/-- The op6 map (R52). -/
noncomputable def w32Ctors : List (Nat × (W32F → Instr)) := w32Ctors0 ++ w32Ctors1

/-- The op8 map of the W64 format (R66), but for the three codes whose rows the table splits by mode, part 0. -/
noncomputable def w64Ctors0 : List (Nat × (W64F → Instr)) :=
  [(0x00, .iadd), (0x01, .isub), (0x02, .imul), (0x03, .imulh),
   (0x04, .imad), (0x05, .imadw), (0x06, .iaddc), (0x07, .isubb),
   (0x08, .ineg), (0x09, .iabs), (0x0A, .imin), (0x0B, .imax),
   (0x0C, .and), (0x0D, .or), (0x0E, .xor), (0x0F, .not),
   (0x10, .andn), (0x11, .shl), (0x12, .shrl), (0x13, .shra),
   (0x14, .rotl), (0x15, .funl), (0x16, .bfx), (0x17, .bfi),
   (0x18, .popc), (0x19, .clz), (0x1A, .brev), (0x1B, .idiv),
   (0x1C, .irem), (0x1D, .lea), (0x1E, .iaddw), (0x1F, .icmp)]

/-- The op8 map of the W64 format (R66), but for the three codes whose rows the table splits by mode, part 1. -/
noncomputable def w64Ctors1 : List (Nat × (W64F → Instr)) :=
  [(0x20, .bysel), (0x21, .dot4), (0x30, .fadd), (0x31, .fsub),
   (0x32, .fmul), (0x33, .ffma), (0x34, .fmin), (0x35, .fmax),
   (0x36, .fminn), (0x37, .fmaxn), (0x38, .fcmp), (0x39, .fclass),
   (0x3A, .fdiv), (0x3B, .fsqrt), (0x3C, .frcp), (0x3D, .frsq),
   (0x3E, .fexp2), (0x3F, .flog2), (0x40, .fsinpi), (0x41, .fcospi),
   (0x42, .ftanh), (0x43, .frint), (0x44, .fldexp), (0x45, .hfma2),
   (0x46, .hadd2), (0x47, .hmul2), (0x48, .hmin2), (0x49, .hmax2),
   (0x4A, .dadd), (0x4B, .dmul), (0x4C, .dfma), (0x4D, .dmin)]

/-- The op8 map of the W64 format (R66), but for the three codes whose rows the table splits by mode, part 2. -/
noncomputable def w64Ctors2 : List (Nat × (W64F → Instr)) :=
  [(0x4E, .dmax), (0x4F, .dcmp), (0x50, .ddiv), (0x51, .dsqrt),
   (0x60, .cvt), (0x61, .cvtn), (0x62, .cvtw), (0x63, .sprs),
   (0x64, .sel), (0x65, .pset), (0x66, .pmov), (0x67, .rngh),
   (0x68, .sreg), (0x69, .mov), (0x6A, .bcast), (0x6B, .readl),
   (0x6C, .vfree), (0x70, .shfl), (0x71, .vred), (0x72, .vscan),
   (0x73, .vote), (0x74, .ballot), (0x75, .matchLanes), (0x80, .brd),
   (0x81, .brany), (0x82, .brall), (0x83, .brnone), (0x84, .jmp),
   (0x85, .jmpi), (0x86, .call), (0x87, .calli), (0x88, .ret)]

/-- The op8 map of the W64 format (R66), but for the three codes whose rows the table splits by mode, part 3. -/
noncomputable def w64Ctors3 : List (Nat × (W64F → Instr)) :=
  [(0x89, .exit), (0x8A, .yield), (0x8B, .loopg), (0x8C, .nop),
   (0x90, .ld), (0x91, .st), (0x92, .lds), (0x93, .sts),
   (0x94, .ldfe), (0x95, .stfe), (0x96, .feset), (0x97, .atom),
   (0x98, .atoms), (0x99, .red), (0x9A, .redo), (0x9B, .fence),
   (0x9C, .pref), (0x9D, .drop), (0x9E, .gld), (0x9F, .gst),
   (0xB0, .gadd), (0xB1, .gsub), (0xB2, .gmul), (0xB3, .gmad),
   (0xB4, .gand), (0xB5, .gor), (0xB6, .gxor), (0xB7, .gshl),
   (0xB8, .gshr), (0xB9, .gcmp), (0xBA, .gsel), (0xBB, .gmin)]

/-- The op8 map of the W64 format (R66), but for the three codes whose rows the table splits by mode, part 4. -/
noncomputable def w64Ctors4 : List (Nat × (W64F → Instr)) :=
  [(0xBC, .gmax), (0xBD, .glea), (0xBE, .gfadd), (0xBF, .gfmul),
   (0xC0, .wait), (0xC2, .plvl), (0xC3, .regclm), (0xC4, .regrel),
   (0xC5, .bar), (0xC6, .dqpush), (0xC7, .dqpop), (0xC8, .dqsteal),
   (0xC9, .lnch), (0xCA, .trap), (0xCB, .eret), (0xCC, .mfsr),
   (0xCD, .mtsr), (0xCE, .tlbinv), (0xCF, .bkpt), (0xD0, .mld),
   (0xD1, .mst), (0xD2, .mshp), (0xD3, .mmov), (0xD4, .mzero),
   (0xD5, .emsk), (0xD6, .mma), (0xD7, .mmas), (0xD8, .mcnt),
   (0xD9, .mqch), (0xDB, .mdrn), (0xDC, .mdrna), (0xDD, .macz)]

/-- The op8 map of the W64 format (R66), but for the three codes whose rows the table splits by mode, part 5. -/
noncomputable def w64Ctors5 : List (Nat × (W64F → Instr)) :=
  [(0xDE, .sctrd), (0xE0, .bcpy), (0xE1, .bfill), (0xE2, .frz),
   (0xE3, .thaw), (0xE4, .frzq), (0xE5, .pbar), (0xE6, .pflush),
   (0xE7, .steptag), (0xE8, .stepcm), (0xE9, .stepab), (0xEA, .snapreq),
   (0xEB, .coll), (0xEC, .sigadd), (0xED, .sigwait)]

/-- The op8 map of the W64 format (R66), but for the three codes whose rows the table splits by mode. -/
noncomputable def w64Ctors : List (Nat × (W64F → Instr)) := w64Ctors0 ++ w64Ctors1 ++ w64Ctors2 ++ w64Ctors3 ++ w64Ctors4 ++ w64Ctors5

/-- The op8 map of the W64I format (R65), part 0. -/
noncomputable def w64iCtors0 : List (Nat × (W64IF → Instr)) :=
  [(0xF0, .movi), (0xF1, .gmovi), (0xF2, .iaddi), (0xF3, .gaddi),
   (0xF4, .icmpi), (0xF5, .gcmpi), (0xF6, .andi)]

/-- The op8 map of the W64I format (R65). -/
noncomputable def w64iCtors : List (Nat × (W64IF → Instr)) := w64iCtors0
/-- Looks an operation code up in a table of rows. -/
def findRow {α : Type} (t : List (Nat × (α → Instr))) (op : Nat) : Option (α → Instr) :=
  match t with
  | [] => none
  | (k, c) :: r => if k = op then some c else findRow r op

/-- The length in bytes that the first byte of an instruction names (R45). -/
def lengthOf (first : Byte) : Nat :=
  if first.toNat % 2 = 0 then 2 else if first.toNat % 4 = 1 then 4 else 8

/-- The fields of a C16 halfword (R48). -/
def c16Fields (h : BitVec 16) : C16F :=
  { s := h.extractLsb' 11 5, d := h.extractLsb' 6 5, e := h.extractLsb' 1 1 }

/-- The fields of a W32 word (R50). -/
def w32Fields (w : BitVec 32) : W32F :=
  { k := w.extractLsb' 31 1, b := w.extractLsb' 24 7, a := w.extractLsb' 17 7, d := w.extractLsb' 10 7,
    st := w.extractLsb' 3 1, e := w.extractLsb' 2 1 }

/-- The fields of a W64 word (R53). -/
def w64Fields (w : BitVec 64) : W64F :=
  { m12 := w.extractLsb' 52 12, c := w.extractLsb' 43 9, b := w.extractLsb' 34 9, a := w.extractLsb' 25 9,
    d := w.extractLsb' 16 9, gn := w.extractLsb' 15 1, g := w.extractLsb' 12 3, st := w.extractLsb' 3 1,
    e := w.extractLsb' 2 1 }

/-- The fields of a W64I word (R64). -/
def w64iFields (w : BitVec 64) : W64IF :=
  { imm := w.extractLsb' 32 32, mod7 := w.extractLsb' 25 7, d := w.extractLsb' 16 9, gn := w.extractLsb' 15 1,
    g := w.extractLsb' 12 3, st := w.extractLsb' 3 1, e := w.extractLsb' 2 1 }

/-- The row of a W64 op8 that the table splits by a mode code in M12 (R177, R250, R263). -/
noncomputable def splitRow (op8 : Nat) (f : W64F) : Option Instr :=
  if op8 = 0xC1 then
    some (if f.m12.extractLsb' 9 3 = 1#3 then .sleeptProm f else .sleept f)
  else if op8 = 0xDA then
    some (if f.m12.extractLsb' 0 2 = 1#2 then .mmrgPeer f else .mmrg f)
  else if op8 = 0xDF then
    some (if f.m12.extractLsb' 0 2 = 1#2 then .sctadvAmax f
      else if f.m12.extractLsb' 0 2 = 2#2 then .sctadvOff f else .sctadv f)
  else none

/-- Whether an op8 belongs to the W64I format (R64). -/
def isW64I (op8 : Nat) : Bool := 0xF0 ≤ op8

/-- Splits a word of the length its first byte names into format, operation code and fields (R45, R48, R50, R53, R64). -/
def fieldsOf (n v : Nat) : Words :=
  if n = 2 then
    let h := BitVec.ofNat 16 v
    .c16 (h.extractLsb' 2 4) (c16Fields h)
  else if n = 4 then
    let w := BitVec.ofNat 32 v
    .w32 (w.extractLsb' 4 6) (w32Fields w)
  else
    let w := BitVec.ofNat 64 v
    let op := w.extractLsb' 4 8
    if isW64I op.toNat then .w64i op (w64iFields w) else .w64 op (w64Fields w)

/-- Reads format and fields from the front of a byte list, with the length in bytes (R45, R46). -/
def readWords (bs : List Byte) : Except DecodeError (Words × Nat) :=
  match bs with
  | [] => .error .truncated
  | b :: _ =>
    let n := lengthOf b
    if bs.length < n then .error .truncated else .ok (fieldsOf n (ofBytes (bs.take n)), n)

/-- The row that fields and operation code name (R49, R52, R65, R66); a reserved op8 is refused (R69). -/
noncomputable def Words.instr (w : Words) : Except DecodeError Instr :=
  match w with
  | .c16 op f =>
    match findRow c16Ctors op.toNat with
    | some c => .ok (c f)
    | none => .error (.reservedOp8 0)
  | .w32 op f =>
    match findRow w32Ctors op.toNat with
    | some c => .ok (c f)
    | none => .error (.reservedOp8 0)
  | .w64 op f =>
    match splitRow op.toNat f with
    | some i => .ok i
    | none =>
      match findRow w64Ctors op.toNat with
      | some c => .ok (c f)
      | none => .error (.reservedOp8 op.toNat)
  | .w64i op f =>
    match findRow w64iCtors op.toNat with
    | some c => .ok (c f)
    | none => .error (.reservedOp8 op.toNat)

/-- Reads one instruction from the front of a byte list and gives it with its length. -/
noncomputable def decode (bs : List Byte) : Except DecodeError (Instr × Nat) :=
  match readWords bs with
  | .error e => .error e
  | .ok (w, n) =>
    match w.instr with
    | .ok i => .ok (i, n)
    | .error e => .error e

/-- The bits of a C16 halfword (R48). -/
def c16Bits (op4 : BitVec 4) (f : C16F) : BitVec 16 := f.s ++ f.d ++ op4 ++ f.e ++ 0#1

/-- The bits of a W32 word (R50). -/
def w32Bits (op6 : BitVec 6) (f : W32F) : BitVec 32 :=
  f.k ++ f.b ++ f.a ++ f.d ++ op6 ++ f.st ++ f.e ++ 1#2

/-- The bits of a W64 word (R53). -/
def w64Bits (op8 : BitVec 8) (f : W64F) : BitVec 64 :=
  f.m12 ++ f.c ++ f.b ++ f.a ++ f.d ++ f.gn ++ f.g ++ op8 ++ f.st ++ f.e ++ 3#2

/-- The bits of a W64I word (R64). -/
def w64iBits (op8 : BitVec 8) (f : W64IF) : BitVec 64 :=
  f.imm ++ f.mod7 ++ f.d ++ f.gn ++ f.g ++ op8 ++ f.st ++ f.e ++ 3#2

/-- The bytes that format, operation code and fields stand for, least significant first (R46). -/
def Words.bytes (w : Words) : List Byte :=
  match w with
  | .c16 op f => bytesOf 2 (c16Bits op f).toNat
  | .w32 op f => bytesOf 4 (w32Bits op f).toNat
  | .w64 op f => bytesOf 8 (w64Bits op f).toNat
  | .w64i op f => bytesOf 8 (w64iBits op f).toNat

/-- The bytes of an operation; none for an event. -/
def encode (i : Instr) : Option (List Byte) := i.words.map Words.bytes

/-- The length in bytes (R45). -/
def Words.len : Words → Nat
  | .c16 _ _ => 2
  | .w32 _ _ => 4
  | .w64 _ _ => 8
  | .w64i _ _ => 8

/-- The S bit: a settle point (R47); a C16 instruction never settles. -/
def Words.sBit : Words → Bool
  | .c16 _ _ => false
  | .w32 _ f => f.st == 1#1
  | .w64 _ f => f.st == 1#1
  | .w64i _ f => f.st == 1#1

/-- The E bit: the end of a run (R47). -/
def Words.eBit : Words → Bool
  | .c16 _ f => f.e == 1#1
  | .w32 _ f => f.e == 1#1
  | .w64 _ f => f.e == 1#1
  | .w64i _ f => f.e == 1#1

/-- The first 32 bits, zero-extended for a C16 instruction (R70). -/
def Words.first32 : Words → Word
  | .c16 op f => (c16Bits op f).setWidth 32
  | .w32 op f => w32Bits op f
  | .w64 op f => (w64Bits op f).setWidth 32
  | .w64i op f => (w64iBits op f).setWidth 32

/-- The instruction the decoder reads from bits numbered as spec/opcode_table.json numbers them. -/
noncomputable def decodeTableWord (nbits w : Nat) : Option Instr :=
  match decode (bytesOf (max 8 ((nbits + 7) / 8)) (w % 2 ^ nbits)) with
  | .ok (i, _) => some i
  | .error _ => none

end Sys2Proof
end

