-- ==== Sys2Proof/Config.lean ====
section
/-! DEFINITION. What an implementation fixes and the manual does not state, as constants with no body: a claim that holds,
holds whatever they are. -/

namespace Sys2Proof.Config

/-- The free values the machine draws, one per draw of the counter State.fresh (log 3, DESIGN CHOICE). -/
opaque freeValue : Nat → Nat

/-- What the home of another package's page answers a write that hits a freeze filter, and a freeze step (1 its count forbids it, 2 the
directory is full, 3 the page is one of a stepped region), at a draw of the counter (R320, R321, R368; log 3, DESIGN CHOICE). -/
opaque remoteFrozen : Nat → Nat → Bool
opaque remoteFreeze : Nat → Nat → Nat

/-- Whether a page of another package lies in an enabled stepped region there, and the committed step C of that region, as the dies of this
package know them at a draw of the counter (R367, R368; logs 3 and 34, DESIGN CHOICE). -/
opaque remoteStepped : Nat → Nat → Bool
opaque remoteStep : Nat → Nat → Nat

/-- A byte of the save area of a context once it has been switched out, at a draw of the counter (R348; log 21, DESIGN CHOICE). -/
opaque saveByte : Nat → Nat → BitVec 8

/-- The fixed hash that selects the L2 slice of a line (R266). -/
opaque sliceHash : Nat → Nat

/-- The fixed hash of a line address and a source die that chooses a port (R390). -/
opaque portHash : Nat → Nat → Nat

/-- What is fused in the package (R383, R384): the digest of the firmware's public key, and the security version (log 8, DESIGN CHOICE). -/
opaque fusedDigest : BitVec 512
opaque fusedSvn : BitVec 16
/-- Whether an SLH-DSA signature verifies: key, message, signature (R384; log 8, DESIGN CHOICE). -/
opaque verifies : List (BitVec 8) → List (BitVec 8) → List (BitVec 8) → Bool

/-- The report's part number and device identity public key, and the SLH-DSA signature of a report, 29,792 bytes (R384). -/
opaque identity : Nat → BitVec 8
opaque sign : List (BitVec 8) → BitVec 238336

/-- The base cost of an operation in grains, which the manual fixes (R310). -/
def tongsBase : Nat := 2048

end Sys2Proof.Config
end

