-- ==== Sys2Proof/Machine/Fp.lean ====
section
/-! DEFINITION. The number formats (R14 to R23), exact values, and the one rounding every unit uses (R30 to R34). -/

namespace Sys2Proof.Machine

/-- Sticky flags in the order of FPSTAT (R42). -/
abbrev Flags := BitVec 7

/-- Inexact result (R42). -/
def flagIX : Flags := 0x01
/-- Underflow (R42). -/
def flagUF : Flags := 0x02
/-- Overflow (R42). -/
def flagOF : Flags := 0x04
/-- Division by zero (R42). -/
def flagDZ : Flags := 0x08
/-- Invalid operation (R42). -/
def flagNV : Flags := 0x10
/-- An INT32 accumulator or an INT4 quench was clamped (R42). -/
def flagACCSAT : Flags := 0x20
/-- An integer result was clamped (R42). -/
def flagISAT : Flags := 0x40

/-- A flag when a condition holds. -/
def flagIf (c : Bool) (f : Flags) : Flags := if c then f else 0

/-- The number formats of R14, with FP64, which has no code. -/
inductive Fmt where
  | fp32 | bf16 | fp16 | e4m3 | e5m2 | tm8 | e3m2 | e2m3 | e2m1 | int8 | int4 | e8m0 | fp64
deriving DecidableEq, Repr

/-- The format of a code (R14); codes 0xC to 0xF are reserved. -/
def Fmt.ofCode : Nat → Option Fmt
  | 0 => some .fp32 | 1 => some .bf16 | 2 => some .fp16 | 3 => some .e4m3 | 4 => some .e5m2 | 5 => some .tm8
  | 6 => some .e3m2 | 7 => some .e2m3 | 8 => some .e2m1 | 9 => some .int8 | 10 => some .int4 | 11 => some .e8m0
  | _ => none

/-- The width of an element in bits (R14). -/
def Fmt.width : Fmt → Nat
  | .fp64 => 64 | .fp32 => 32 | .bf16 => 16 | .fp16 => 16 | .e4m3 => 8 | .e5m2 => 8 | .tm8 => 8 | .e3m2 => 6
  | .e2m3 => 6 | .e2m1 => 4 | .int8 => 8 | .int4 => 4 | .e8m0 => 8

/-- Exponent width, fraction width and bias of the binary floating-point formats (R15). -/
def Fmt.params : Fmt → Nat × Nat × Int
  | .fp64 => (11, 52, 1023) | .fp32 => (8, 23, 127) | .fp16 => (5, 10, 15) | .bf16 => (8, 7, 127)
  | .e4m3 => (4, 3, 7) | .e5m2 => (5, 2, 15) | .e3m2 => (3, 2, 3) | .e2m3 => (2, 3, 1) | .e2m1 => (2, 1, 1)
  | .tm8 => (0, 0, 0) | .int8 => (0, 0, 0) | .int4 => (0, 0, 0) | .e8m0 => (0, 0, 0)

/-- A format with infinities and NaNs as in IEEE 754 (R15). -/
def Fmt.ieee : Fmt → Bool
  | .fp64 => true | .fp32 => true | .fp16 => true | .bf16 => true | .e5m2 => true
  | .e4m3 => false | .e3m2 => false | .e2m3 => false | .e2m1 => false | .tm8 => false | .int8 => false
  | .int4 => false | .e8m0 => false

/-- A two's complement integer format (R22). -/
def Fmt.isInt : Fmt → Bool
  | .int8 => true | .int4 => true
  | .fp64 => false | .fp32 => false | .fp16 => false | .bf16 => false | .e5m2 => false | .e4m3 => false
  | .e3m2 => false | .e2m3 => false | .e2m1 => false | .tm8 => false | .e8m0 => false

/-- A value: a NaN (signalling or quiet, R18), an infinity, or exactly (-1)^neg × m × 2^e. -/
inductive Num where
  | nan (sig : Bool)
  | inf (neg : Bool)
  | fin (neg : Bool) (m : Nat) (e : Int)
deriving DecidableEq, Repr

/-- The canonical NaN code of a format, where it has one (R17). -/
def Fmt.nanBits : Fmt → Nat
  | .fp64 => 0x7FF8000000000000 | .fp32 => 0x7FC00000 | .fp16 => 0x7E00 | .bf16 => 0x7FC0 | .e5m2 => 0x7E
  | .e4m3 => 0x7F | .tm8 => 0x80 | .e8m0 => 0xFF
  | .e3m2 => 0 | .e2m3 => 0 | .e2m1 => 0 | .int8 => 0 | .int4 => 0

/-- The magnitude code of the largest finite value (R15). -/
def Fmt.maxBits (f : Fmt) : Nat :=
  let (ew, fw, _) := f.params
  if f.ieee then (2 ^ ew - 1) * 2 ^ fw - 1
  else match f with
    | .e4m3 => 0x7E
    | _ => 2 ^ (ew + fw) - 1

/-- The region of a TM8 code's highest set bit: exponent field base and fraction width (R19). -/
def tm8Region : Nat → Nat × Int
  | 6 => (4, -2) | 5 => (3, 2) | 4 => (2, -6) | 3 => (1, 6) | 2 => (0, -10) | 1 => (0, 10) | _ => (0, -11)

/-- TM8_DECODE (R19). -/
def tm8Decode (x : Nat) : Num :=
  if x % 256 = 0 then .fin false 0 0
  else if x % 256 = 0x80 then .nan false
  else
    let b := x % 128
    let k := Nat.log2 b
    let p := b - 2 ^ k
    let (fw, base) := tm8Region k
    .fin (x.testBit 7) (2 ^ fw + p % 2 ^ fw) (base + ((p >>> fw : Nat) : Int) - (fw : Int))

/-- The value of an element code (R15, R18, R19, R22, R23). -/
def Fmt.decode (f : Fmt) (x : Nat) : Num :=
  match f with
  | .tm8 => tm8Decode x
  | .int8 => let v := signedOf 8 x; .fin (decide (v < 0)) v.natAbs 0
  | .int4 => let v := signedOf 4 x; .fin (decide (v < 0)) v.natAbs 0
  | .e8m0 => if x % 256 = 255 then .nan false else .fin false 1 ((x % 256 : Nat) - 127)
  | _ =>
    let (ew, fw, bias) := f.params
    let neg := x.testBit (ew + fw)
    let ex := (x >>> fw) % 2 ^ ew
    let fr := x % 2 ^ fw
    if f.ieee && ex == 2 ^ ew - 1 then
      if fr = 0 then .inf neg else .nan (!fr.testBit (fw - 1) && f != .e5m2)
    else if f == .e4m3 && x % 128 == 0x7F then .nan false
    else if ex = 0 then .fin neg fr (1 - bias - (fw : Int))
    else .fin neg (2 ^ fw + fr) ((ex : Int) - bias - (fw : Int))

/-- The exponent of a positive magnitude m × 2^e. -/
def magLog (m : Nat) (e : Int) : Int := (Nat.log2 m : Int) + e

/-- Rounds the magnitude m × 2^e of the given sign to a multiple of 2^q under RM (R30): the multiple and whether it
differs. -/
def roundAt (rm : Nat) (neg : Bool) (m : Nat) (e q : Int) : Nat × Bool :=
  if q ≤ e then (m <<< (e - q).toNat, false)
  else
    let s := (q - e).toNat
    let n := m >>> s
    let r := m - n <<< s
    let up := match rm with
      | 0 => decide (2 * r > 2 ^ s) || (decide (2 * r = 2 ^ s) && n % 2 == 1)
      | 1 => false
      | 2 => neg && r != 0
      | _ => !neg && r != 0
    (if up then n + 1 else n, r != 0)

/-- Whether the overflow of a value of the given sign delivers an infinity under RM (R32). -/
def awayFromZero (rm : Nat) (neg : Bool) : Bool :=
  match rm with
  | 0 => true | 1 => false | 2 => neg | _ => !neg

/-- A code with its sign bit placed. -/
def Fmt.signed (f : Fmt) (neg : Bool) (mag : Nat) : Nat := if neg then mag + 2 ^ (f.width - 1) else mag

/-- The result of a finite overflow of a binary floating-point format (R32). -/
def Fmt.overflow (f : Fmt) (sat : Bool) (rm : Nat) (neg : Bool) : Nat × Flags :=
  let mag := if sat || !awayFromZero rm neg then f.signed neg f.maxBits
    else if f.ieee then f.signed neg (f.maxBits + 1)
    else match f with
      | .e4m3 => 0x7F
      | _ => f.signed neg f.maxBits
  (mag, flagOF ||| flagIX)

/-- The TM8 magnitudes in units of 2^-11, in increasing order, each with its code; zero first (R19, R20). -/
def tm8Mags : List (Nat × Nat) :=
  let codes := [0x01] ++ (List.range 4).map (· + 4) ++ (List.range 16).map (· + 16) ++ (List.range 64).map (· + 64)
    ++ (List.range 32).map (· + 32) ++ (List.range 8).map (· + 8) ++ [2, 3]
  (0, 0) :: codes.map fun c => match tm8Decode c with
    | .fin _ m e => (m <<< (e + 11).toNat, c)
    | _ => (0, c)

/-- The neighbours of a magnitude m × 2^e among the TM8 magnitudes: the greatest not above it, and the next (R21). -/
def tm8Around (m : Nat) (e : Int) : (Nat × Nat) × Option (Nat × Nat) :=
  let x := m <<< (e + 11).toNat
  let k := (-(e + 11)).toNat
  let le := tm8Mags.filter fun p => decide (p.1 <<< k ≤ x)
  let gt := tm8Mags.filter fun p => decide (x < p.1 <<< k)
  (le.getLastD (0, 0), gt.head?)

/-- Narrowing to TM8 under RM (R21, R30, R31, R32). -/
def tm8Round (rm : Nat) (neg : Bool) (m : Nat) (e : Int) : Nat × Flags :=
  if m = 0 then (0, 0) else
  let x := m <<< (e + 11).toNat
  let k := (-(e + 11)).toNat
  let ((lo, cl), hi) := tm8Around m e
  if lo <<< k = x then ((if neg then cl + 128 else cl), 0)
  else match hi with
    | none => ((if neg then 0x83 else 0x03), flagOF ||| flagIX)
    | some (hv, ch) =>
      let up := match rm with
        | 0 => decide (2 * x > (lo + hv) <<< k) || (decide (2 * x = (lo + hv) <<< k) && ch % 2 == 0)
        | 1 => false
        | 2 => neg
        | _ => !neg
      let c := if up then ch else cl
      (if c = 0 then 0 else if neg then c + 128 else c, flagIX ||| flagIf (decide (x < 1 <<< k)) flagUF)

/-- The bits of a signed integer clamped to a width, and whether it was clamped. -/
def clampInt (w : Nat) (signed : Bool) (t : Int) : Nat × Bool :=
  let hi : Int := if signed then 2 ^ (w - 1) - 1 else 2 ^ w - 1
  let lo : Int := if signed then -(2 ^ (w - 1)) else 0
  if t > hi then (wrapTo w hi, true) else if t < lo then (wrapTo w lo, true) else (wrapTo w t, false)

/-- Rounds a value to an integer of a width: NV on a clamp or NaN, IX when rounding changed an in-range value (R32,
R124). -/
def roundToInt (w : Nat) (signed : Bool) (rm : Nat) (x : Num) : Nat × Flags :=
  match x with
  | .nan _ => (0, flagNV)
  | .inf neg => ((clampInt w signed (if neg then -(2 ^ 70) else 2 ^ 70)).1, flagNV)
  | .fin neg m e =>
    let (n, ix) := roundAt rm neg m e 0
    let (r, cl) := clampInt w signed (if neg then -(n : Int) else n)
    (r, if cl then flagNV else flagIf ix flagIX)

/-- Rounds an exact value into a format under RM, with the slot's SAT (R30, R31, R32). -/
def roundTo (f : Fmt) (sat : Bool) (rm : Nat) (x : Num) : Nat × Flags :=
  match x with
  | .nan sig =>
    (f.nanBits, flagIf (sig || (!f.ieee && f != .e4m3 && f != .tm8)) flagNV)
  | .inf neg =>
    match f with
    | .tm8 => ((if neg then 0x83 else 0x03), flagOF)
    | .int8 => ((clampInt 8 true (if neg then -1000 else 1000)).1, flagNV)
    | .int4 => ((clampInt 4 true (if neg then -1000 else 1000)).1, flagNV)
    | .e4m3 => if sat then (f.signed neg f.maxBits, flagOF) else (0x7F, flagNV)
    | _ => if f.ieee && !sat then (f.signed neg (f.maxBits + 1), 0) else (f.signed neg f.maxBits, flagOF)
  | .fin neg m e =>
    match f with
    | .tm8 => tm8Round rm neg m e
    | .int8 => roundToInt 8 true rm x
    | .int4 => roundToInt 4 true rm x
    | _ =>
      if m = 0 then (f.signed neg 0, 0) else
      let (_, fw, bias) := f.params
      let qmin := 1 - bias - (fw : Int)
      let q0 := magLog m e - (fw : Int)
      let q := max q0 qmin
      let (n, ix) := roundAt rm neg m e q
      let bits := ((q - qmin).toNat <<< fw) + n
      if bits > f.maxBits then f.overflow sat rm neg
      else
        let (n', _) := roundAt rm neg m e q0
        let tiny := decide (magLog n' q0 < 1 - bias)
        (f.signed neg bits, flagIf ix flagIX ||| flagIf (ix && tiny) flagUF)

/-- STOCH_NARROW (R33): `r` is the 16-bit random value. -/
def stochNarrow (f : Fmt) (sat : Bool) (x : Num) (r : Nat) : Nat × Flags :=
  match x with
  | .nan _ => roundTo f sat 0 x
  | .inf _ => roundTo f sat 0 x
  | .fin neg m e =>
    if m = 0 then roundTo f sat 0 x else
    match f with
    | .tm8 =>
      let k := (-(e + 11)).toNat
      let xs := m <<< (e + 11).toNat
      let ((lo, _), hi) := tm8Around m e
      if xs > 2 ^ 22 <<< k then roundTo f sat 0 x
      else if lo <<< k = xs then roundTo f sat 1 x
      else match hi with
        | none => roundTo f sat 0 x
        | some (hv, _) =>
          let y := xs * 65536 + r * ((hv <<< k) - xs)
          let ((_, cl), _) := tm8Around y (e - 16 - ((e + 11).toNat : Int))
          let c := if cl = 0 then 0 else if neg then cl + 128 else cl
          (c, flagIX ||| flagIf (decide (xs < 1 <<< k)) flagUF)
    | .int8 | .int4 =>
      let q : Int := min e 0
      let y := (m <<< (e - q).toNat) * 65536 + (r <<< (-q).toNat)
      let t := (roundAt 1 neg y (q - 16) 0).1
      let (v, cl) := clampInt f.width true (if neg then -(t : Int) else t)
      let exact := decide (t <<< (-q).toNat = m <<< (e - q).toNat)
      (v, flagIf cl flagNV ||| flagIf (cl || !exact) flagIX)
    | _ =>
      let (_, fw, bias) := f.params
      let qmin := 1 - bias - (fw : Int)
      let qx := max (magLog m e - (fw : Int)) qmin
      let b := min e qx
      let y := (m <<< (e - b).toNat) * 65536 + (r <<< (qx - b).toNat)
      let ey := b - 16
      let qy := max (magLog y ey - (fw : Int)) qmin
      let n := (roundAt 1 neg y ey qy).1
      let bits := ((qy - qmin).toNat <<< fw) + n
      if bits > f.maxBits then f.overflow sat 0 neg
      else
        let same := !(roundAt 1 neg m e qy).2 && (roundAt 1 neg m e qy).1 == n
        (f.signed neg bits, flagIf (!same) flagIX ||| flagIf (!same && decide (bits < 2 ^ fw)) flagUF)

/-- Whether any operand is a signalling NaN (R18). -/
def Num.signals : Num → Bool
  | .nan s => s | .inf _ => false | .fin _ _ _ => false

/-- Whether a value is a NaN. -/
def Num.isNaN : Num → Bool
  | .nan _ => true | .inf _ => false | .fin _ _ _ => false

/-- The sign of a number. -/
def Num.neg : Num → Bool
  | .nan _ => false | .inf n => n | .fin n _ _ => n

/-- The value with its sign turned. -/
def Num.negate : Num → Num
  | .nan s => .nan s | .inf n => .inf (!n) | .fin n m e => .fin (!n) m e

/-- The exact integer as a value. -/
def Num.ofInt (t : Int) : Num := .fin (decide (t < 0)) t.natAbs 0

/-- Two finite magnitudes brought to one exponent. -/
def alignMag (m : Nat) (e : Int) (n : Nat) (d : Int) : Nat × Nat × Int :=
  let q := min e d
  (m <<< (e - q).toNat, n <<< (d - q).toNat, q)

/-- The exact signed sum of two finite values; `rdn` chooses the sign of an exact zero from opposite signs (R118). -/
def addFin (rdn : Bool) (n₁ : Bool) (m₁ : Nat) (e₁ : Int) (n₂ : Bool) (m₂ : Nat) (e₂ : Int) : Num :=
  let (a, b, q) := alignMag m₁ e₁ m₂ e₂
  let t : Int := (if n₁ then -(a : Int) else a) + (if n₂ then -(b : Int) else b)
  if t = 0 then .fin (if n₁ == n₂ then n₁ else rdn) 0 q else .fin (decide (t < 0)) t.natAbs q

/-- The exact sum, with the special operands of R118: the value and NV. -/
def addNum (rm : Nat) (a b : Num) : Num × Flags :=
  let nv := flagIf (a.signals || b.signals) flagNV
  match a, b with
  | .nan _, _ => (.nan false, nv)
  | _, .nan _ => (.nan false, nv)
  | .inf n, .inf k => if n == k then (.inf n, 0) else (.nan false, flagNV)
  | .inf n, .fin _ _ _ => (.inf n, 0)
  | .fin _ _ _, .inf n => (.inf n, 0)
  | .fin n m e, .fin k l d => (addFin (rm == 2) n m e k l d, 0)

/-- The exact product, with the special operands of R118: the value and NV. -/
def mulNum (a b : Num) : Num × Flags :=
  let nv := flagIf (a.signals || b.signals) flagNV
  match a, b with
  | .nan _, _ => (.nan false, nv)
  | _, .nan _ => (.nan false, nv)
  | .inf n, .inf k => (.inf (n != k), 0)
  | .inf n, .fin k l _ => if l = 0 then (.nan false, flagNV) else (.inf (n != k), 0)
  | .fin n m _, .inf k => if m = 0 then (.nan false, flagNV) else (.inf (n != k), 0)
  | .fin n m e, .fin k l d => (.fin (n != k) (m * l) (e + d), 0)

/-- a × b + c exactly (R35, R118): NV for 0 × ∞ even when c is a quiet NaN. -/
def fmaNum (rm : Nat) (a b c : Num) : Num × Flags :=
  let (p, f) := mulNum a b
  let (s, g) := addNum rm p c
  (s, f ||| g)

/-- Rounds what an exact operation answered and joins the flags. -/
def finish (f : Fmt) (rm : Nat) (x : Num × Flags) : Nat × Flags :=
  let (r, g) := roundTo f false rm x.1
  (r, x.2 ||| g)

/-- A magnitude between k and k + 1 units stands for its last place and a set bit below it, so that every rounding to a
coarser place sees an inexact value. -/
def withSticky (neg : Bool) (k : Nat) (e : Int) (exact : Bool) : Num :=
  if exact then .fin neg k e else .fin neg (2 * k + 1) (e - 1)

/-- The quotient a / b, exact or with a sticky last bit (R117, R118). -/
def divNum (a b : Num) : Num × Flags :=
  let nv := flagIf (a.signals || b.signals) flagNV
  match a, b with
  | .nan _, _ => (.nan false, nv)
  | _, .nan _ => (.nan false, nv)
  | .inf _, .inf _ => (.nan false, flagNV)
  | .inf n, .fin k _ _ => (.inf (n != k), 0)
  | .fin n _ _, .inf k => (.fin (n != k) 0 0, 0)
  | .fin n m e, .fin k l d =>
    if l = 0 then if m = 0 then (.nan false, flagNV) else (.inf (n != k), flagDZ)
    else if m = 0 then (.fin (n != k) 0 0, 0)
    else
      let s := 128 + Nat.log2 l
      let q := (m <<< s) / l
      (withSticky (n != k) q (e - d - (s : Int)) (decide ((m <<< s) % l = 0)), 0)

/-- The integer square root by bits; `k` bounds the bits of the root. -/
def isqrtGo : Nat → Nat → Nat → Nat
  | 0, _, r => r
  | k + 1, n, r => let t := r + 2 ^ k; if t * t ≤ n then isqrtGo k n t else isqrtGo k n r

/-- The integer square root. -/
def isqrt (n : Nat) : Nat := isqrtGo (Nat.log2 n / 2 + 1) n 0

/-- The square root of the positive magnitude m × 2^e, exact or with a sticky last bit. -/
def sqrtMag (m : Nat) (e : Int) (exact : Bool) : Num :=
  let s : Nat := 256 + (if (e % 2) = 0 then 0 else 1)
  let x := m <<< s
  let r := isqrt x
  withSticky false r ((e - (s : Int)) / 2) (exact && decide (r * r = x))

/-- The square root (R117, R118). -/
def sqrtNum (a : Num) : Num × Flags :=
  match a with
  | .nan s => (.nan false, flagIf s flagNV)
  | .inf n => if n then (.nan false, flagNV) else (.inf false, 0)
  | .fin n m e => if m = 0 then (a, 0) else if n then (.nan false, flagNV) else (sqrtMag m e true, 0)

/-- The reciprocal square root (R117, R118). -/
def rsqrtNum (a : Num) : Num × Flags :=
  match a with
  | .nan s => (.nan false, flagIf s flagNV)
  | .inf n => if n then (.nan false, flagNV) else (.fin false 0 0, 0)
  | .fin n m e =>
    if m = 0 then (.inf n, flagDZ) else if n then (.nan false, flagNV)
    else
      let s := 256 + Nat.log2 m
      let q := (1 <<< s) / m
      (sqrtMag q (-e - (s : Int)) (decide ((1 <<< s) % m = 0)), 0)

/-- The order of two numbers: less, equal or greater; none when either is a NaN. -/
def cmpNum (a b : Num) : Option Ordering :=
  match a, b with
  | .nan _, _ => none
  | _, .nan _ => none
  | .inf n, .inf k => some (if n == k then .eq else if n then .lt else .gt)
  | .inf n, .fin _ _ _ => some (if n then .lt else .gt)
  | .fin _ _ _, .inf n => some (if n then .gt else .lt)
  | .fin n m e, .fin k l d =>
    let (x, y, _) := alignMag m e l d
    some (compare (if n then -(x : Int) else (x : Int)) (if k then -(y : Int) else (y : Int)))

/-- Whether the first of two numbers stands at or below the second, with −0 below +0 (R119). -/
def leNum (a b : Num) : Bool :=
  match cmpNum a b with
  | some .lt => true
  | some .eq => a.neg || !b.neg
  | _ => false

/-- Minimum and maximum, or minimumNumber and maximumNumber (R119). -/
def minMaxNum (isMax number : Bool) (a b : Num) : Num × Flags :=
  let nv := flagIf (a.signals || b.signals) flagNV
  match a.isNaN, b.isNaN with
  | true, true => (.nan false, nv)
  | true, false => (if number then b else .nan false, nv)
  | false, true => (if number then a else .nan false, nv)
  | false, false => (if leNum a b == isMax then b else a, nv)

/-- FCMP's condition and flags (R120). -/
def fcmpNum (cc : Nat) (a b : Num) : Bool × Flags :=
  let sig := a.signals || b.signals
  let o := cmpNum a b
  let r := match cc with
    | 0 => o == some .eq
    | 1 => o != some .eq
    | 2 => o == some .lt
    | 3 => o == some .lt || o == some .eq
    | 4 => o == some .gt
    | 5 => o == some .gt || o == some .eq
    | 6 => o == none
    | _ => o != none
  (r, flagIf (sig || (o == none && decide (2 ≤ cc) && decide (cc ≤ 5))) flagNV)

/-- FRINT (R122): an integral value; IX only in the exact form. -/
def frintNum (rm : Nat) (exactForm : Bool) (a : Num) : Num × Flags :=
  match a with
  | .nan s => (.nan false, flagIf s flagNV)
  | .inf _ => (a, 0)
  | .fin n m e => let (k, ix) := roundAt rm n m e 0; if e ≥ 0 then (a, 0) else (.fin n k 0, flagIf (ix && exactForm) flagIX)

/-- FLDEXP (R117, R118). -/
def ldexpNum (a : Num) (b : Int) : Num × Flags :=
  match a with
  | .nan s => (.nan false, flagIf s flagNV)
  | .inf _ => (a, 0)
  | .fin n m e => (.fin n m (e + max (-5000) (min 5000 b)), 0)

/-- The value of an element under an E8M0 scale (R26). -/
def scaled (x : Num) (scale : Nat) : Num :=
  if scale % 256 = 255 then .nan false
  else match x with
    | .nan s => .nan s
    | .inf n => .inf n
    | .fin n m e => .fin n m (e + ((scale % 256 : Nat) : Int) - 127)

end Sys2Proof.Machine
end

