-- ==== Sys2Proof/Machine/State.lean ====
section
/-! DEFINITION. The state of one NBF-7200 package, whole and as plain data, why a step can stop, and the state after
reset. -/

namespace Sys2Proof.Machine

/-- Why the machine stops with a fault. -/
inductive Fault where
  /-- Raised by every operation when no split of the partition in focus is issuing a run. Safe: the manual gives an
  operation a meaning only as an instruction that a split issues (R90, R104). -/
  | noSplit
deriving DecidableEq, Repr

/-- Why a step has no meaning. -/
inductive Refusal where
  /-- Raised by an arm of exec whose instruction has no meaning yet. Safe: nothing follows it. -/
  | notModelled (mnemonic : String)
  /-- Raised by an event whose condition in the manual does not hold in this state: it cannot come about here. Safe: an
  event that cannot happen has no successor. -/
  | notEnabled (event : String)
  /-- Raised by step when the agenda names an operation: an operation comes about only when a split issues it. Safe. -/
  | badAgenda
deriving DecidableEq, Repr

/-- The trap causes of R195. -/
inductive Cause where
  | illegalOpcode | illegalOperand | priv | misalign | pageNotPresent | pageProtection | frozenWrite | dataError | extent
  | emptyOrphan | promiseLate | regpoolDeadlock | callTarget | countDepth | freezeNest | stepAhead | quota | bkpt
  | software | formatSlot | engineError
deriving DecidableEq, Repr, Inhabited

/-- The code of a cause (R195). -/
def Cause.code : Cause → Nat
  | .illegalOpcode => 0x01 | .illegalOperand => 0x02 | .priv => 0x03 | .misalign => 0x04 | .pageNotPresent => 0x05
  | .pageProtection => 0x06 | .frozenWrite => 0x07 | .dataError => 0x08 | .extent => 0x09 | .emptyOrphan => 0x0A
  | .promiseLate => 0x0B | .regpoolDeadlock => 0x0C | .callTarget => 0x0D | .countDepth => 0x0E | .freezeNest => 0x0F
  | .stepAhead => 0x10 | .quota => 0x11 | .bkpt => 0x12 | .software => 0x13 | .formatSlot => 0x14 | .engineError => 0x15

/-- The cause a code names (R195, R301). -/
def Cause.ofCode : Nat → Option Cause
  | 0x01 => some .illegalOpcode | 0x02 => some .illegalOperand | 0x03 => some .priv | 0x04 => some .misalign
  | 0x05 => some .pageNotPresent | 0x06 => some .pageProtection | 0x07 => some .frozenWrite | 0x08 => some .dataError
  | 0x09 => some .extent | 0x0A => some .emptyOrphan | 0x0B => some .promiseLate | 0x0C => some .regpoolDeadlock
  | 0x0D => some .callTarget | 0x0E => some .countDepth | 0x0F => some .freezeNest | 0x10 => some .stepAhead
  | 0x11 => some .quota | 0x12 => some .bkpt | 0x13 => some .software | 0x14 => some .formatSlot
  | 0x15 => some .engineError | _ => none

/-- Memory as a list of cells: addresses strictly rising, no entry holding what an unlisted address reads as (0). -/
abbrev Mem := List Host.Cell

/-- What a trap reports (R192 to R195). `no` orders pending traps as they were raised, those of one cycle by position and slot (R223); `bank` says that one waits for the handler
bank and not for firmware (R193, R302). -/
structure Trap where
  cause : Cause
  pc : CodeAddr
  addr : Dword
  lanes : Mask
  info : Word
  rpl : Bool
  no : Nat := 0
  bank : Bool := false
deriving DecidableEq, Repr, Inhabited

/-- The state of a lane (R80, LST). -/
inductive LaneState where
  | bound | parked | held | barrier | exited | never
deriving DecidableEq, Repr, Inhabited

/-- The barrier a lane waits at (R216, R403): level, number, descriptor, and the access that performs its release. -/
structure BarWait where
  lvl : Nat
  id : Nat
  desc : Nat
  pc : CodeAddr
  mark : Nat
deriving DecidableEq, Repr, Inhabited

/-- One lane (R80), with how often and how long it has been passed over while parked (R88). -/
structure Lane where
  lpc : CodeAddr := 0
  lst : LaneState := .never
  rstk : List CodeAddr := List.replicate 8 0
  rdep : Nat := 0
  jid : Option Nat := none
  passed : Nat := 0
  parkedAt : Nat := 0
  bar : Option BarWait := none
  refused : Option Nat := none
deriving DecidableEq, Repr, Inhabited

/-- What a split slot is doing besides running its program (R193, R302). -/
inductive SlotMode where
  | running | pending | suspended | handler
deriving DecidableEq, Repr, Inhabited

/-- Where a REGCLM claim of the slot stands (R187). -/
inductive ClaimState where
  | none | queued | served
deriving DecidableEq, Repr, Inhabited

/-- One split slot (R81). `readyAt` is the cycle since which its next run is ready (R164); `stallAt` the cycle since
which it is stalled (R86) and `stallNo` what orders that among the stalls of a block (R145); `active` the active lanes at the
fault (R196); `replay` the lanes of a replay; `mark` the release an instruction waits for; `sb` the results not yet readable, by
register key and cycle (R155); `retest` a merge after which the first instruction is tested afresh (R85); `fesent` the name of its LDFE
or STFE on the way to another core's bank, where `fearr` says that it has come, and `fedone` that its step is done and it has still to
issue (R202); `taken` a REDO of which some contribution has been accepted (R287), `lost` its lanes whose contribution no home took, with the
cause (R390, R405); `trapNo` the place of a suspended split's trap among those raised (R193). -/
structure Slot where
  valid : Bool := false
  spc : CodeAddr := 0
  amask : Mask := 0
  nrun : Nat := 0
  nstall : Nat := 0
  mode : SlotMode := .running
  readyAt : Option Nat := none
  stallAt : Option Nat := none
  active : Mask := 0
  replay : Option Mask := none
  claim : ClaimState := .none
  mark : Option (CodeAddr × Nat) := none
  redo : List Nat := []
  refused : List (Nat × Nat) := []
  redoAt : Option Trap := none
  asleep : Bool := false
  youngest : Bool := false
  sb : List (Nat × Nat) := []
  retest : Bool := false
  stallNo : Nat := 0
  fesent : Option Nat := none
  fearr : Bool := false
  fedone : Bool := false
  taken : Bool := false
  lost : List (Nat × Nat × Cause) := []
  trapNo : Nat := 0
deriving DecidableEq, Repr, Inhabited

/-- One join record (R81, R87); `since` is the cycle of the first arrival. -/
structure Join where
  id : Nat
  jpc : CodeAddr
  jset : Mask
  since : Option Nat
  made : Nat
deriving DecidableEq, Repr, Inhabited

/-- One mapped name (R178). -/
structure NameEnt where
  phys : Nat
  live : Mask
  val : Vec
deriving DecidableEq, Repr, Inhabited

/-- One register-targeted load not yet committed (R159, R160): its destination register code and register count, the
lanes it still owes, the words returned per lane, the lanes whose data is bad, and for results that target uniform
registers the writes they commit; `early` says that its LDFE is done and has still to issue (R202); `gone` are its lanes that have exited,
whose words are discarded as they return (R98). -/
structure PLoad where
  seq : Nat
  handler : Bool
  uni : Bool
  dst : Nat
  n : Nat
  lanes : Mask
  got : Mask
  vals : List (Nat × List Word)
  bad : Mask
  addrs : List (Nat × Dword)
  wd : Nat := 4
  early : Bool := false
  gone : Mask := 0
deriving DecidableEq, Repr, Inhabited

/-- The classes of outstanding operations (R62, R173): 0 BC, 1 TL, 2 MX, 3 CL, 4 PS, 5 FZ. -/
abbrev Cls := Nat

/-- How an engine operation failed (R311). -/
structure Fail where
  reason : Nat
  side : Nat
  addr : Dword
deriving DecidableEq, Repr, Inhabited

/-- One outstanding or failed and unreported engine operation of a group (R173, R174, R176). `n` counts the operations of
its class in issue order; `work` says its work has ended though it may not be complete; `pages` are the pages a FRZ or
THAW still waits for (R321, R322); `flags` are raised at completion (R43); `mate` completes with it (R241);
`thaw` tells a THAW from a FRZ, `snap` a SNAPREQ from other PS operations, and `engine` is the Tongs engine of a BC operation (R299);
`due` says that the Anvil has reported it, which its core takes at its next cycle boundary (R172). -/
structure EngOp where
  cls : Cls
  n : Nat
  done : Bool := false
  work : Bool := false
  fail : Option Fail := none
  promise : Option Nat := none
  late : Bool := false
  deps : List Nat := []
  pages : List Nat := []
  flags : Flags := 0
  mate : List Nat := []
  thaw : Bool := false
  snap : Bool := false
  engine : Nat := 0
  due : Bool := false
deriving DecidableEq, Repr, Inhabited

/-- One tile (R207): element storage and scales as numbers, byte b at bits [8b+7:8b]; `bad` are the words that fail their check, those of
the scales from 2048 on (R314). -/
structure Tile where
  shaped : Bool := false
  rows : Nat := 0
  cols : Nat := 0
  slot : Nat := 0
  data : BitVec 65536 := 0
  scl : BitVec 2048 := BitVec.ofNat 2048 ((2 ^ 2048 - 1) / 255 * 127)
  failed : Bool := false
  bad : List Nat := []
deriving DecidableEq, Repr, Inhabited

/-- One TL operation in issue order (R211, R212, R213): the shape and registers it captured, MMOV with what its source had as SLOT and
SHAPED (R210); `deps` are the accesses
performed and the requests whose tiles are read before it, `mx` the requests completed before it (R240); `after` are the
scale-table recordings of later stores, entry and value, which follow its own (R264). -/
structure TlOp where
  kind : Nat
  n : Nat
  tile : Nat
  src : Nat
  base : Nat
  pitch : Nat
  plane : Nat
  rows : Nat
  cols : Nat
  fmt : Word
  deps : List Nat
  mx : List Nat
  amx : Option Nat
  after : List (Nat × Nat) := []
  slot : Nat := 0
  shaped : Bool := false
deriving DecidableEq, Repr, Inhabited

/-- The system registers of a group (R194). -/
structure Sys where
  tvec : Dword := 0
  tpc : Dword := 0
  tcause : Dword := 0
  taddr : Dword := 0
  tlanes : Mask := 0
  tinfo : Dword := 0
  tstat : Dword := 0
deriving DecidableEq, Repr, Inhabited

/-- One accumulator slot: word 64r + c at bits [32k+31:32k] (R226). -/
abbrev Acc := BitVec 131072

/-- One group resident at (core, part, pos). `hparked` are the lanes without a slot whose split runs a handler; `psb` the results
not yet readable of splits that have lost their slot (R155). -/
structure Group where
  ctx : Nat := 0
  grid : Nat := 0
  blk : Nat := 0
  index : Nat := 0
  core : Nat := 0
  part : Nat := 0
  pos : Nat := 0
  prio : Nat := 0
  lanes : List Lane := List.replicate 32 {}
  slots : List Slot := List.replicate 4 {}
  joins : List Join := []
  names : Tbl NameEnt := []
  cap : Nat := 0
  budG : Nat := 0
  budM : Nat := 0
  budC : Nat := 0
  g : List Word := List.replicate 160 0
  p : List Mask := List.replicate 7 0
  q : BitVec 4 := 0
  fpstat : Flags := 0
  loads : List PLoad := []
  sys : Sys := {}
  pend : List (Nat × Trap) := []
  tiles : Tbl Tile := []
  accs : Tbl Acc := []
  accFail : List Nat := []
  accBad : List (Nat × Nat) := []
  regBad : List (Nat × Nat) := []
  edges : List Dword := List.replicate 4 (BitVec.allOnes 64)
  amxEn : Bool := false
  amxIdx : Nat := 0
  step : Word := 0
  level : Nat := 3
  ops : List EngOp := []
  issued : Tbl Nat := []
  tl : List TlOp := []
  epoch : Nat := 0
  clamped : Bool := false
  sb : List (Nat × Nat) := []
  stamp : Nat := 0
  hparked : Mask := 0
  psb : List (Nat × Nat) := []
deriving DecidableEq, Repr, Inhabited

/-- A waiting REGCLM claim (R187). -/
structure Claim where
  gid : Nat
  slot : Nat
  n : Nat
deriving DecidableEq, Repr, Inhabited

/-- One indirect-target table group (R340). -/
structure IttGroup where
  site : Nat
  call : Bool
  targets : List Nat
deriving DecidableEq, Repr, Inhabited

/-- A kernel as the Hearth keeps it (R338, R339): the words of its table entry and its indirect-target table. -/
structure Kernel where
  entry : Nat
  region : Nat
  shape : Nat
  res : Nat
  vcap : Nat
  depth : Nat
  itt : List IttGroup
deriving DecidableEq, Repr, Inhabited

/-- One placed block (R199, R200, R216): coordinates and extent, cores by rank, its groups, pool and claims (R183, R187),
scratchpad bytes and full words per rank, format slots (R28), indirect targets (R340); how often it has been passed over while it
waits to be switched in (R343, R350). -/
structure Block where
  ctx : Nat := 0
  grid : Nat := 0
  coords : Nat × Nat × Nat := (0, 0, 0)
  extent : Nat × Nat × Nat := (1, 1, 1)
  span : Nat := 0
  cores : List Nat := []
  groups : List Nat := []
  ngroups : Nat := 0
  isLocal : Bool := false
  pool : Nat := 0
  claims : List Claim := []
  spad : Nat := 0
  bytes : Tbl Mem := []
  full : Tbl (List Nat) := []
  bad : List Nat := []
  fmts : List Word := List.replicate 8 0
  itt : List IttGroup := []
  passed : Nat := 0
deriving DecidableEq, Repr, Inhabited

/-- One launch record the Hearth has started (R334, R336), with the blocks still to be placed. -/
structure Grid where
  ctx : Nat
  words : List Dword
  kernel : Kernel
  next : Nat
  live : Nat
  passed : Nat
  order : Nat
deriving DecidableEq, Repr, Inhabited

/-- The handler bank of a partition (R193). -/
structure Bank where
  v : List Vec := List.replicate 16 (List.replicate 32 0)
  g : List Word := List.replicate 16 0
  p : List Mask := List.replicate 7 0
  q : BitVec 4 := 0
deriving DecidableEq, Repr, Inhabited

/-- The run a partition is issuing (R153 to R156): how many instructions it has issued, the cycle of its current slot and
the ports used in it, the keys the first instruction of the slot writes, the first cycle of the next slot, the pass count
it keeps (R171), and whether it has ended. -/
structure Run where
  gid : Nat
  slot : Nat
  count : Nat := 0
  at_ : Option Nat := none
  portA : Bool := false
  portB : Bool := false
  writes : List Nat := []
  next : Nat := 0
  passc : Nat := 4
  ended : Bool := false
  cut : Bool := false
deriving DecidableEq, Repr, Inhabited

/-- One partition; `last` is the trap that entered the bank last, with the system registers its group had before (R223). -/
structure Part where
  run : Option Run := none
  bank : Bank := {}
  owner : Option (Nat × Nat) := none
  trapq : List (Nat × Nat) := []
  bankBad : List Nat := []
  last : Option Trap := none
  lastSys : Sys := {}
deriving DecidableEq, Repr, Inhabited

/-- Whose bytes of a dirty line are (R335, R363): the group, its grid, its persist epoch, the least name of the stores, and the bytes. -/
structure Mark where
  gid : Nat
  grid : Nat
  epoch : Nat
  first : Nat
  mask : BitVec 64
deriving DecidableEq, Repr, Inhabited

/-- One L1 line (R267): data, valid and dirty bytes, the frozen tag (R326), which groups and persist epochs wrote the dirty bytes
(R363), the dirty bytes that have lost their value (R314), the context that wrote last, and the fills under way from another
package that may still be installed: one begun before the line lost bytes may not (R276 to R279). -/
structure L1Line where
  data : BitVec 512 := 0
  valid : BitVec 64 := 0
  dirty : BitVec 64 := 0
  frozen : Bool := false
  marks : List Mark := []
  bad : BitVec 64 := 0
  ctx : Nat := 0
  fill : List Nat := []
deriving DecidableEq, Repr, Inhabited

/-- One instruction-cache line (R158): its context, its virtual line number and its bytes, or why they could not be
fetched (R71, R297). -/
structure ILine where
  ctx : Nat
  line : Nat
  bytes : Option (List Byte)
  cause : Cause
deriving DecidableEq, Repr, Inhabited

/-- One translation held by a TLB (R294). -/
structure TlbEnt where
  asid : Nat
  va : Nat
  bits : Nat
  pa : Nat
  x : Bool
  w : Bool
  rd : Bool
deriving DecidableEq, Repr, Inhabited

/-- One core (R153 to R171, R218). `held` lists class and last cycle held as the cycle began, `taken` what was issued in it;
`began` tells its cycles apart from those of other cores (R145); `phase` is how far its cycle has come: 0 at its start,
k + 1 in the turn of partition k, 13 when its issues are over (R164, R202); `lastSrc` and `lastThief` are the cores whose accesses to its
scratchpad and whose steals were performed last in this cycle (R202, R220); `preload` lists blocks placed here and the lines of code still to
load before a group of theirs issues (R158). -/
structure Core where
  cyc : Nat := 0
  time : Nat := 0
  running : Bool := false
  held : List (Nat × Nat) := []
  taken : List (Nat × Nat) := []
  issctl : Word := 1
  icache : List ILine := []
  l1 : Tbl L1Line := []
  utlb : List TlbEnt := []
  deque : List Dword := []
  ctx : Option Nat := none
  level : Nat := 0
  began : Nat := 0
  phase : Nat := 0
  lastSrc : Nat := 0
  lastThief : Nat := 0
  preload : List (Nat × Nat) := []
  parts : List Part := List.replicate 12 {}
deriving DecidableEq, Repr, Inhabited

/-- One counter plane: its record, which changes at issue, and its counters; `fail` is FAIL as the requests on the plane find it in the
order in which they run (R247 to R249, R260). -/
structure Plane where
  owner : Option Nat := none
  xfer : Bool := false
  fmt : Nat := 0
  mode : Nat := 0
  tsa : Bool := false
  tsb : Bool := false
  depth : List Nat := [0, 0, 0, 0]
  fail : List Bool := [false, false, false, false]
  cnt : Tbl Int := []
  bad : List Nat := []
deriving DecidableEq, Repr, Inhabited

/-- One reservation-table entry (R239): the captured instruction, for each operation it counts its number. `op` is its
op8; 0x100 an arrived MDRNA, 0x101 the source side of a peer merge. `m`, `k`, `nn` are its shape, `sa` and `sb` its slot
words, `xa` and `xb` its scale bytes, `word` its register word. It waits for the TL operations `tl`, for the requests
`before` to complete, and for the requests `rd` to have read (R240, R249). `since` orders requests by when they became
eligible; `peer` names the other side; `data` is what it will write or add, `cnts` counters it adds; `rel` are the planes that it released as it issued
(R248). -/
structure Req where
  id : Nat
  op : Nat
  gid : Nat
  core : Nat
  n : List Nat
  q : List Nat
  d : Nat
  a : Nat
  b : Nat
  c : Nat
  sa : Word
  sb : Word
  ta : Bool
  tb : Bool
  opx : Nat
  er : Dword
  ec : Dword
  m12 : Nat
  m : Nat
  k : Nat
  nn : Nat
  xa : Nat
  xb : Nat
  word : Word
  prio : Nat
  tl : List Nat
  before : List Nat
  rd : List Nat
  d0 : List Nat
  held : Bool
  since : Option Nat := none
  aged : Bool := false
  granted : Bool := false
  arrived : Bool := true
  peer : Nat := 0
  data : Acc := 0
  cnts : Tbl Int := []
  failed : Option Fail := none
  flags : Flags := 0
  rel : List Nat := []
deriving DecidableEq, Repr, Inhabited

/-- The power gate of a quad (R345). -/
inductive Gate where
  | on | gated | waking
deriving DecidableEq, Repr, Inhabited

/-- One quad. `dispatch` is the block dispatched to it while its voltage settles: its grid, and where its groups go (R345). -/
structure Quad where
  fused : Bool := false
  passc : Nat := 4
  table : List Req := []
  planes : List Plane := [{}, {}]
  qtlb : List TlbEnt := []
  thresh : Word := 160000
  gate : Gate := .on
  idleAt : Option Nat := some 0
  dispatch : Option (Nat × List Place) := none
deriving DecidableEq, Repr, Inhabited

/-- A write in a write-back queue (R357): its cells, entered as one unit. -/
abbrev WbqEnt := List Host.Cell

/-- State of a freeze directory entry (R317). -/
inductive FzState where
  | sealing | sealed | thawing
deriving DecidableEq, Repr, Inhabited

/-- One freeze directory entry (R317), with the dies and packages whose acknowledgement is awaited (R321, R322): dies 0 to
3, package p as 4 + p; the dies that have been told; and the THAWs, by group and number, that are finished as sealing ends (R318). -/
structure DirEnt where
  count : Nat
  state : FzState
  hdie : List Nat
  pkf : BitVec 32
  await : List Nat
  told : List Nat
  cut : List (Nat × Nat) := []
deriving DecidableEq, Repr, Inhabited

/-- One ordered-reduction slot (R286). -/
structure RedoSlot where
  ctx : Nat
  addr : Nat
  aop : Nat
  aty : Nat
  n : Nat
  vals : Tbl Nat
  sco : Nat
deriving DecidableEq, Repr, Inhabited

/-- One Tongs operation (R305 to R309). -/
structure TongsOp where
  id : Nat
  gid : Nat
  n : Nat
  blk : Nat
  fill : Bool
  ssp : Bool
  dsp : Bool
  src : Nat
  dst : Nat
  xlen : Nat
  yc : Nat
  zc : Nat
  sys : Int
  dys : Int
  szs : Int
  dzs : Int
  pat : Nat
  pw : Nat
  step : Word
  epoch : Nat
  next : Nat := 0
  paused : Bool := false
  deps : List Nat
deriving DecidableEq, Repr, Inhabited

/-- One Tongs queue: the operations of one context on one engine (R303), clamped or not (R316). -/
structure TongsQ where
  ops : List TongsOp := []
  clamped : Bool := false
deriving DecidableEq, Repr, Inhabited

/-- One snapshot (R373). -/
structure Snap where
  id : Nat
  gid : Nat
  n : Nat
  ctx : Nat
  rgn : Nat
  step : Nat
  dst : Nat
  copied : List Nat
  paused : Bool := false
  deps : List Nat
deriving DecidableEq, Repr, Inhabited

/-- One die; `struck` are the lines whose data is lost and which no access has found yet (R314). -/
structure Die where
  scm : Mem := []
  wbq : List WbqEnt := []
  dtlb : List TlbEnt := []
  near : Tbl (BitVec 512) := []
  dir : Tbl DirEnt := []
  filter : List (Nat × Nat) := []
  errset : List Nat := []
  struck : List Nat := []
  errCount : Nat := 0
  redo : Tbl RedoSlot := []
  tongs : Tbl TongsQ := []
  snaps : List Snap := []
  cOf : Tbl Nat := []
deriving DecidableEq, Repr, Inhabited

/-- Who waits for the answer to a fault record (R301), or for a line read from another package. -/
inductive Origin where
  | lane (gid slot : Nat) | tongs (die engine ctx id : Nat) | snap (die id : Nat) | coll (job key seq mbr : Nat)
  | fetch (core ctx line : Nat) | none
deriving DecidableEq, Repr, Inhabited

/-- A fault record not yet written: its words 0 to 7, with SEQ still 0 (R299), and who awaits its answer. -/
structure FRec where
  words : List Dword
  origin : Origin
deriving DecidableEq, Repr, Inhabited

/-- An awaited answer (R301): the record's SEQ, its ADDR, who awaits it, and the answer. -/
structure Await where
  seq : Nat
  addr : Dword
  origin : Origin
  answer : Option Nat
deriving DecidableEq, Repr, Inhabited

/-- One stepped region's registers (R365). -/
structure Region where
  base : Dword := 0
  shad : Dword := 0
  tag : Dword := 0
  ctl : Dword := 0
deriving DecidableEq, Repr, Inhabited

/-- The scale table of a context (R261): 12 positions of 256 entries, by 12 × entry + position; unlisted is +0. -/
structure Scale where
  pos : Tbl Word := []
  cur : Nat := 0
  tstep : Word := 0
deriving DecidableEq, Repr, Inhabited

/-- STATE of CTXCTL (R346). -/
inductive CtxState where
  | active | clamped | switchedOut | switching
deriving DecidableEq, Repr, Inhabited

/-- A PS operation that outlives its group's residence (R364, R370, R371): 0 PFLUSH, 1 STEPCM, 2 STEPAB. -/
structure PsOp where
  id : Nat
  kind : Nat
  gid : Nat
  n : Nat
  s : Nat
  epoch : Nat
  deps : List Nat
  stage : Nat := 0
deriving DecidableEq, Repr, Inhabited

/-- What a retired or switched-out group leaves with its context: the identity its failure records name (R175). -/
structure Ghost where
  gid : Nat
  word2 : Dword
  pc : CodeAddr
  word6 : Dword
  grid : Nat
  ops : List EngOp
deriving DecidableEq, Repr, Inhabited

/-- One context (R346); `swin` says that a SWIN waits for room (R350), `out` that it was switched out when it was clamped (R352). A saved group stands with the name by which its outstanding operations know it. -/
structure Ctx where
  valid : Bool := false
  debug : Bool := false
  prioMax : Nat := 3
  lvlCap : Nat := 3
  state : CtxState := .active
  asid : Nat := 0
  root : Dword := 0
  tvec : Dword := 0
  save : Dword := 0
  qh : Dword := 0
  qs : Dword := 0
  frqBase : Dword := 0
  frqProd : Nat := 0
  frqCons : Nat := 0
  out : Bool := false
  lost : Nat := 0
  waiting : List FRec := []
  awaits : List Await := []
  swin : Bool := false
  stepRec : Dword := 0
  stepC : Nat := 0
  regions : List Region := List.replicate 16 {}
  psq : List PsOp := []
  pjob : Nat := 0
  ktBase : Dword := 0
  kernels : Tbl Kernel := []
  scale : Scale := {}
  savedGroups : List (Nat × Group) := []
  savedBlocks : List (Nat × Block) := []
  savedPlanes : List (Nat × Nat × Plane) := []
  savedBanks : List (Nat × Nat × Bank × List Nat) := []
  deques : Tbl (List Dword) := []
  ghosts : List Ghost := []
deriving DecidableEq, Repr, Inhabited

/-- One launch queue (R333). -/
structure Lq where
  base : Dword := 0
  en : Bool := false
  src : Bool := false
  ctx : Nat := 0
  pi : Nat := 0
  ci : Nat := 0
  halt : Bool := false
  cause : Nat := 0
  off : Nat := 0
  clamped : Bool := false
  sat : List Nat := []
deriving DecidableEq, Repr, Inhabited

/-- What an access does at its point of performance (R270): `rel` is the write-back part of a release (R268), `wb` an L1
write-back, `drop` a DROP or LAST acting in order with its lane. -/
inductive AccKind where
  | read | write | atom (aop aty : Nat) | red (aop aty : Nat) | wb | rel | relWait | drop (discard : Bool)
deriving DecidableEq, Repr, Inhabited

/-- One access issued and not yet performed, or performed and not yet returned (R270, R281). `lanes` are the lanes whose
program order it belongs to; `apps` its applications, a lane with its operand bytes; `deps` the accesses performed before
it (R273, R276); `load` the load it returns to; `keep` the split or engine operation that takes its data instead; `home` whether it is
performed at home; `m12` the M12 that its flit carries (R386); `uni` a GST (R144); `grid` the grid it belongs to (R335); of a write-back
`mask` are its bytes, `batch` names what left the line together, and `cold` and `gone` are bytes of that which were dropped at a frozen page and
for a package out of reach (R325, R391). -/
structure Access where
  id : Nat
  kind : AccKind
  gid : Nat
  core : Nat
  ctx : Nat
  lanes : Mask
  pa : Nat
  va : Dword
  w : Nat
  apps : List (Nat × List Byte)
  home : Bool
  sco : Nat
  sem : Nat
  last : Bool
  load : Option Nat
  deps : List Nat
  epoch : Nat
  step : Option Nat
  mask : BitVec 64 := 0
  batch : Nat := 0
  cold : BitVec 64 := 0
  gone : BitVec 64 := 0
  marks : List Mark := []
  m12 : Nat := 0
  uni : Bool := false
  grid : Nat := 0
  keep : Origin := .none
  waiting : Bool := false
  sent : Bool := false
  done : Bool := false
  failed : Bool := false
  result : List (Nat × List Byte) := []
deriving DecidableEq, Repr, Inhabited

/-- A scratchpad access under way (R202, R204): 0 load, 1 store, 2 atomic, 3 a FESET of `w` bytes, 4 a LDFE or STFE of slot `aop`; the accesses performed before it, whether it is
an acquire and at which scope, and what it returned once performed; `apps` are its applications, a lane with its operand bytes. -/
structure SpadMsg where
  id : Nat
  kind : Nat
  gid : Nat
  src : Nat
  blk : Nat
  lanes : Mask
  addr : Nat
  w : Nat
  apps : List (Nat × List Byte)
  aop : Nat
  aty : Nat
  load : Option Nat
  deps : List Nat := []
  acq : Bool := false
  sco : Nat := 0
  done : Bool := false
  bad : Bool := false
  result : List (Nat × List Byte) := []
deriving DecidableEq, Repr, Inhabited

/-- A deque steal under way (R220). -/
structure Steal where
  id : Nat
  gid : Nat
  src : Nat
  tgt : Nat
  d : Nat
  c : Nat
  load : Nat
  ctx : Nat
deriving DecidableEq, Repr, Inhabited

/-- A REDO contribution under way (R286). -/
structure RedoMsg where
  id : Nat
  gid : Nat
  slot : Nat
  ctx : Nat
  lane : Nat
  va : Dword
  pa : Nat
  aop : Nat
  aty : Nat
  rslot : Nat
  n : Nat
  idx : Nat
  val : Nat
  sco : Nat
  deps : List Nat
  core : Nat := 0
  m12 : Nat := 0
  sent : Bool := false
deriving DecidableEq, Repr, Inhabited

/-- A SIGADD under way (R401). -/
structure SigAdd where
  id : Nat
  gid : Nat
  n : Nat
  ctx : Nat
  va : Dword
  pa : Nat
  val : Nat
  step : Nat
  deps : List Nat
  core : Nat := 0
  epoch : Nat := 0
  sent : Bool := false
deriving DecidableEq, Repr, Inhabited

/-- A freeze notice or gather of another package's page under way here (R321, R322, R404): the page's package, the dies
still to be told, and those whose acknowledgement is awaited. -/
structure Notice where
  page : Nat
  gather : Bool
  home : Nat
  todo : List Nat
  wait : List Nat
deriving DecidableEq, Repr, Inhabited

/-- One member's contribution to a collective (R395 to R399): what it has read, and how many lines of DST it has written. -/
structure Member where
  idx : Nat
  pkg : Nat
  gid : Nat
  n : Nat
  ctx : Nat
  src : Nat
  dst : Nat
  deps : List Nat
  data : Option (List Word)
  wrote : Nat := 0
  paused : Bool := false
deriving DecidableEq, Repr, Inhabited

/-- One collective a collective engine holds (R398, R399): its parameters, the member table (package, core), the
contributions it has, the partials of other packages, whether it has failed, N, the members that other packages have contributed, each with
its package, and the
packages whose DST writes are all performed. -/
structure Coll where
  job : Nat
  key : Nat
  seq : Nat
  op : Nat
  ty : Nat
  rop : Nat
  count : Nat
  table : List (Nat × Nat)
  members : List Member
  partials : List (Nat × List Word)
  failed : Bool := false
  n : Nat := 0
  ready : List (Nat × Nat) := []
  ended : List Nat := []
deriving DecidableEq, Repr, Inhabited

/-- A package or pod barrier in use (R403): level, owner, number, CNT of the first arrival, and who has arrived: a package
and the name of the arrival there. -/
structure BarUse where
  lvl : Nat
  owner : Nat
  id : Nat
  cnt : Nat
  arrived : List (Nat × Nat)
deriving DecidableEq, Repr, Inhabited

/-- One port of the fabric (R388, R389). -/
structure Port where
  up : Bool := false
  bad : Nat := 0
  retry : Nat := 0
  seqOut : Nat := 0
  seqIn : Nat := 0
  fails : Nat := 0
  unacked : List Flit := []
deriving DecidableEq, Repr, Inhabited

/-- The erasure group registers (R405), and a rebuild (R409): how many have begun, the stripe it is at, the positions whose units it reads for
that and what of them has come. -/
structure Erasure where
  ctl : Dword := 0
  str : Dword := 0
  data : Dword := 0
  par : Dword := 0
  mem : List Nat := List.replicate 17 0
  range : Dword := 0
  busy : Bool := false
  done : Bool := false
  run : Nat := 0
  at_ : Nat := 0
  from_ : List Nat := []
  units : List (Nat × List Byte) := []
deriving DecidableEq, Repr, Inhabited

/-- The host hand-over block (R355). -/
structure Handover where
  va : Dword := 0
  len : Dword := 0
  ctx : Dword := 0
  busy : Bool := false
  done : Bool := false
  op : Nat := 0
  capVa : Nat := 0
  capLen : Nat := 0
  capCtx : Nat := 0
deriving DecidableEq, Repr, Inhabited

/-- The power and security registers (R383, R384) and what the Bellows keeps (R380). -/
structure Power where
  limw : Nat := 3600
  trip : Bool := false
  thrt : Bool := false
  clim : Bool := false
  pw : Nat := 0
  ovrEn : BitVec 16 := 0
  ovrLvl : Word := BitVec.allOnes 32
  tmax : Nat := 0
  throt : Nat := 95
  vrf : Bool := false
  stage : Nat := 0
  svn : BitVec 16 := Config.fusedSvn
  alert : BitVec 5 := 0
  ibi : List (BitVec 5) := []
  grant : List Nat := List.replicate 16 0
  domLevel : List Nat := List.replicate 16 0
  raising : List (Option Nat) := List.replicate 16 none
  meas : List (BitVec 512) := List.replicate 8 0
  reports : List (List Byte) := []
  limited : BitVec 16 := 0
deriving DecidableEq, Repr, Inhabited

/-- One row that comes next: an event, or one automatic move of a core. -/
inductive Turn where
  | event (i : Instr)
  | core (c : Nat)
deriving DecidableEq, Repr

/-- The package. `parts` are the flits here of messages whose last flit is still to come; `kept` the reads of other packages' lines that
have returned to a split, a fetch or an engine. -/
structure State where
  on : Bool
  groups : Tbl Group
  blocks : Tbl Block
  grids : Tbl Grid
  cores : Tbl Core
  quads : Tbl Quad
  dies : Tbl Die
  ctxs : Tbl Ctx
  lqs : Tbl Lq
  mem : Mem
  accs : List Access
  spads : List SpadMsg
  steals : List Steal
  redos : List RedoMsg
  sigs : List SigAdd
  notices : List Notice
  colls : List Coll
  drains : List Req
  bars : List BarUse
  barHeld : List BarUse
  ports : List Port
  rtab : Tbl Nat
  pkg : Nat
  fabFail : List Nat
  out : List Flit
  resent : List (Nat × Nat × Nat)
  outHeld : List Flit
  parts : List Flit
  kept : List Access
  erasure : Erasure
  hand : Handover
  power : Power
  linkClamped : Bool
  nextGrid : Nat
  nextBlock : Nat
  nextId : Nat
  fresh : Nat
  focus : Nat × Nat
  agenda : List Turn
deriving DecidableEq, Repr

/-- The machine right after reset: every table is at its default, which is the reset value of what it holds. -/
def State.reset : State where
  on := true
  groups := []
  blocks := []
  grids := []
  cores := []
  quads := []
  dies := []
  ctxs := []
  lqs := []
  mem := []
  accs := []
  spads := []
  steals := []
  redos := []
  sigs := []
  notices := []
  colls := []
  drains := []
  bars := []
  barHeld := []
  ports := List.replicate 16 {}
  rtab := []
  pkg := 0
  fabFail := []
  out := []
  resent := []
  outHeld := []
  parts := []
  kept := []
  erasure := {}
  hand := {}
  power := {}
  linkClamped := false
  nextGrid := 1
  nextBlock := 0
  nextId := 0
  fresh := 0
  focus := (0, 0)
  agenda := []

/-- The group of an index: CORE × 96 + PART × 8 + POS (R353). -/
def State.group (s : State) (gid : Nat) : Group := s.groups.getD gid {}
/-- A placed block. -/
def State.block (s : State) (b : Nat) : Block := s.blocks.getD b {}
/-- A core of the package. -/
def State.core (s : State) (c : Nat) : Core := s.cores.getD c {}
/-- A quad of the package. -/
def State.quad (s : State) (q : Nat) : Quad := s.quads.getD q {}
/-- A die of the package. -/
def State.die (s : State) (d : Nat) : Die := s.dies.getD d {}
/-- A context. -/
def State.ctx (s : State) (c : Nat) : Ctx := s.ctxs.getD c {}
/-- A launch queue. -/
def State.lq (s : State) (q : Nat) : Lq := s.lqs.getD q {}

/-- Replaces a group. -/
def State.setGroup (s : State) (gid : Nat) (g : Group) : State := { s with groups := s.groups.set gid g }
/-- Replaces a block. -/
def State.setBlock (s : State) (b : Nat) (x : Block) : State := { s with blocks := s.blocks.set b x }
/-- Replaces a core. -/
def State.setCore (s : State) (c : Nat) (x : Core) : State := { s with cores := s.cores.set c x }
/-- Replaces a quad. -/
def State.setQuad (s : State) (q : Nat) (x : Quad) : State := { s with quads := s.quads.set q x }
/-- Replaces a die. -/
def State.setDie (s : State) (d : Nat) (x : Die) : State := { s with dies := s.dies.set d x }
/-- Replaces a context. -/
def State.setCtx (s : State) (c : Nat) (x : Ctx) : State := { s with ctxs := s.ctxs.set c x }
/-- Replaces a launch queue. -/
def State.setLq (s : State) (q : Nat) (x : Lq) : State := { s with lqs := s.lqs.set q x }

end Sys2Proof.Machine
end

