-- ==== Sys2Proof/Machine/Ops.lean ====
section
/-! DEFINITION. The named operations over memory, groups, registers, fault records and traps. -/

namespace Sys2Proof.Machine

/-- The byte at an address; an unlisted address reads 0 (log 5, DESIGN CHOICE). -/
def Mem.read : Mem → Nat → Byte
  | [], _ => 0
  | (x, b) :: r, a => if a < x then 0 else if a = x then b else Mem.read r a

/-- Writes one byte and keeps the canonical form. -/
def Mem.write : Mem → Nat → Byte → Mem
  | [], a, b => if b = 0 then [] else [(a, b)]
  | (x, c) :: r, a, b =>
    if a < x then if b = 0 then (x, c) :: r else (a, b) :: (x, c) :: r
    else if a = x then if b = 0 then r else (a, b) :: r
    else (x, c) :: Mem.write r a b

/-- Every address of a cell list lies above a bound and none holds 0. -/
def Mem.above : Option Nat → Mem → Bool
  | _, [] => true
  | lo, (x, b) :: r => (match lo with | none => true | some l => decide (l < x)) && b != 0 && Mem.above (some x) r

/-- The canonical form: addresses strictly rising, no entry 0. -/
def Mem.wf (m : Mem) : Bool := Mem.above none m

/-- Writes consecutive bytes. -/
def Mem.writes : Mem → Nat → List Byte → Mem
  | m, _, [] => m
  | m, a, b :: r => Mem.writes (Mem.write m a b) (a + 1) r

/-- Reads consecutive bytes. -/
def Mem.reads (m : Mem) (a : Nat) (n : Nat) : List Byte := (List.range n).map fun i => Mem.read m (a + i)

/-- Changes a group. -/
def State.modGroup (s : State) (gid : Nat) (f : Group → Group) : State := s.setGroup gid (f (s.group gid))
/-- Changes a core. -/
def State.modCore (s : State) (c : Nat) (f : Core → Core) : State := s.setCore c (f (s.core c))
/-- Changes a block. -/
def State.modBlock (s : State) (b : Nat) (f : Block → Block) : State := s.setBlock b (f (s.block b))
/-- Changes a quad. -/
def State.modQuad (s : State) (q : Nat) (f : Quad → Quad) : State := s.setQuad q (f (s.quad q))
/-- Changes a die. -/
def State.modDie (s : State) (d : Nat) (f : Die → Die) : State := s.setDie d (f (s.die d))
/-- Changes a context. -/
def State.modCtx (s : State) (c : Nat) (f : Ctx → Ctx) : State := s.setCtx c (f (s.ctx c))

/-- Replaces entry `n` of a list; entries before it that the list lacks are `d`. -/
def setAt {α : Type} (d : α) : List α → Nat → α → List α
  | [], 0, x => [x]
  | [], n + 1, x => d :: setAt d [] n x
  | _ :: r, 0, x => x :: r
  | y :: r, n + 1, x => y :: setAt d r n x

/-- Lane i of a group. -/
def Group.lane (g : Group) (i : Nat) : Lane := g.lanes.getD i {}
/-- Replaces lane i. -/
def Group.setLane (g : Group) (i : Nat) (l : Lane) : Group := { g with lanes := setAt {} g.lanes i l }
/-- Changes the lanes of a set. -/
def Group.modLanes (g : Group) (m : Mask) (f : Nat → Lane → Lane) : Group :=
  { g with lanes := laneIdx.map fun i => if m.getLsbD i then f i (g.lane i) else g.lane i }
/-- Slot k of a group. -/
def Group.slot (g : Group) (k : Nat) : Slot := g.slots.getD k {}
/-- Changes slot k. -/
def Group.modSlot (g : Group) (k : Nat) (f : Slot → Slot) : Group := { g with slots := setAt {} g.slots k (f (g.slot k)) }
/-- The lanes in a state. -/
def Group.lanesIn (g : Group) (st : LaneState) : Mask := Mask.ofFn fun i => (g.lane i).lst == st
/-- The lanes that have neither exited nor never launched (R82). -/
def Group.liveLanes (g : Group) : Mask :=
  Mask.ofFn fun i => (g.lane i).lst != .exited && (g.lane i).lst != .never
/-- Whether some lane is a bindable parked lane (R86). -/
def Group.hasParked (g : Group) : Bool := g.lanesIn .parked != 0
/-- The footprint: how many names hold a register (R178). -/
def Group.footprint (g : Group) : Nat := g.names.length
/-- The outstanding operations of a class (R173). -/
def Group.counter (g : Group) (c : Cls) : Nat := (g.ops.filter fun o => o.cls == c && !o.done).length
/-- How many operations of a class the group has issued. -/
def Group.issuedOf (g : Group) (c : Cls) : Nat := g.issued.getD c 0
/-- The mapped name, where it holds a register. -/
def Group.name? (g : Group) (n : Nat) : Option NameEnt := g.names.get? n
/-- Some split of the group is in handler mode or suspended (R302). -/
def Group.trapBusy (g : Group) : Bool := g.hparked != 0 || g.slots.any fun x => x.mode == .handler || x.mode == .suspended
/-- Whether some lanes of the group run a handler (R193). -/
def Group.inHandler (g : Group) : Bool := g.hparked != 0 || g.slots.any fun x => x.mode == .handler

/-- Partition p of a core. -/
def Core.part (c : Core) (p : Nat) : Part := c.parts.getD p {}
/-- Changes partition p. -/
def Core.modPart (c : Core) (p : Nat) (f : Part → Part) : Core := { c with parts := setAt {} c.parts p (f (c.part p)) }
/-- A partition of the package. -/
def State.part (s : State) (c p : Nat) : Part := (s.core c).part p
/-- Changes a partition. -/
def State.modPart (s : State) (c p : Nat) (f : Part → Part) : State := s.modCore c fun x => x.modPart p f

/-- The quad of a core (R130). -/
def quadOf (core : Nat) : Nat := core / 4
/-- The die of a core (R130). -/
def dieOf (core : Nat) : Nat := core / 128
/-- The quadrant domain of a core (R379). -/
def domOf (core : Nat) : Nat := core / 32
/-- The resident groups of a core (R164). -/
def State.residents (s : State) (core : Nat) : List Nat :=
  (s.groups.filter fun p => p.1 / 96 == core).map Prod.fst
/-- The cycle from which a run that becomes ready now can be chosen: this one at its start, else the next (R157, R164). -/
def Core.readyFrom (c : Core) : Nat := if c.phase = 0 then c.cyc else c.cyc + 1
/-- The turn of a partition has come: those below it issue nothing more in the cycle (R164, R202). -/
def State.atTurn (s : State) (core part : Nat) : State := s.modCore core fun c => { c with phase := part + 1 }
/-- The pass count of a quad: 4 while its domain's current limit holds, else what the Bellows gives it (R171, R381). -/
def State.passOf (s : State) (q : Nat) : Nat := if s.power.limited.getLsbD (q / 8) then 4 else (s.quad q).passc
/-- The core whose L1 array serves an access: the quad's first core stands for a fused L1 (R224). -/
def State.l1Of (s : State) (core : Nat) : Nat := if (s.quad (quadOf core)).fused then 4 * quadOf core else core
/-- Takes a name for an access, message or operation under way. -/
def State.newId (s : State) : Nat × State := (s.nextId, { s with nextId := s.nextId + 1 })
/-- Draws the next free value (log 3, DESIGN CHOICE). -/
def State.draw (s : State) : Nat × State := (Config.freeValue s.fresh, { s with fresh := s.fresh + 1 })
/-- Whether an access, message or contribution of this name is still under way. -/
def State.pendingId (s : State) (id : Nat) : Bool :=
  s.accs.any (fun a => a.id == id && !a.done) || s.spads.any (fun m => m.id == id && !m.done) || s.redos.any (fun m => m.id == id)
    || s.sigs.any fun m => m.id == id

/-- The home die of a local physical address, where one exists (R265). -/
def homeDie (pa : Nat) : Option Nat :=
  let a := pa % 2 ^ 42
  if a < 0x08000000000 then some (bitsOf a 38 37)
  else if a < 0x10000000000 then none
  else if a < 0x1C000000000 then some 0
  else if a < 0x28000000000 then some 1
  else if a < 0x34000000000 then some 2
  else some 3
/-- Whether a physical address lies in SCM (R265). -/
def inScm (pa : Nat) : Bool := decide (pa % 2 ^ 42 ≥ 0x10000000000)
/-- Whether a local physical address lies in HBM (R265). -/
def inHbm (pa : Nat) : Bool := decide (pa % 2 ^ 42 < 0x08000000000)
/-- The package number of a pod address (R265). -/
def pkgOf (pa : Nat) : Nat := pa / 2 ^ 42
/-- The freeze page of a pod address (R317). -/
def pageOf (pa : Nat) : Nat := pa / 2 ^ 17
/-- The line of an address. -/
def lineOf (pa : Nat) : Nat := pa / 64

/-- The bytes of memory at home. -/
def State.bytes (s : State) (pa n : Nat) : List Byte := Mem.reads s.mem pa n
/-- A number held in memory at home, little-endian. -/
def State.word (s : State) (pa n : Nat) : Nat := ofBytes (s.bytes pa n)
/-- The entries of a write-back queue in use: each line of a unit takes one (R357, R360). -/
def Die.wbqUsed (d : Die) : Nat := d.wbq.foldl (fun n e => n + ((e.map fun c => lineOf c.1).dedup).length) 0
/-- Whether the write-back queue of a home has a free entry (R357). -/
def State.wbqRoom (s : State) (pa : Nat) : Bool :=
  match homeDie pa with
  | some d => !inScm pa || decide ((s.die d).wbqUsed < 4096)
  | none => false
/-- Performs cells at home as one step; those homed in SCM enter the write-back queue as one unit (R357, R368). -/
def State.homeCells (s : State) (cells : List Host.Cell) : State :=
  let s1 := { s with mem := cells.foldl (fun m c => Mem.write m c.1 c.2) s.mem }
  match cells with
  | [] => s1
  | (a, _) :: _ => if inScm a then match homeDie a with
      | some d => s1.modDie d fun x => { x with wbq := x.wbq ++ [cells] }
      | none => s1
    else s1
/-- Performs consecutive bytes at home. -/
def State.homeBytes (s : State) (pa : Nat) (bs : List Byte) : State :=
  s.homeCells (bs.mapIdx fun i b => (pa + i, b))

/-- The records a fault record queue holds (R298). -/
def Ctx.frqSize (c : Ctx) : Nat := 2 ^ ((c.frqBase.toNat % 16) + 4)
/-- FRQSTAT.FULL (R298). -/
def Ctx.frqFull (c : Ctx) : Bool := (c.frqProd + 2 ^ 32 - c.frqCons) % 2 ^ 32 == c.frqSize
/-- Writes a record at home and then advances PI (R298, R299). SEQ follows PI, which counts on when a destroyed context number is made
valid again (log 133, DEDUCED). -/
def State.putRecord (s : State) (ctx : Nat) (r : FRec) : State :=
  let c := s.ctx ctx
  let seq := c.frqProd + 1
  let at_ := (c.frqBase.toNat % 2 ^ 54) / 4096 * 4096 + 64 * (c.frqProd % c.frqSize)
  let ws := match r.words with
    | w :: rest => (w ||| (BitVec.ofNat 64 (seq % 2 ^ 32) <<< 32)) :: rest
    | [] => []
  let s1 := s.homeBytes (s.pkg * 2 ^ 42 + at_ % 2 ^ 42) (ws.flatMap fun w => bytesOf 8 w.toNat)
  let aw := if r.origin = .none then c.awaits
    else c.awaits ++ [{ seq := seq % 2 ^ 32, addr := r.words.getD 1 0, origin := r.origin, answer := none }]
  s1.modCtx ctx fun x => { x with frqProd := (x.frqProd + 1) % 2 ^ 32, awaits := aw }
/-- Hands a record to the context's queue: a KIND 1 record waits while the ring is full, a log record is dropped and
counted (R298). -/
def State.logRecord (s : State) (ctx : Nat) (r : FRec) : State :=
  let c := s.ctx ctx
  if r.origin = .none then
    if c.frqFull then s.modCtx ctx fun x => { x with lost := min 65535 (x.lost + 1) } else s.putRecord ctx r
  else if c.frqFull || !c.waiting.isEmpty then s.modCtx ctx fun x => { x with waiting := x.waiting ++ [r] }
  else s.putRecord ctx r

/-- Word 0 of a record, without SEQ (R299). -/
def recWord0 (kind src acc : Nat) : Dword := BitVec.ofNat 64 (kind * 2 ^ 16 + src * 2 ^ 12 + acc * 2 ^ 8)
/-- Word 2 of a record that names a group and its split slot (R299). -/
def State.recWord2 (s : State) (gid slot : Nat) : Dword :=
  let g := s.group gid
  BitVec.ofNat 64 ((s.ctx g.ctx).asid * 2 ^ 48 + g.ctx * 2 ^ 40 + g.core * 2 ^ 23 + g.part * 2 ^ 19 + g.pos * 2 ^ 16
    + slot * 2 ^ 14)
/-- Word 2 of a record that names no group (R299). -/
def State.recWord2Ctx (s : State) (ctx engine : Nat) : Dword :=
  BitVec.ofNat 64 ((s.ctx ctx).asid * 2 ^ 48 + ctx * 2 ^ 40 + engine)
/-- Word 6 of a record (R299). -/
def State.recWord6 (s : State) (gid : Nat) : Dword :=
  let g := s.group gid
  BitVec.ofNat 64 (g.grid % 2 ^ 32 * 2 ^ 32 + g.index)
/-- A KIND 5 record (R299, R351). -/
def clampRec (w2 w6 : Dword) (master trig cause info : Nat) (addr : Dword) : FRec :=
  { words := [recWord0 5 0 0, addr, w2, 0, 0, 0, w6,
      BitVec.ofNat 64 (master * 2 ^ 60 + trig * 2 ^ 56 + cause * 2 ^ 48 + info)], origin := .none }
/-- Whether another package has contributed a member, so far as this package has been told. -/
def Coll.told (c : Coll) (idx : Nat) : Bool := c.ready.any fun r => r.1 == idx
/-- Whether a collective lacks a member that has not contributed, so far as this package knows. -/
def Coll.lacks (c : Coll) (pkg : Nat) : Bool :=
  c.table.mapIdx (fun k t => if t.1 = pkg then !c.members.any fun m => m.idx == k else !c.told k) |>.any id
/-- A clamp or the end of a context ends its collectives that lack a member (R399): no later contribution joins them, and
COLLECTIVE_COMPLETE completes the members they have as failed (log 44, DEDUCED). -/
def Coll.endFor (ctx pkg : Nat) (c : Coll) : Coll :=
  if c.members.any (fun m => m.ctx == ctx) && c.lacks pkg then { c with failed := true } else c
/-- Clamps a context: every master of it stops while its STATE is 1 (R351); its collectives that lack a member end (R399). -/
def State.clampCtx (s : State) (ctx trig cause : Nat) (addr : Dword) : State :=
  ({ s.modCtx ctx fun x => { x with out := x.out || x.state == .switchedOut, state := .clamped } with colls := s.colls.map (Coll.endFor ctx s.pkg) } : State).logRecord ctx
    (clampRec (s.recWord2Ctx ctx 0) 0 3 trig cause 0 addr)
/-- Clamps one group (R351, R353). -/
def State.clampGroup (s : State) (gid trig cause : Nat) (addr : Dword) : State :=
  (s.modGroup gid fun g => { g with clamped := true }).logRecord (s.group gid).ctx
    (clampRec (s.recWord2 gid 0) (s.recWord6 gid) 0 trig cause 0 addr)
/-- A group is clamped by itself or with its context (R351). -/
def State.groupClamped (s : State) (gid : Nat) : Bool :=
  (s.group gid).clamped || (s.ctx (s.group gid).ctx).state == .clamped
/-- ORs flags into a group's FPSTAT (R43). -/
def State.orFlags (s : State) (gid : Nat) (f : Flags) : State :=
  s.modGroup gid fun g => { g with fpstat := g.fpstat ||| f }

/-- Ends the run that a partition issues for this split; `cut` says the next instruction has not issued (R156). -/
def State.endRun (s : State) (gid slot : Nat) (cut : Bool) : State :=
  let g := s.group gid
  s.modPart g.core g.part fun p => match p.run with
    | some r => if r.gid = gid ∧ r.slot = slot then { p with run := some { r with ended := true, cut := cut } } else p
    | none => p

/-- Sets the system registers as handler entry does (R193, R194). -/
def State.setSys (s : State) (gid slot : Nat) (t : Trap) : State :=
  s.modGroup gid fun g => { g with sys := { g.sys with
    tpc := t.pc.setWidth 64, tcause := BitVec.ofNat 64 t.cause.code, taddr := t.addr, tlanes := t.lanes,
    tinfo := t.info.setWidth 64, tstat := BitVec.ofNat 64 ((if t.rpl then 2 ^ 31 else 0) + slot) } }
/-- Moves the lanes of a split and the split to an address. -/
def Group.moveSplit (g : Group) (slot : Nat) (lanes : Mask) (pc : CodeAddr) : Group :=
  (g.modLanes lanes fun _ l => { l with lpc := pc }).modSlot slot fun x => { x with spc := pc }
/-- Handler entry, one indivisible step (R193). -/
def State.enterHandler (s : State) (gid slot : Nat) (t : Trap) : State :=
  let s1 := s.setSys gid slot t
  let sys := (s.group gid).sys
  let g := s1.group gid
  let vec : CodeAddr := g.sys.tvec.setWidth 56
  let s2 := s1.modGroup gid fun g => (g.moveSplit slot (g.slot slot).amask vec).modSlot slot fun x =>
    { x with mode := .handler, active := x.amask, replay := none }
  s2.modPart g.core g.part fun p => { p with bank := {}, owner := some (gid, slot), bankBad := [], last := some t, lastSys := sys }
/-- Lets pending traps of a partition enter its free bank in the order they were raised (R193, R302). One whose group is clamped, or has a
suspended split, is passed over until it can enter (log 112, DESIGN CHOICE). -/
def State.enterPending (s : State) (core part : Nat) : State :=
  let p := s.part core part
  if p.owner.isSome then s else
  match p.trapq.find? (fun q => !(s.group q.1).trapBusy && !s.groupClamped q.1) with
  | none => s
  | some (gid, slot) =>
    match (s.group gid).pend.find? (fun t => t.1 == slot) with
    | none => s
    | some (_, t) =>
      let s1 := s.modPart core part fun p => { p with trapq := p.trapq.erase (gid, slot) }
      (s1.modGroup gid fun g => { g with pend := g.pend.filter fun x => x.1 != slot }).enterHandler gid slot t
/-- Suspends a split for firmware (R302). -/
def State.suspend (s : State) (gid slot : Nat) (t : Trap) : State :=
  (s.setSys gid slot t).modGroup gid fun g => g.modSlot slot fun x => { x with mode := .suspended, active := x.amask, trapNo := t.no }
/-- The number of a trap raised now: a later cycle gives a greater one, and within a cycle the position and then the slot decide (R193,
R223). -/
def State.trapNo (s : State) (gid slot : Nat) : Nat :=
  let g := s.group gid
  ((s.core g.core).began + 1) * 32 + 4 * g.pos + slot
/-- Puts an entry into a list that a number orders. -/
def insertBy {α : Type} (key : α → Nat) (x : α) : List α → List α
  | [] => [x]
  | y :: r => if key x < key y then x :: y :: r else y :: insertBy key x r
/-- A list in the order of a number; those of one number stay as they stood. -/
def sortBy {α : Type} (key : α → Nat) (xs : List α) : List α := xs.foldl (fun acc x => insertBy key x acc) []
/-- The number of the trap a slot of a group has pending. -/
def State.pendNo (s : State) (q : Nat × Nat) : Nat :=
  (((s.group q.1).pend.find? fun t => t.1 == q.2).map (·.2.no)).getD 0
/-- A split stands at its faulting instruction with its trap pending, in the order in which traps were raised (R193, R302). -/
def State.pendTrap (s : State) (gid slot : Nat) (t : Trap) : State :=
  s.modGroup gid fun g => { (g.modSlot slot fun x => { x with mode := .pending }) with pend := insertBy (·.2.no) (slot, t) g.pend }
/-- A pending trap waits for the handler bank of its partition (R193). -/
def State.queueTrap (s : State) (gid slot : Nat) (t : Trap) : State :=
  let s1 := s.pendTrap gid slot { t with bank := true }
  s1.modPart (s.group gid).core (s.group gid).part fun p => { p with trapq := insertBy s1.pendNo (gid, slot) p.trapq }
/-- A trap that has entered the bank in this very cycle gives it back to one of the same cycle that comes before it (R223): its split
stands at its instruction again, and its system registers are as they were. -/
def State.yieldBank (s : State) (core part : Nat) (t : Trap) : State :=
  let p := s.part core part
  match p.owner, p.last with
  | some (gid, slot), some u =>
    if u.no / 32 = t.no / 32 ∧ t.no < u.no ∧ ((s.group gid).slot slot).mode = .handler then
      ((s.modPart core part fun p => { p with owner := none, last := none }).modGroup gid fun g =>
        { g.moveSplit slot (g.slot slot).amask u.pc with sys := p.lastSys }).queueTrap gid slot u
    else s
  | _, _ => s
/-- The faulting PC, which a KIND 5 record names (R351): TPC, but for a TRAP or BKPT, whose TPC is the next instruction (R197). -/
def Trap.faultPc (t : Trap) : Dword := (if t.cause = .bkpt ∨ t.cause = .software then t.pc - 8 else t.pc).setWidth 64
/-- Routes a cause from the third row of R192 on: a clamp when TVEC = 0, else the handler. -/
def State.routeHandler (s : State) (gid slot : Nat) (t : Trap) : State :=
  let g := s.group gid
  if g.sys.tvec = 0 then s.clampCtx g.ctx 2 t.cause.code t.faultPc
  else
    ((s.yieldBank g.core g.part t).queueTrap gid slot t).enterPending g.core g.part
/-- Takes a trap in the split that issued the faulting instruction, after the run is cut (R192). -/
def State.raise (s : State) (gid slot : Nat) (t : Trap) : State :=
  let t : Trap := { t with no := s.trapNo gid slot }
  let s := s.endRun gid slot true
  let g := s.group gid
  let x := g.slot slot
  if x.mode = .handler then s.clampCtx g.ctx 3 t.cause.code t.faultPc
  else if t.cause = .pageNotPresent then
    if g.trapBusy || !g.pend.isEmpty then s.pendTrap gid slot t
    else s.suspend gid slot t
  else if t.cause = .bkpt ∧ (s.ctx g.ctx).debug = true then s.clampGroup gid 1 t.cause.code t.faultPc
  else s.routeHandler gid slot t
/-- When a group's split leaves handler mode or resumes, its next pending firmware fault is suspended, and the bank takes
its next trap (R193, R302). -/
def State.afterTrap (s : State) (gid : Nat) : State :=
  let g := s.group gid
  let s1 := if g.trapBusy then s else
    match g.pend with
    | (k, t) :: rest => if t.cause = .pageNotPresent ∧ t.bank = false then
        (s.modGroup gid fun g => { g with pend := rest }).suspend gid k t else s
    | [] => s
  s1.enterPending g.core g.part

end Sys2Proof.Machine
end

