-- ==== Sys2Proof/Machine/Encoding.lean ====
section
/-! DEFINITION. The instruction as a split issues it: the W64 form a short form stands for (R48, R51), the operand kinds and
layouts of every operation, and the encoding checks in their order (R54 to R70). -/

namespace Sys2Proof.Machine

/-- Operand kinds (R55, R56, R105). `reg v g z n` names a lane register, a uniform register or 288 as allowed, `n`
consecutive ones from a multiple of n; n = 0 takes the width of the type, n = 9 that of an atomic's operand. -/
inductive K where
  | zero
  | reg (v g z : Bool) (n : Nat)
  | lim (n : Nat)
  | between (lo hi : Nat)
  | predOrNone
  | tile
  | acc
deriving DecidableEq, Repr

/-- M12 layouts (R57 to R63) and the W64I forms (R65). -/
inductive Lay where
  | lane | mem | atom | ctrl | mat | core | eng | imm
deriving DecidableEq, Repr

/-- What the tables of the manual say of one operation. -/
structure OpInfo where
  lay : Lay
  d : K
  a : K
  b : K
  c : K
  cls : Nat := 0
  portB : Bool := true
  guarded : Bool := true
  tys : List Nat := [0]
  rm : Bool := false
  sat : Bool := false
  opx : List Nat := [0]
deriving DecidableEq, Repr

/-- Kind x of R105. -/
def kx : K := .reg true true true 0
/-- Kind xp of R105. -/
def kxp : K := .reg true true true 2
/-- A single register of any kind. -/
def kx1 : K := .reg true true true 1
/-- Kind v of R105. -/
def kv : K := .reg true false true 0
/-- Kind vp of R105. -/
def kvp : K := .reg true false true 2
/-- A single lane register or 288. -/
def kv1 : K := .reg true false true 1
/-- Kind g of R105. -/
def kg : K := .reg false true true 1
/-- A uniform register, not 288. -/
def kgo : K := .reg false true false 1
/-- The even register of a g pair. -/
def kgp : K := .reg false true false 2
/-- The even register of a g pair, or 288. -/
def kgpz : K := .reg false true true 2
/-- The even register of an address pair, v or g (R138). -/
def kbase : K := .reg true true false 2
/-- A stored value of the width's registers: v or g, 288 not among them (R138; log 92, DEDUCED). -/
def kxo : K := .reg true true false 0
/-- A single v or g register, 288 not among them (R138; log 92, DEDUCED). -/
def kxo1 : K := .reg true true false 1

/-- The eight integer types of R107. -/
def tyI8 : List Nat := [0, 1, 2, 3, 4, 5, 10, 11]

/-- A lane operation. -/
def laneI (d a b c : K) (tys : List Nat) (sat : Bool := false) (opx : List Nat := [0]) (cls : Nat := 0) (rm : Bool := false) :
    OpInfo :=
  { lay := .lane, d := d, a := a, b := b, c := c, cls := cls, portB := false, tys := tys, rm := rm, sat := sat, opx := opx }
/-- A uniform operation (R190). -/
def uniI (d a b c : K) (tys : List Nat) (sat : Bool := false) (opx : List Nat := [0]) (cls : Nat := 0) (rm : Bool := false) :
    OpInfo :=
  { lay := .lane, d := d, a := a, b := b, c := c, cls := cls, guarded := false, tys := tys, rm := rm, sat := sat, opx := opx }
/-- A control operation (R92). -/
def ctrlI (a d : K) : OpInfo := { lay := .ctrl, d := d, a := a, b := .lim 511, c := .lim 511 }
/-- A memory operation (R138). -/
def memI (d a b c : K) : OpInfo := { lay := .mem, d := d, a := a, b := b, c := c, cls := 1 }
/-- An atomic operation (R59). -/
def atomI (d a b c : K) : OpInfo := { lay := .atom, d := d, a := a, b := b, c := c, cls := 1 }
/-- A core operation (R62). -/
def coreI (d a b c : K) : OpInfo := { lay := .core, d := d, a := a, b := b, c := c, guarded := false }
/-- A tile or matrix operation (R61). -/
def matI (d a b c : K) (opx : List Nat := [0]) (cls : Nat := 1) : OpInfo :=
  { lay := .mat, d := d, a := a, b := b, c := c, cls := cls, opx := opx }
/-- An engine operation (R63). -/
def engI (d a b c : K) : OpInfo := { lay := .eng, d := d, a := a, b := b, c := c, guarded := false }
/-- A W64I operation (R65). -/
def immI (d : K) (guarded : Bool) : OpInfo :=
  { lay := .imm, d := d, a := .zero, b := .zero, c := .zero, portB := !guarded, guarded := guarded }

/-- The tables of R66, R67, R92, R110, R116, R123, R133, R138, R190, R209, R219, R231, R250, R263, R304, R319, R363, R396
and R400; none for a reserved op8 (R69). -/
def opInfo : Nat → Option OpInfo
  | 0x00 => laneI kv kx kx .zero tyI8 true | 0x01 => laneI kv kx kx .zero tyI8 true | 0x02 => laneI kv kx kx .zero tyI8 true
  | 0x03 => laneI kv kx kx .zero [0, 1] | 0x04 => laneI kv kx kx kx [0, 1] true
  | 0x05 => laneI kvp kx kx kxp [0, 1] true
  | 0x06 => laneI kv kx kx (.lim 7) [0] | 0x07 => laneI kv kx kx (.lim 7) [0]
  | 0x08 => laneI kv kx .zero .zero [0, 2, 4, 10] true | 0x09 => laneI kv kx .zero .zero [0, 2, 4, 10] true
  | 0x0A => laneI kv kx kx .zero tyI8 | 0x0B => laneI kv kx kx .zero tyI8
  | 0x0C => laneI kv kx kx .zero [0, 10] | 0x0D => laneI kv kx kx .zero [0, 10] | 0x0E => laneI kv kx kx .zero [0, 10]
  | 0x0F => laneI kv kx .zero .zero [0, 10] | 0x10 => laneI kv kx kx .zero [0, 10]
  | 0x11 => laneI kv kx kx .zero [0, 10] | 0x12 => laneI kv kx kx .zero [0, 10] | 0x13 => laneI kv kx kx .zero [0, 10]
  | 0x14 => laneI kv kx kx .zero [0, 10] | 0x15 => laneI kv kx kx kx [0] false [0, 1]
  | 0x16 => laneI kv kx kx .zero [0] false [0, 1] | 0x17 => laneI kv kx kx kx [0]
  | 0x18 => laneI kv kx .zero .zero [0, 10] | 0x19 => laneI kv kx .zero .zero [0, 10] | 0x1A => laneI kv kx .zero .zero [0, 10]
  | 0x1B => laneI kv kx kx .zero [0, 1, 10, 11] true [0] 3 | 0x1C => laneI kv kx kx .zero [0, 1, 10, 11] false [0] 3
  | 0x1D => laneI kvp kxp kx .zero [0, 1] false [0, 1, 2, 3] | 0x1E => laneI kvp kx kx .zero [0, 1]
  | 0x1F => laneI (.lim 7) kx kx (.lim 9) [0, 10] false [0, 1, 2] | 0x20 => laneI kv kx kx kx [0]
  | 0x21 => laneI kv kx kx kx [4, 5] true
  | 0x30 => laneI kv kx kx .zero [6] false [0] 1 true | 0x31 => laneI kv kx kx .zero [6] false [0] 1 true
  | 0x32 => laneI kv kx kx .zero [6] false [0] 1 true | 0x33 => laneI kv kx kx kx [6] false [0] 1 true
  | 0x34 => laneI kv kx kx .zero [6] false [0] 1 | 0x35 => laneI kv kx kx .zero [6] false [0] 1
  | 0x36 => laneI kv kx kx .zero [6] false [0] 1 | 0x37 => laneI kv kx kx .zero [6] false [0] 1
  | 0x38 => laneI (.lim 7) kx kx (.lim 7) [6] false [0, 1, 2] 1 | 0x39 => laneI kv kx .zero .zero [6, 9] false [0] 1
  | 0x3A => laneI kv kx kx .zero [6] false [0] 2 true | 0x3B => laneI kv kx .zero .zero [6] false [0] 2 true
  | 0x3C => laneI kv kx .zero .zero [6] false [0] 2 true | 0x3D => laneI kv kx .zero .zero [6] false [0] 2 true
  | 0x3E => laneI kv kx .zero .zero [6] false [0] 3 true | 0x3F => laneI kv kx .zero .zero [6] false [0] 3 true
  | 0x40 => laneI kv kx .zero .zero [6] false [0] 3 true | 0x41 => laneI kv kx .zero .zero [6] false [0] 3 true
  | 0x42 => laneI kv kx .zero .zero [6] false [0] 3 true | 0x43 => laneI kv kx .zero .zero [6] false [0, 1] 1 true
  | 0x44 => laneI kv kx kx .zero [6] false [0] 1 true | 0x45 => laneI kv kx kx kx [7, 8] false [0] 1 true
  | 0x46 => laneI kv kx kx .zero [7, 8] false [0] 1 true | 0x47 => laneI kv kx kx .zero [7, 8] false [0] 1 true
  | 0x48 => laneI kv kx kx .zero [7, 8] false [0, 1] 1 | 0x49 => laneI kv kx kx .zero [7, 8] false [0, 1] 1
  | 0x4A => laneI kv kx kx .zero [9] false [0] 2 true | 0x4B => laneI kv kx kx .zero [9] false [0] 2 true
  | 0x4C => laneI kv kx kx kx [9] false [0] 2 true | 0x4D => laneI kv kx kx .zero [9] false [0, 1] 2
  | 0x4E => laneI kv kx kx .zero [9] false [0, 1] 2 | 0x4F => laneI (.lim 7) kx kx (.lim 7) [9] false [0, 1, 2] 2
  | 0x50 => laneI kv kx kx .zero [9] false [0] 3 true | 0x51 => laneI kv kx .zero .zero [9] false [0] 3 true
  | 0x60 => laneI kv1 kx1 .zero (.lim 11) [0, 1, 6, 7, 8, 9, 10, 11] true [0] 1 true
  | 0x61 => laneI kv kx kx (.lim 7) [6] false [0, 1, 2, 3] 1 true | 0x62 => laneI kv kx (.lim 511) (.lim 7) [6] false [0] 1
  | 0x63 => laneI kv1 kx1 kx1 (.lim 7) [0] false [0, 1] 1 | 0x64 => laneI kv kx kx (.lim 11) [0, 10]
  | 0x65 => laneI (.lim 7) (.lim 11) (.lim 11) .zero [0] false [0, 1, 2, 3] | 0x66 => laneI kv kx .zero .zero [0] false [0, 1]
  | 0x67 => laneI kv kx kx .zero [0] | 0x68 => laneI kv (.lim 22) .zero .zero [0, 10] false [0, 1]
  | 0x69 => laneI kv kx .zero .zero [0, 10] | 0x6A => laneI kv kg .zero .zero [0]
  | 0x6B => laneI kg (.reg true false false 1) kg .zero [0] false [0, 1] 1
  | 0x6C => laneI .zero (.reg true false false 1) .zero .zero [0]
  | 0x70 => laneI kv kx kx .predOrNone [0, 10] false [0, 1, 2, 3] 1
  | 0x71 => laneI kv kx .zero (.lim 5) [0, 1, 6, 9, 10, 11] false [0] 1 true
  | 0x72 => laneI kv kx .zero (.lim 5) [0, 1, 6, 9, 10, 11] false [0] 1 true
  | 0x73 => laneI (.lim 7) (.lim 11) .zero .zero [0] false [0, 1, 2, 3] 1
  | 0x74 => laneI kv (.lim 11) .zero .zero [0] false [0, 1, 2, 3] 1
  | 0x75 => laneI kv1 kx .zero .zero [0, 10] false [0, 1, 2, 3] 1
  | 0x80 => ctrlI (.lim 11) .zero | 0x81 => ctrlI (.lim 11) .zero | 0x82 => ctrlI (.lim 11) .zero
  | 0x83 => ctrlI (.lim 11) .zero | 0x84 => ctrlI .zero .zero | 0x85 => ctrlI kx1 .zero | 0x86 => ctrlI .zero .zero
  | 0x87 => ctrlI kx1 .zero | 0x88 => ctrlI .zero .zero | 0x89 => ctrlI .zero .zero | 0x8A => ctrlI .zero .zero
  | 0x8B => ctrlI .zero kgo | 0x8C => ctrlI .zero .zero
  | 0x90 => memI kv kbase kx1 .zero | 0x91 => memI .zero kbase kx1 kxo | 0x92 => memI kv kxo1 kx1 .zero
  | 0x93 => memI .zero kxo1 kx1 kxo | 0x94 => memI kv kxo1 kx1 .zero | 0x95 => memI .zero kxo1 kx1 kxo
  | 0x96 => memI .zero kgo kg kgo | 0x97 => atomI kv kbase kx1 (.reg true true false 9)
  | 0x98 => atomI kv kxo1 kx1 (.reg true true false 9) | 0x99 => atomI .zero kbase kx1 (.reg true true false 9)
  | 0x9A => atomI .zero kbase kx1 (.reg true true false 9) | 0x9B => memI .zero .zero .zero .zero
  | 0x9C => memI .zero kbase kx1 .zero | 0x9D => memI .zero kbase kx1 .zero
  | 0x9E => memI (.reg false true false 0) kgp kg .zero | 0x9F => memI .zero kgp kg (.reg false true false 0)
  | 0xB0 => uniI kg kg kg .zero [0, 1] true | 0xB1 => uniI kg kg kg .zero [0, 1] true | 0xB2 => uniI kg kg kg .zero [0, 1] true
  | 0xB3 => uniI kg kg kg kg [0, 1] true | 0xB4 => uniI kg kg kg .zero [0] | 0xB5 => uniI kg kg kg .zero [0]
  | 0xB6 => uniI kg kg kg .zero [0] | 0xB7 => uniI kg kg kg .zero [0] | 0xB8 => uniI kg kg kg .zero [0] false [0, 1]
  | 0xB9 => uniI (.between 8 11) kg kg (.lim 9) [0] false [0, 1, 2] | 0xBA => uniI kg kg kg (.between 8 11) [0]
  | 0xBB => uniI kg kg kg .zero [0, 1] | 0xBC => uniI kg kg kg .zero [0, 1]
  | 0xBD => uniI kgpz kgpz kg .zero [0, 1] false [0, 1, 2, 3]
  | 0xBE => uniI kg kg kg .zero [6] false [0] 1 true | 0xBF => uniI kg kg kg .zero [6] false [0] 1 true
  | 0xC0 => coreI .zero .zero .zero .zero | 0xC1 => coreI .zero kgpz .zero .zero | 0xC2 => coreI .zero kg .zero .zero
  | 0xC3 => coreI .zero .zero .zero .zero | 0xC4 => coreI .zero .zero .zero .zero | 0xC5 => coreI .zero kg .zero .zero
  | 0xC6 => coreI .zero kgp .zero kg | 0xC7 => coreI kgpz .zero .zero kg | 0xC8 => coreI kgpz kg .zero kg
  | 0xC9 => coreI .zero kgp kg .zero | 0xCA => coreI .zero .zero .zero .zero | 0xCB => coreI .zero .zero .zero .zero
  | 0xCC => coreI kg (.lim 6) .zero .zero | 0xCD => coreI (.lim 6) kg .zero .zero | 0xCE => coreI .zero kgp .zero .zero
  | 0xCF => coreI .zero .zero .zero .zero
  | 0xD0 => matI .tile kgo kg kgp | 0xD1 => matI .tile kgo kg kgp | 0xD2 => matI .tile kg .zero (.lim 7)
  | 0xD3 => matI .tile .tile .zero .zero | 0xD4 => matI .tile .zero .zero .zero
  | 0xD5 => matI (.lim 3) kg .zero .zero [0, 1] | 0xD6 => matI .acc .tile .tile (.lim 511) [0, 1]
  | 0xD7 => matI .acc .tile .tile .tile [0, 1] | 0xD8 => matI (.lim 1) .tile .tile (.lim 511) [0] 0
  | 0xD9 => matI .acc (.lim 1) (.lim 511) .zero [0] 2 | 0xDA => matI (.lim 1) (.lim 1) kg .zero [0, 1] 2
  | 0xDB => matI .tile .acc kgpz .zero [0, 1, 2, 3] | 0xDC => matI .zero .acc kg .zero [0, 1, 2, 3]
  | 0xDD => matI .acc .zero .zero .zero | 0xDE => matI kg kg .zero .zero | 0xDF => matI .zero kg .zero .zero [0, 1, 2]
  | 0xE0 => engI kg (.reg false true false 8) kgp .zero | 0xE1 => engI kg (.reg false true false 8) kgp kg
  | 0xE2 => engI .zero kgp kg .zero | 0xE3 => engI .zero kgp kg .zero | 0xE4 => engI kgp kgp .zero .zero
  | 0xE5 => engI .zero .zero .zero .zero | 0xE6 => engI .zero .zero .zero .zero | 0xE7 => engI .zero kg .zero .zero
  | 0xE8 => engI .zero kg .zero .zero | 0xE9 => engI .zero kg .zero .zero | 0xEA => engI .zero (.reg false true false 4) .zero .zero
  | 0xEB => engI .zero (.reg false true false 8) .zero .zero | 0xEC => engI .zero kgp kgpz .zero
  | 0xED => engI kgpz kgp kgpz .zero
  | 0xF0 => immI kv1 true | 0xF1 => immI kg false | 0xF2 => immI (.reg true false false 1) true | 0xF3 => immI kgo false
  | 0xF4 => immI kv1 true | 0xF5 => immI kg false | 0xF6 => immI (.reg true false false 1) true
  | _ => none

/-- An instruction ready to issue: op8, the W64 fields it acts as, its immediate and mod7 where it is a W64I, its length,
its first 32 bits (R70), and a short form's own violation (R51). -/
structure Ins where
  op : Nat
  f : W64F
  imm : Word := 0
  mod7 : Nat := 0
  len : Nat
  raw : Word
  bad : Option Cause := none
deriving DecidableEq, Repr

/-- The fields a lane-layout short form stands for. -/
def shortFields (m12 c b a d : Nat) (st e : BitVec 1) : W64F :=
  { m12 := BitVec.ofNat 12 m12, c := BitVec.ofNat 9 c, b := BitVec.ofNat 9 b, a := BitVec.ofNat 9 a, d := BitVec.ofNat 9 d,
    gn := 0, g := 7, st := st, e := e }

/-- op8 and kind (unary) and TY of each op4 (R49). -/
def c16Map : List (Nat × Bool × Nat) :=
  [(0x69, true, 0), (0x0F, true, 0), (0x00, false, 0), (0x01, false, 0), (0x02, false, 0), (0x0C, false, 0),
   (0x0D, false, 0), (0x0E, false, 0), (0x11, false, 0), (0x12, false, 0), (0x13, false, 0), (0x30, false, 6),
   (0x31, false, 6), (0x32, false, 6), (0x34, false, 6), (0x35, false, 6)]

/-- The W64 instruction a C16 instruction acts as (R48). -/
def insC16 (op4 : Nat) (f : C16F) : Ins :=
  let (op, un, ty) := c16Map.getD op4 (0, false, 0)
  let a := if un then f.s.toNat else f.d.toNat
  let b := if un then 0 else f.s.toNat
  { op := op, f := shortFields (ty * 256) 0 b a f.d.toNat 0 f.e, len := 2,
    raw := BitVec.ofNat 32 (f.s.toNat * 2048 + f.d.toNat * 64 + op4 * 4 + f.e.toNat * 2) }

/-- A W32 row of R52: op8; the kinds of d, a and b (0: must be 0, 1: v, 2: g, 3: a plain number); whether k is LA; TY. -/
def w32Map : List (Nat × Nat × Nat × Nat × Bool × Nat) :=
  let vvv (op ty : Nat) := (op, 1, 1, 1, true, ty)
  let vv (op ty : Nat) := (op, 1, 1, 0, true, ty)
  let ggg (op ty : Nat) := (op, 2, 2, 2, false, ty)
  [vvv 0x00 0, vvv 0x01 0, vvv 0x02 0, vvv 0x03 0, vvv 0x0A 0, vvv 0x0B 0, vvv 0x0C 0, vvv 0x0D 0, vvv 0x0E 0, vvv 0x10 0,
   vvv 0x11 0, vvv 0x12 0, vvv 0x13 0, vvv 0x14 0, vv 0x18 0, vv 0x19 0, vv 0x1A 0,
   vvv 0x30 6, vvv 0x31 6, vvv 0x32 6, vvv 0x34 6, vvv 0x35 6, vvv 0x36 6, vvv 0x37 6,
   vv 0x3C 6, vv 0x3D 6, vv 0x3E 6, vv 0x3F 6, vv 0x3B 6, vvv 0x3A 6, vv 0x42 6,
   vvv 0x46 7, vvv 0x47 7, vvv 0x48 7, vvv 0x49 7, vvv 0x4A 9, vvv 0x4B 9,
   vv 0x69 0, (0x6A, 1, 2, 0, false, 0), (0x6B, 2, 1, 2, true, 0), (0x6C, 0, 1, 0, false, 0),
   ggg 0xB0 0, ggg 0xB1 0, ggg 0xB2 0, ggg 0xB4 0, ggg 0xB5 0, ggg 0xB6 0, ggg 0xB7 0, ggg 0xB8 0, ggg 0xBB 0, ggg 0xBC 0,
   ggg 0xBE 6, ggg 0xBF 6, (0xC0, 3, 3, 0, false, 0),
   (0x8A, 0, 0, 0, false, 0), (0x8C, 0, 0, 0, false, 0), (0x89, 0, 0, 0, false, 0), (0x88, 0, 0, 0, false, 0),
   vv 0x0F 0, vv 0x08 0, vv 0x09 0, vvv 0x70 0, vv 0x71 0, vv 0x43 6]

/-- The W64 instruction a W32 instruction acts as (R51, R52). -/
def insW32 (op6 : Nat) (f : W32F) : Ins :=
  let (op, kd, ka, kb, la, ty) := w32Map.getD op6 (0, 0, 0, 0, false, 0)
  let map (k v : Nat) : Nat := if k = 1 then v else if k = 2 then 128 + v else 0
  let zeroBad (k v : Nat) : Bool := k == 0 && v != 0
  let bad : Option Cause :=
    if zeroBad kd f.d.toNat || zeroBad ka f.a.toNat || zeroBad kb f.b.toNat || (!la && f.k.toNat != 0) then some .illegalOpcode
    else if op == 0xC0 && (decide (f.d.toNat > 5) || decide (f.a.toNat > 63)) then some .illegalOperand
    else none
  let m12 := if op = 0xC0 then f.d.toNat % 8 * 512 + f.a.toNat % 64 else ty * 256 + (if la then f.k.toNat * 16 else 0)
  let c := if op = 0x70 then 288 else 0
  { op := op, f := shortFields m12 c (map kb f.b.toNat) (map ka f.a.toNat) (map kd f.d.toNat) f.st f.e, len := 4,
    raw := BitVec.ofNat 32 (f.k.toNat * 2 ^ 31 + f.b.toNat * 2 ^ 24 + f.a.toNat * 2 ^ 17 + f.d.toNat * 2 ^ 10 + op6 * 16
      + f.st.toNat * 8 + f.e.toNat * 4 + 1), bad := bad }

/-- A W64 instruction (R53). -/
def insW64 (op : Nat) (f : W64F) : Ins :=
  { op := op, f := f, len := 8, raw := BitVec.ofNat 32 ((f.a.toNat % 128) * 2 ^ 25 + f.d.toNat * 2 ^ 16 + f.gn.toNat * 2 ^ 15
      + f.g.toNat * 2 ^ 12 + op * 16 + f.st.toNat * 8 + f.e.toNat * 4 + 3) }

/-- A W64I instruction (R64). -/
def insW64I (op : Nat) (f : W64IF) : Ins :=
  { op := op, f := { m12 := 0, c := 0, b := 0, a := 0, d := f.d, gn := f.gn, g := f.g, st := f.st, e := f.e }, imm := f.imm,
    mod7 := f.mod7.toNat, len := 8,
    raw := BitVec.ofNat 32 (f.mod7.toNat * 2 ^ 25 + f.d.toNat * 2 ^ 16 + f.gn.toNat * 2 ^ 15 + f.g.toNat * 2 ^ 12 + op * 16
      + f.st.toNat * 8 + f.e.toNat * 4 + 3) }

/-- The instruction a decoded word stands for. -/
def insOfWords : Words → Ins
  | .c16 op f => insC16 op.toNat f
  | .w32 op f => insW32 op.toNat f
  | .w64 op f => insW64 op.toNat f
  | .w64i op f => insW64I op.toNat f

/-- TY, RM, SAT, the last-read bits and OPX of the lane layout (R57). -/
def Ins.ty (i : Ins) : Nat := i.f.m12.toNat / 256
/-- RM of the lane layout (R57). -/
def Ins.rm (i : Ins) : Nat := i.f.m12.toNat / 64 % 4
/-- SAT of the lane layout (R57). -/
def Ins.sat (i : Ins) : Bool := i.f.m12.getLsbD 5
/-- LA, LB or LC of the lane layout: bit 4, 3 or 2 (R57). -/
def Ins.last (i : Ins) (bit : Nat) : Bool := i.f.m12.getLsbD bit
/-- OPX of the lane and matrix layouts (R57, R61). -/
def Ins.opx (i : Ins) : Nat := i.f.m12.toNat % 4
/-- M12 bits [63:60]: WD or AOP (R58, R59). -/
def Ins.wd (i : Ins) : Nat := i.f.m12.toNat / 256
/-- PL (R58). -/
def Ins.pl (i : Ins) : Nat := i.f.m12.toNat / 64 % 4
/-- LAST, or FENCE's SC (R58, R283). -/
def Ins.lastBit (i : Ins) : Bool := i.f.m12.getLsbD 5
/-- SCO (R58, R59). -/
def Ins.sco (i : Ins) : Nat := i.f.m12.toNat / 4 % 8
/-- SEM (R58, R59). -/
def Ins.sem (i : Ins) : Nat := i.f.m12.toNat % 4
/-- ATY (R59). -/
def Ins.aty (i : Ins) : Nat := i.f.m12.toNat / 32 % 8
/-- SA of the matrix layout (R61). -/
def Ins.sa (i : Ins) : Nat := i.f.m12.toNat / 512
/-- SB of the matrix layout (R61). -/
def Ins.sb (i : Ins) : Nat := i.f.m12.toNat / 64 % 8
/-- TA of the matrix layout (R61). -/
def Ins.ta (i : Ins) : Bool := i.f.m12.getLsbD 5
/-- TB of the matrix layout (R61). -/
def Ins.tb (i : Ins) : Bool := i.f.m12.getLsbD 4
/-- ES of the matrix layout (R61). -/
def Ins.es (i : Ins) : Nat := i.f.m12.toNat / 4 % 4
/-- OFF22 of the control layout, signed (R60). -/
def Ins.off (i : Ins) : Int :=
  signedOf 22 (i.f.m12.toNat * 1024 + i.f.c.toNat * 2 + i.f.b.toNat / 256)
/-- JDIST of the control layout (R60). -/
def Ins.jdist (i : Ins) : Nat := i.f.b.toNat % 256
/-- The A field. -/
def Ins.a (i : Ins) : Nat := i.f.a.toNat
/-- The B field. -/
def Ins.b (i : Ins) : Nat := i.f.b.toNat
/-- The C field. -/
def Ins.c (i : Ins) : Nat := i.f.c.toNat
/-- The D field. -/
def Ins.d (i : Ins) : Nat := i.f.d.toNat
/-- M12 as a number. -/
def Ins.m12 (i : Ins) : Nat := i.f.m12.toNat

/-- Whether a TY code has 64-bit values (R55). -/
def ty64 (t : Nat) : Bool := t == 9 || t == 10 || t == 11

/-- The access width in bytes of a WD code (R140). -/
def wdBytes : Nat → Nat
  | 0 => 1 | 1 => 1 | 2 => 2 | 3 => 2 | 4 => 4 | 5 => 8 | _ => 16

/-- Registers a value of the instruction's type fills (R55, R140, R147). -/
def Ins.width (i : Ins) : Nat :=
  if i.op < 0x80 ∨ (0xB0 ≤ i.op ∧ i.op < 0xC0) then if ty64 i.ty then 2 else 1
  else if 0x97 ≤ i.op ∧ i.op ≤ 0x9A then if i.aty = 2 ∨ i.aty = 3 ∨ i.aty = 5 then 2 else 1
  else if 0x90 ≤ i.op ∧ i.op < 0xA0 then if i.wd = 5 then 2 else if i.wd = 6 then 4 else 1
  else 1

/-- Registers an operand of a kind names. -/
def Ins.count (i : Ins) (k : K) : Nat :=
  match k with
  | .reg _ _ _ 0 => i.width
  | .reg _ _ _ 9 => if i.wd = 7 then 2 * i.width else i.width
  | .reg _ _ _ n => n
  | _ => 0

/-- What the checks read of the issuing group: its budgets and whether its split runs a handler. -/
structure Bounds where
  budG : Nat
  budM : Nat
  budC : Nat
  handler : Bool
  mode1 : Bool := false
deriving DecidableEq, Repr

/-- Whether an operand value is one its kind accepts (R55, R56, R189, R193). -/
def Ins.operandOk (i : Ins) (bd : Bounds) (k : K) (v : Nat) : Bool :=
  match k with
  | .zero => true
  | .lim n => decide (v ≤ n)
  | .between lo hi => decide (lo ≤ v) && decide (v ≤ hi)
  | .predOrNone => decide (v ≤ 7) || v == 288
  | .tile => decide (v ≤ 15) && decide (v < bd.budM)
  | .acc => decide (v ≤ 7) && decide (v < bd.budC)
  | .reg va ga za _ =>
    let n := i.count k
    if v = 288 then za
    else if v < 128 then va && v % n == 0 && (!bd.handler || decide (v + n ≤ 16))
    else if v < 288 then ga && (v - 128) % n == 0 && decide (v - 128 + n ≤ (if bd.handler then 16 else bd.budG))
    else false

/-- The M12 bits that must be 0 and fault ILLEGAL_OPCODE when they are not (R61, R62, R63, R170, R186, R197, R215, R219,
R296, R304, R341, R396). -/
def Ins.m12Zero (i : Ins) : Nat :=
  match i.op with
  | 0xC0 => 0x1C0 | 0xC1 => 0x1FF | 0xC2 => if i.m12 / 2048 = 1 then 0x7FC else 0x7FF
  | 0xC5 => 0x1F0 | 0xC6 => 0xFFF | 0xC7 => 0xFFF | 0xC8 => 0xFFF | 0xC9 => 0xFFF
  | 0xCA => 0xF00 | 0xCB => 0xFFF | 0xCC => 0xFFC | 0xCD => 0xFFC | 0xCE => 0x0FF | 0xCF => 0xFFF
  | 0xD0 => 0xFFC | 0xD1 => 0xFFC | 0xD2 => 0xFFC | 0xD3 => 0xFFC | 0xD4 => 0xFFC | 0xD5 => 0xFFC
  | 0xD9 => 0xFF0 | 0xDA => 0xFFC | 0xDB => 0xFF0 | 0xDC => 0xFF0 | 0xDD => 0xFF0 | 0xDE => if i.opx = 3 then 0xFFC else 0xFFF
  | 0xDF => 0xFFC
  | 0xE0 => 0x0FF | 0xE1 => 0x23F | 0xEB => 0x0FF
  | _ => 0

/-- The kinds of the four operands, with what OPX or a mode makes of them. -/
def Ins.kinds (i : Ins) (o : OpInfo) : K × K × K × K :=
  match i.op with
  | 0x6B => (o.d, o.a, if i.opx = 1 then .zero else o.b, o.c)
  | 0x66 => (if i.opx = 1 then .zero else o.d, if i.opx = 0 then .zero else o.a, o.b, o.c)
  | 0x60 => (.reg true false true (if ty64 i.ty || (i.ty == 6 && (i.c == 7 || i.c == 8)) then 2 else 1),
      .reg true true true (if ty64 i.c || (i.c == 6 && (i.ty == 7 || i.ty == 8)) then 2 else 1), o.b, o.c)
  | 0xC1 => (o.d, if i.m12 / 512 = 1 then .zero else o.a, o.b, o.c)
  | 0xC2 => (o.d, if i.m12 / 2048 = 1 then .zero else o.a, o.b, o.c)
  | 0xC5 => (o.d, if 4 ≤ i.m12 / 512 then o.a else .lim 0, o.b, o.c)
  | 0xCE => (o.d, if i.m12 / 1024 = 1 then .zero else o.a, o.b, o.c)
  | 0xD5 => (o.d, if i.opx = 0 then kgpz else o.a, o.b, o.c)
  | 0xDA => (o.d, if i.opx = 1 then .zero else o.a, if i.opx = 0 then .zero else o.b, o.c)
  | 0xDF => (o.d, if i.opx = 2 then .zero else o.a, o.b, o.c)
  | 0xE0 => (o.d, o.a, if i.m12 / 1024 = 2 then o.b else .zero, o.c)
  | 0xE1 => (o.d, o.a, if i.m12 / 1024 = 2 then o.b else .zero, if i.m12 / 64 % 4 = 3 then kgpz else o.c)
  | _ => (o.d, o.a, o.b, o.c)

/-- ILLEGAL_OPCODE: a reserved op8, a reserved field that is not 0, or an operation a handler may not use (R51, R56, R60,
R61, R65, R69, R193). -/
def Ins.opcodeBad (i : Ins) (o : OpInfo) (handler : Bool) : Bool :=
  let (kd, ka, kb, kc) := i.kinds o
  let z (k : K) (v : Nat) : Bool := k == .zero && v != 0
  (i.bad == some .illegalOpcode)
  || (match o.lay with
      | .imm => (match i.op with
          | 0xF2 => i.mod7 / 2 != 0 | 0xF4 => false | 0xF5 => i.mod7.testBit 2 | _ => i.mod7 != 0)
      | .ctrl => z kd i.d || z ka i.a || (!(0x80 ≤ i.op && i.op ≤ 0x84) && i.op != 0x86 && i.op != 0x8B && i.off != 0)
      | _ => z kd i.d || z ka i.a || z kb i.b || z kc i.c)
  || (i.m12 &&& i.m12Zero != 0)
  || (handler && (decide (0xD0 ≤ i.op ∧ i.op < 0xF0) ||
      [0x6C, 0xC0, 0xC1, 0xC2, 0xC3, 0xC4, 0xC5, 0xC6, 0xC7, 0xC8, 0xC9].contains i.op))

/-- PRIV: a handler instruction outside a handler (R68). -/
def Ins.privBad (i : Ins) (handler : Bool) : Bool := !handler && [0xCB, 0xCC, 0xCD, 0xCE].contains i.op

/-- The lane layout's ILLEGAL_OPERAND conditions (R57, R106). -/
def Ins.laneBad (i : Ins) (o : OpInfo) : Bool :=
  let la (bit v : Nat) (k : K) : Bool := i.last bit && !(match k with | .reg true _ _ _ => decide (v < 128) | _ => false)
  let (_, ka, kb, kc) := i.kinds o
  !o.tys.contains i.ty || !o.opx.contains i.opx
  || (i.rm != 0 && !o.rm) || (i.sat && !o.sat)
  || la 4 i.a ka || la 3 i.b kb || la 2 i.c kc
  || (match i.op with
      | 0x60 =>
        let int (t : Nat) : Bool := t == 0 || t == 1 || t == 10 || t == 11
        let fl (t : Nat) : Bool := t == 6 || t == 9
        let h (t : Nat) : Bool := t == 7 || t == 8
        i.ty == i.c || (i.sat && !(int i.ty && int i.c))
        || !((int i.ty && int i.c) || (int i.c && fl i.ty) || (fl i.c && fl i.ty) || (fl i.c && int i.ty)
             || (i.c == 6 && h i.ty) || (h i.c && i.ty == 6) || (h i.c && h i.ty))
      | 0x68 => (i.ty == 10 && i.a != 17 && i.a != 18) || (i.opx == 1 && i.a != 20)
      | 0x6C => i.m12 != 0
      | 0x71 | 0x72 => (decide (3 ≤ i.c) && (i.ty == 6 || i.ty == 9)) || (i.rm != 0 && !(i.c == 0 && (i.ty == 6 || i.ty == 9)))
      | _ => false)

/-- Whether an operation only reads, and whether it writes, memory (R58). -/
def Ins.reads (i : Ins) : Bool := [0x90, 0x92, 0x94, 0x9E].contains i.op
/-- An operation that writes memory and reads none of it (R58). -/
def Ins.writes (i : Ins) : Bool := [0x91, 0x93, 0x95, 0x9F].contains i.op

/-- The memory layout's ILLEGAL_OPERAND conditions (R58, R138, R283). -/
def Ins.memBad (i : Ins) : Bool :=
  decide (7 ≤ i.wd) || i.pl == 3
  || (i.sco == 0 && i.sem != 0)
  || ((i.wd == 1 || i.wd == 3) && i.writes)
  || (i.sem == 1 && i.writes) || (i.sem == 2 && i.reads)
  || (i.sem == 3 && i.op != 0x9B)
  || (i.sco == 7 && (i.reads || (i.op != 0x91 && i.op != 0x9F && i.op != 0x9B)))
  || (match i.op with
      | 0x91 | 0x9F => i.lastBit
      | 0x92 | 0x93 => i.pl != 0 || i.lastBit || decide (4 ≤ i.sco)
      | 0x94 | 0x95 => i.wd != 4 || decide (2 ≤ i.pl) || i.lastBit || decide (4 ≤ i.sco)
      | 0x96 => i.wd != 4 || decide (2 ≤ i.pl) || i.lastBit || i.sco != 0
      | 0x9B => i.wd != 4 || i.pl != 0 || i.sem == 0 || i.sco == 0 || i.sco == 7 || (i.lastBit && i.sem != 3)
      | 0x9C => i.wd != 4 || decide (2 ≤ i.pl) || i.lastBit || i.sco != 0
      | 0x9D => i.wd != 4 || i.pl != 0 || i.sco != 0
      | _ => false)

/-- The atomic layout's ILLEGAL_OPERAND conditions (R59, R138). -/
def Ins.atomBad (i : Ins) : Bool :=
  decide (10 ≤ i.wd) || i.aty == 7 || i.sco == 0 || i.sco == 7
  || (decide (4 ≤ i.aty) && [3, 4, 5, 8, 9].contains i.wd)
  || (i.op == 0x98 && decide (4 ≤ i.sco))
  || ((i.op == 0x99 || i.op == 0x9A) && (i.wd == 7 || i.sem == 1 || i.sem == 3))
  || (i.op == 0x9A && [6, 8, 9].contains i.wd)

/-- The matrix layout's ILLEGAL_OPERAND conditions (R61, R231, R250). -/
def Ins.matBad (i : Ins) (o : OpInfo) : Bool :=
  !o.opx.contains i.opx
  || ([0xD6, 0xD7, 0xD8, 0xD9, 0xDB, 0xDC, 0xDD].contains i.op && i.es == 3)
  || (i.op == 0xD7 && i.ta)

/-- The core and engine layouts' ILLEGAL_OPERAND conditions (R62, R63, R177, R186, R197, R215, R296, R304, R397). -/
def Ins.coreBad (i : Ins) : Bool :=
  match i.op with
  | 0xC0 => decide (6 ≤ i.m12 / 512)
  | 0xC1 => decide (2 ≤ i.m12 / 512)
  | 0xC3 | 0xC4 => i.m12 == 0 || decide (256 ≤ i.m12) || decide (128 < i.m12)
  | 0xC5 => i.m12 / 512 == 0 || decide (6 ≤ i.m12 / 512)
  | 0xCD => decide (2 ≤ i.opx) || (i.d == 4 && i.opx != 0)
  | 0xCE => decide (2 ≤ i.m12 / 1024)
  | 0xE0 | 0xE1 => i.m12 / 1024 == 3
  | 0xEB => i.m12 / 1024 == 3 || (i.m12 / 1024 == 2 && i.m12 / 256 % 4 != 0)
  | _ => decide (0xE2 ≤ i.op ∧ i.op ≤ 0xED) && i.m12 != 0

/-- ILLEGAL_OPERAND among the encoding checks (R54 to R65, R69, R70). -/
def Ins.operandBad (i : Ins) (o : OpInfo) (bd : Bounds) : Bool :=
  let (kd, ka, kb, kc) := i.kinds o
  (i.bad == some .illegalOperand)
  || (i.f.g.toNat == 7 && i.f.gn.toNat == 1) || (!o.guarded && i.f.g.toNat != 7)
  || !i.operandOk bd kd i.d || !i.operandOk bd ka i.a
  || (o.lay != .ctrl && (!i.operandOk bd kb i.b || !i.operandOk bd kc i.c))
  || (match o.lay with
      | .lane => i.laneBad o
      | .mem => i.memBad
      | .atom => i.atomBad
      | .ctrl => i.jdist != 0 && i.op != 0x80
      | .mat => i.matBad o
      | .core => i.coreBad
      | .eng => i.coreBad
      | .imm => (i.op == 0xF4 || i.op == 0xF5) && decide (10 ≤ i.mod7 / 8))

/-- The encoding checks of steps 1 to 3 in their order (R70). -/
def Ins.check (i : Ins) (bd : Bounds) : Option Cause :=
  match opInfo i.op with
  | none => some .illegalOpcode
  | some o =>
    if i.opcodeBad o bd.handler then some .illegalOpcode
    else if i.privBad bd.handler then some .priv
    else if i.operandBad o bd then some .illegalOperand
    else none

/-- The register codes an operand of a kind names. -/
def Ins.codes (i : Ins) (k : K) (v : Nat) : List Nat :=
  match k with
  | .reg _ _ _ _ => if v < 288 then (List.range (i.count k)).map (v + ·) else []
  | _ => []

/-- Whether D is read as well as, or instead of, written (R65, R100, R125). -/
def Ins.readsD (i : Ins) : Bool := [0x61, 0x8B, 0xF2, 0xF3, 0xF4, 0xF5, 0xF6].contains i.op
/-- Whether D is written. -/
def Ins.writesD (i : Ins) : Bool := i.op != 0xF4 && i.op != 0xF5

/-- The registers an instruction reads, with the operand field each stands in; VFREE reads none (R182). -/
def Ins.srcs (i : Ins) : List Nat :=
  if i.op = 0x6C then [] else
  match opInfo i.op with
  | none => []
  | some o =>
    let (kd, ka, kb, kc) := i.kinds o
    (if i.readsD then i.codes kd i.d else []) ++ i.codes ka i.a ++
      (if o.lay == .ctrl then [] else i.codes kb i.b ++ (if i.op == 0xC6 || i.op == 0xC7 || i.op == 0xC8 then [] else i.codes kc i.c))

/-- The destination registers an instruction writes. -/
def Ins.dsts (i : Ins) : List Nat :=
  match opInfo i.op with
  | none => []
  | some o =>
    let (kd, _, _, kc) := i.kinds o
    (if i.writesD then i.codes kd i.d else []) ++ (if 0xC6 ≤ i.op ∧ i.op ≤ 0xC8 then i.codes kc i.c else [])

end Sys2Proof.Machine
end

