-- ==== Sys2Proof/Machine/Operands.lean ====
section
/-! DEFINITION. The issuing split and instruction, every operand form, the name map, and how an operation issues: checks,
effect, advance (R54, R55, R70, R104, R178 to R185, R193). -/

namespace Sys2Proof.Machine

/-- An instruction as a split issues it: where, which lanes are active and which execute (R93). -/
structure Iss where
  gid : Nat
  slot : Nat
  core : Nat
  part : Nat
  pc : CodeAddr
  ins : Ins
  active : Mask
  exec : Mask
  handler : Bool
deriving DecidableEq, Repr

/-- The registers an issuing split names: its group's, or the handler bank (R193). -/
structure Regs where
  handler : Bool
  g : Group
  b : Bank

/-- The value of a lane register in a lane; an unmapped name reads 0 (R179). -/
def Regs.v (r : Regs) (n lane : Nat) : Word :=
  if r.handler then (r.b.v.getD n []).lane lane
  else match r.g.name? n with
    | some e => e.val.lane lane
    | none => 0
/-- A uniform register. -/
def Regs.u (r : Regs) (n : Nat) : Word := if r.handler then r.b.g.getD n 0 else r.g.g.getD n 0
/-- X(f, i): an operand's 32-bit value in a lane (R104). -/
def Regs.x (r : Regs) (code lane : Nat) : Word :=
  if code < 128 then r.v code lane else if code < 288 then r.u (code - 128) else 0
/-- The value of `n` consecutive registers in a lane, lowest first (R55). -/
def Regs.xs (r : Regs) (code n lane : Nat) : Nat :=
  if code = 288 then 0 else (List.range n).foldr (fun k acc => (r.x (code + k) lane).toNat + 2 ^ 32 * acc) 0
/-- PRED(a, i): p0 to p6, p7 = 1, q0 to q3 (R93, R178). -/
def Regs.pred (r : Regs) (code lane : Nat) : Bool :=
  if code < 7 then (if r.handler then r.b.p.getD code 0 else r.g.p.getD code 0).getLsbD lane
  else if code = 7 then true
  else (if r.handler then r.b.q else r.g.q).getLsbD (code - 8)

/-- The registers of an issuing split. -/
def State.regs (s : State) (i : Iss) : Regs :=
  { handler := i.handler, g := s.group i.gid, b := (s.part i.core i.part).bank }

/-- An instruction as the split of a slot issues it (R93, R193, R302). -/
def State.issAt (s : State) (gid slot : Nat) (ins : Ins) : Iss :=
  let g := s.group gid
  let x := g.slot slot
  let h := x.mode == .handler
  let regs : Regs := { handler := h, g := g, b := (s.part g.core g.part).bank }
  let guard := Mask.ofFn fun l => ins.f.g.toNat == 7 || (regs.pred ins.f.g.toNat l != (ins.f.gn.toNat == 1))
  { gid := gid, slot := slot, core := g.core, part := g.part, pc := x.spc, ins := ins, active := x.amask,
    exec := x.amask &&& guard &&& (x.replay.getD (BitVec.allOnes 32)), handler := h }

/-- The split the partition in focus is issuing, with an instruction: none when no split issues there. -/
def State.issuer (s : State) (ins : Ins) : Option Iss :=
  match (s.part s.focus.1 s.focus.2).run with
  | none => none
  | some r =>
    let x := (s.group r.gid).slot r.slot
    if r.ended || !x.valid || x.amask == 0 then none else some (s.issAt r.gid r.slot ins)

/-- The lowest physical register of a partition's pool that no group holds (R178). -/
def State.freePhys (s : State) (core part : Nat) : Nat :=
  let used := s.groups.flatMap fun p => if p.2.core = core ∧ p.2.part = part then p.2.names.map (·.2.phys) else []
  ((List.range 256).find? fun n => !used.contains n).getD 0

/-- Maps a name: a register is taken, cleared, and live in no lane (R179 step 1). -/
def State.mapName (s : State) (i : Iss) (n : Nat) : State :=
  match (s.group i.gid).name? n with
  | some _ => s
  | none => s.modGroup i.gid fun g =>
      { g with names := g.names.set n { phys := s.freePhys i.core i.part, live := 0, val := List.replicate 32 0 } }

/-- A write replaces the words of a register in these lanes, errors included (R314). -/
def State.cleanReg (s : State) (i : Iss) (code : Nat) (lanes : Mask) : State :=
  if i.handler then s.modPart i.core i.part fun p =>
    { p with bankBad := p.bankBad.filter fun k => !(k / 32 == code && lanes.getLsbD (k % 32)) }
  else s.modGroup i.gid fun g => { g with regBad := g.regBad.filter fun k => !(k.1 == code && lanes.getLsbD k.2) }

/-- Writes a name: it is mapped, live in the split's active lanes, and the executing lanes receive the value (R179). In
handler mode the name is the bank's (R193). -/
def State.writeV (s : State) (i : Iss) (n : Nat) (val : Nat → Word) : State :=
  if n ≥ 128 then s
  else if i.handler then (s.cleanReg i n i.exec).modPart i.core i.part fun p => { p with
    bank := { p.bank with v := setAt [] p.bank.v n (Vec.ofFn fun l =>
      if i.exec.getLsbD l then val l else (p.bank.v.getD n []).lane l) } }
  else ((s.cleanReg i n i.exec).mapName i n).modGroup i.gid fun g => match g.name? n with
    | none => g
    | some e => { g with names := g.names.set n { e with
        live := e.live ||| i.active
        val := Vec.ofFn fun l => if i.exec.getLsbD l then val l else e.val.lane l } }
/-- Writes a uniform register; 288 discards (R55). -/
def State.writeU (s : State) (i : Iss) (code : Nat) (w : Word) : State :=
  if code < 128 ∨ 288 ≤ code then s
  else if i.handler then (s.cleanReg i code 1).modPart i.core i.part fun p => { p with bank := { p.bank with g := setAt 0 p.bank.g (code - 128) w } }
  else (s.cleanReg i code 1).modGroup i.gid fun g => { g with g := setAt 0 g.g (code - 128) w }
/-- Writes consecutive uniform registers, lowest word first. -/
def State.writeUs (s : State) (i : Iss) (code n v : Nat) : State :=
  if code = 288 then s
  else (List.range n).foldl (fun s k => s.writeU i (code + k) (BitVec.ofNat 32 (v >>> (32 * k)))) s
/-- Writes a lane predicate in the executing lanes; p7 discards (R56). -/
def State.writeP (s : State) (i : Iss) (n : Nat) (val : Nat → Bool) : State :=
  if n ≥ 7 then s
  else
    let upd (old : Mask) : Mask := Mask.ofFn fun l => if i.exec.getLsbD l then val l else old.getLsbD l
    if i.handler then s.modPart i.core i.part fun p => { p with bank := { p.bank with p := setAt 0 p.bank.p n (upd (p.bank.p.getD n 0)) } }
    else s.modGroup i.gid fun g => { g with p := setAt 0 g.p n (upd (g.p.getD n 0)) }
/-- Writes a uniform predicate, code 8 to 11 (R56). -/
def State.writeQ (s : State) (i : Iss) (code : Nat) (v : Bool) : State :=
  let upd (q : BitVec 4) : BitVec 4 :=
    BitVec.ofNat 4 ((List.range 4).foldr (fun k acc => (if k = code - 8 then v else q.getLsbD k).toNat + 2 * acc) 0)
  if i.handler then s.modPart i.core i.part fun p => { p with bank := { p.bank with q := upd p.bank.q } }
  else s.modGroup i.gid fun g => { g with q := upd g.q }
/-- Raises flags for an issuing split; a handler's flags are discarded (R43, R193). -/
def State.flags (s : State) (i : Iss) (f : Flags) : State := if i.handler then s else s.orFlags i.gid f

/-- A name with an uncommitted register-targeted load pending is never freed (R181). -/
def Group.loadPending (g : Group) (n : Nat) : Bool :=
  g.loads.any fun l => !l.uni && !l.handler && l.lanes != 0 && decide (l.dst ≤ n) && decide (n < l.dst + l.n)
/-- Step 3 of R180 on one name. -/
def Group.freeName (g : Group) (n : Nat) : Group :=
  match g.name? n with
  | none => g
  | some e => if e.live &&& g.liveLanes == 0 && !g.loadPending n then { g with names := g.names.erase n } else g
/-- Clears lanes of a name's LIVE mask and applies step 3 (R180). -/
def Group.unlive (g : Group) (n : Nat) (lanes : Mask) : Group :=
  match g.name? n with
  | none => g
  | some e => ({ g with names := g.names.set n { e with live := e.live &&& ~~~lanes } } : Group).freeName n

/-- The names an instruction reads for the last time and does not write: one that it writes as well stays mapped (R57, R180). -/
def Ins.lastNames (i : Ins) : List Nat :=
  match opInfo i.op with
  | none => []
  | some o => if o.lay != .lane then [] else
    let (_, ka, kb, kc) := i.kinds o
    let pick (bit : Nat) (k : K) (v : Nat) : List Nat := if i.last bit && decide (v < 128) then i.codes k v else []
    (pick 4 ka i.a ++ pick 3 kb i.b ++ pick 2 kc i.c).dedup.filter fun n => !i.dsts.contains n
/-- Last-read bits clear LIVE bits of the active lanes, then names with none left free (R180 steps 2 and 3). -/
def State.lastReads (s : State) (i : Iss) : State :=
  if i.handler then s
  else s.modGroup i.gid fun g => i.ins.lastNames.foldl (fun g n => g.unlive n i.active) g
/-- A MOV of a register or pair to itself without a last-read bit neither maps nor writes (R179). -/
def Ins.selfMove (i : Ins) : Bool := i.op == 0x69 && i.a == i.d && !i.last 4
/-- Whether writing these names would raise the footprint above the cap, after the last reads have freed theirs (R180,
R185). -/
def State.overCap (s : State) (i : Iss) (names : List Nat) : Bool :=
  if i.handler || i.ins.selfMove then false
  else
    let g := (s.lastReads i).group i.gid
    let fresh := (names.filter fun n => decide (n < 128) && (g.name? n).isNone).dedup
    !fresh.isEmpty && decide (g.footprint + fresh.length > g.cap)

/-- What the effect of an issued operation is: done, or a control transfer whose lanes have moved, a trap after the lanes
that completed, or nothing yet because the instruction must wait as the first of a new run (R156, R157). -/
inductive Eff where
  | done (s : State)
  | moved (s : State)
  | trap (t : Trap) (s : State)
  | wait (s : State)

/-- A trap whose lanes are the active mask (R70). -/
def Iss.trap (i : Iss) (c : Cause) (addr : Dword) : Trap :=
  { cause := c, pc := i.pc, addr := addr, lanes := i.active, info := i.ins.raw, rpl := false }
/-- A trap for an encoding or format fault: TADDR is the instruction's address (R70). -/
def Iss.fault (i : Iss) (c : Cause) : Trap := i.trap c (i.pc.setWidth 64)

/-- The bounds the checks read. -/
def State.bounds (s : State) (i : Iss) : Bounds :=
  let g := s.group i.gid
  { budG := g.budG, budM := g.budM, budC := g.budC, handler := i.handler }

/-- A format slot of the block (R28). -/
def State.fmtSlot (s : State) (gid k : Nat) : Word := (s.block (s.group gid).blk).fmts.getD k 0
/-- FMT of a slot word. -/
def slotFmt (w : Word) : Nat := w.toNat % 16
/-- SCALE of a slot word. -/
def slotScale (w : Word) : Nat := w.toNat / 16 % 4
/-- SAT of a slot word. -/
def slotSat (w : Word) : Bool := w.getLsbD 6
/-- SR of a slot word. -/
def slotSr (w : Word) : Bool := w.getLsbD 7
/-- The format of a slot word that passes R29. -/
def slotFormat (w : Word) : Fmt := (Fmt.ofCode (slotFmt w)).getD .fp32
/-- R29: whether a slot passes. -/
def slotOk (w : Word) : Bool :=
  decide (w.toNat < 256) && decide (slotFmt w ≤ 10) && slotScale w != 3
    && (slotScale w == 0 || !([0, 1, 2, 9, 10].contains (slotFmt w)))

/-- The word of a register that carries an error a check detects (R314): group registers by name and lane. -/
def State.badWord (s : State) (i : Iss) (code lane : Nat) : Bool :=
  if i.handler then (s.part i.core i.part).bankBad.contains (code * 32 + lane)
  else (s.group i.gid).regBad.contains (code, lane)

/-- The registers an issuing instruction reads: B of SPRS only for 16-bit formats (R127), the plane address of MLD and MST only
under block scales (R209), of the descriptor of BFILL no source (R305). MDRN reads both words of its pair, whatever the scale of its slot
(log 128, DEDUCED). -/
def State.reads (s : State) (i : Iss) : List Nat :=
  match i.ins.op with
  | 0x63 => if (slotFormat (s.fmtSlot i.gid i.ins.c)).width = 16 then i.ins.srcs else i.ins.codes kx1 i.ins.a
  | 0xD0 | 0xD1 =>
    let t := (s.group i.gid).tiles.getD i.ins.d {}
    if slotScale (s.fmtSlot i.gid t.slot) = 2 then i.ins.srcs else i.ins.codes kgo i.ins.a ++ i.ins.codes kgo i.ins.b ++ [i.ins.c]
  | 0xE1 => [2, 3, 4, 5, 7].map (i.ins.a + ·) ++ (if i.ins.m12 / 1024 = 2 then [i.ins.b + 1] else []) ++
      i.ins.codes (if i.ins.m12 / 64 % 4 = 3 then kgp else kg) i.ins.c
  | _ => i.ins.srcs
/-- A source register whose word fails its check: its code and the lanes with bad words (R314). An instruction that no lane
executes reads none. -/
def State.badSource (s : State) (i : Iss) : Option (Nat × Mask) :=
  let lanesOf (c : Nat) : Mask := Mask.ofFn fun l =>
    if c < 128 then i.exec.getLsbD l && s.badWord i c l else i.exec != 0 && i.active.getLsbD l && s.badWord i c 0
  (s.reads i).findSome? fun c => if lanesOf c = 0 then none else some (c, lanesOf c)
/-- The trap of a check of a format slot, which comes before the reading of registers (R70, R125 to R127). -/
def Eff.slotFault (i : Iss) : Eff → Option Trap
  | .trap t _ => if t.cause = .formatSlot ∨ (t.cause = .illegalOperand ∧ 0x61 ≤ i.ins.op ∧ i.ins.op ≤ 0x63) then some t else none
  | _ => none

/-- After an operation issues: the lanes and the split stand at the next instruction, the replay restriction ends, and
the run ends at E = 1 (R156). -/
def State.advance (s : State) (i : Iss) : State :=
  let s1 := s.modGroup i.gid fun g => (g.moveSplit i.slot i.active (i.pc + BitVec.ofNat 56 i.ins.len)).modSlot i.slot fun x =>
    { x with replay := none, mark := none, claim := .none, nstall := 0, stallAt := none, fedone := false, fesent := none, fearr := false }
  if i.ins.f.e.toNat = 1 then s1.endRun i.gid i.slot false else s1

/-- A control transfer has placed the lanes: the run ends (R93). -/
def State.transferred (s : State) (i : Iss) : State :=
  (s.modGroup i.gid fun g => g.modSlot i.slot fun x =>
    { x with replay := none, mark := none, claim := .none, nstall := 0, stallAt := none, fedone := false, fesent := none, fearr := false }).endRun i.gid i.slot false

/-- What an effect makes of the state. -/
def Eff.settle (i : Iss) : Eff → State
  | .done s => s.advance i
  | .moved s => s.transferred i
  | .trap t s => s.raise i.gid i.slot t
  | .wait s => s.endRun i.gid i.slot true

/-- Whether a settle point of this split commits a load: one of its lanes, or one that targets uniform registers, among
those of its own set (R159, R160, R162). The load of a LDFE that has still to issue is none of the earlier ones (R202). -/
def PLoad.covers (l : PLoad) (handler : Bool) (active : Mask) : Bool :=
  l.handler == handler && !l.early && (l.uni || l.lanes &&& active != 0)
/-- Whether an instruction is a settle point with results still to be committed (R159). -/
def State.unsettled (s : State) (i : Iss) : Bool :=
  i.ins.f.st.toNat == 1 && (s.group i.gid).loads.any fun l => l.covers i.handler i.active

/-- The loads a settle point of a split commits, in issue order (R159, R160). -/
def Group.settling (g : Group) (handler : Bool) (active : Mask) : List PLoad := g.loads.filter fun l => l.covers handler active
/-- Whether what a settle point waits for has returned (R159). It orders the reads it commits before what follows, also where R289 calls an
outcome of relaxed readers allowed that this order forbids (log 132, DEDUCED). -/
def Group.settleReady (g : Group) (handler : Bool) (active : Mask) : Bool :=
  (g.settling handler active).all fun l => if l.uni then l.got != 0 else l.lanes &&& active &&& ~~~l.got == 0

/-- The issuing place of a settle point, with the lanes that execute set to those committed. -/
def Iss.lanesAs (i : Iss) (m : Mask) : Iss := { i with active := m, exec := m }
/-- Commits one load for the active lanes (R159, R161). -/
def State.commitLoad (s : State) (i : Iss) (l : PLoad) : State :=
  if l.uni then
    let s1 := if l.bad ≠ 0 then s else
      l.vals.foldl (fun s w => (w.2.mapIdx fun k v => (k, v)).foldl (fun s x => s.writeU i (w.1 + x.1) x.2) s) s
    s1.modGroup i.gid fun g => { g with loads := g.loads.filter fun x => x.seq != l.seq }
  else
    let m := l.lanes &&& i.active
    let good := m &&& ~~~l.bad
    let word (k lane : Nat) : Word := ((Tbl.getD l.vals lane []).getD k 0)
    let s1 := if l.dst = 288 ∨ good = 0 then s else
      (List.range l.n).foldl (fun s k => s.writeV (i.lanesAs good) (l.dst + k) (word k)) s
    let owe (x : PLoad) : PLoad := if x.seq = l.seq then { x with lanes := x.lanes &&& ~~~m } else x
    let s2 := s1.modGroup i.gid fun g =>
      { g with loads := (g.loads.map owe).filter fun x => x.seq != l.seq || x.lanes != 0 }
    if l.handler || l.dst = 288 then s2
    else s2.modGroup i.gid fun g => (List.range l.n).foldl (fun g k => g.freeName (l.dst + k)) g
/-- What a settle point reports (R151): the lanes with bad data and the lowest one's address. Where a GLD and lanes of a lane load are bad
at once, the lane loads give both (log 125, DESIGN CHOICE). -/
def settleBad (ls : List PLoad) (active : Mask) : Option (Mask × Dword) :=
  let uni := ls.find? fun l => l.uni && l.bad != 0
  let bad : Mask := ls.foldl (fun m l => if l.uni then m else m ||| (l.bad &&& active &&& l.lanes)) 0
  match bad.lowest with
  | some k => some (bad, ((ls.findSome? fun l => if !l.uni && l.bad.getLsbD k && l.lanes.getLsbD k then some (Tbl.getD l.addrs k 0) else none)).getD 0)
  | none => uni.map fun l => (active, Tbl.getD l.addrs 0 0)
/-- Commits what a settle point waits for, and traps DATA_ERROR for what failed its checks (R151, R159, R161). -/
def State.settle (s : State) (i : Iss) : State × Option Trap :=
  let ls := (s.group i.gid).settling i.handler i.active
  (ls.foldl (fun s l => s.commitLoad i l) s,
    (settleBad ls i.active).map fun b => { i.trap .dataError b.2 with lanes := b.1 })

/-- The uncommitted loads of the set a split uses (R160, R162). -/
def State.loadCount (s : State) (i : Iss) : Nat := ((s.group i.gid).loads.filter fun l => l.handler == i.handler).length

/-- What an operation whose loads are committed leaves: the encoding checks come in their order (R70), then a bad source word,
after the checks of format slots (R70, R314), and then the effect. A bad source word of FESET, PREF and DROP traps too (log 124,
DEDUCED); that of MDRN comes before the checks of its tile and its origin (log 127, DESIGN CHOICE). -/
def State.checked (s : State) (i : Iss) (eff : Iss → State → Eff) : State :=
  match i.ins.check (s.bounds i) with
  | some c => s.raise i.gid i.slot (i.fault c)
  | none =>
    match s.badSource i with
    | some (code, lanes) => s.raise i.gid i.slot
        (((eff i s).slotFault i).getD { i.trap .dataError (BitVec.ofNat 64 code) with lanes := lanes })
    | none => (eff i s).settle i
/-- A settle point whose loads have returned commits them, traps for what failed its checks, and issues (R159, R161). -/
def State.committed (s : State) (i : Iss) (eff : Iss → State → Eff) : State :=
  match s.settle i with
  | (s1, some t) => s1.raise i.gid i.slot t
  | (s1, none) => s1.checked i eff
/-- The state an issued operation leaves: a settle point waits for its loads and commits them first (R159). -/
def State.issued (s : State) (i : Iss) (eff : Iss → State → Eff) : State :=
  if !s.unsettled i then s.checked i eff
  else if (s.group i.gid).settleReady i.handler i.active then s.committed i eff
  else s.endRun i.gid i.slot true

/-- Issues an operation in the split of the partition in focus; without one there is no meaning. -/
def issue (ins : Ins) (eff : Iss → State → Eff) (s : State) : Host.Outcome State Fault Refusal :=
  match s.issuer ins with
  | none => .fault .noSplit
  | some i => .next (s.issued i eff)

/-- An event that comes about only when its condition holds. -/
def event (name : String) (enabled : Bool) (s : State) : Host.Outcome State Fault Refusal :=
  if enabled then .next s else .refused (.notEnabled name)

end Sys2Proof.Machine
end

