-- ==== Sys2Proof/Machine/Splits.lean ====
section
/-! DEFINITION. Splits: exit, join records, merging, freeing and binding (R82 to R89). -/

namespace Sys2Proof.Machine

/-- A split that keeps its slot and its lanes: it is suspended, has a trap pending, or has a replay, REDO answers or the issue of
a LDFE or STFE that is done outstanding (R193, R202, R286, R302). -/
def Slot.pinned (x : Slot) : Bool :=
  x.mode == .suspended || x.mode == .pending || x.replay.isSome || !x.redo.isEmpty || x.redoAt.isSome || x.fedone
/-- Whether a slot's split stands between runs and may merge, wait or free its slot; `busy` is the slot of a run under way. -/
def Group.still (g : Group) (busy : Option Nat) (k : Nat) : Bool :=
  (g.slot k).valid && !(g.slot k).pinned && busy != some k

/-- Lanes leave every join set they belong to (R87, R98). -/
def Group.leaveJoins (g : Group) (m : Mask) : Group :=
  let g1 := g.modLanes m fun _ l => { l with jid := none }
  { g1 with joins := g.joins.map fun (j : Join) => { j with jset := j.jset &&& ~~~m } }

/-- Lanes become bindable parked lanes at an address (R86). Lanes parked within one boundary have been parked equally long (R88). -/
def Group.park (g : Group) (m : Mask) (pc : CodeAddr) : Group :=
  g.modLanes m fun _ l => { l with lst := .parked, lpc := pc, passed := 0, parkedAt := g.stamp }

/-- Lanes exit: they leave joins, live masks and loads that have returned; one still outstanding is discarded as it returns (R98,
R180). -/
def Group.exitLanes (g : Group) (m : Mask) : Group :=
  let g1 := (g.modLanes m fun _ l => { l with lst := .exited, bar := none }).leaveJoins m
  let ls := g1.loads.map fun (l : PLoad) => if l.uni then l else { l with lanes := l.lanes &&& ~~~(m &&& l.got), gone := l.gone ||| (l.lanes &&& m &&& ~~~l.got) }
  let g2 : Group := { g1 with loads := ls.filter fun l => l.uni || l.lanes != 0 }
  (g2.names.map Prod.fst).foldl (fun g n => g.unlive n m) g2

/-- A record is dropped: its lanes leave it, and held lanes become bindable parked lanes (R87). -/
def Group.dropJoin (g : Group) (id : Nat) : Group :=
  match g.joins.find? (fun j => j.id == id) with
  | none => g
  | some j =>
    let held := j.jset &&& g.lanesIn .held
    let g1 := g.modLanes j.jset fun _ l => { l with jid := none }
    ({ g1 with joins := g1.joins.filter fun x => x.id != id } : Group).park held j.jpc

/-- JAGE (R81). -/
def Join.age (j : Join) (cyc : Nat) : Nat := match j.since with | some c => min 4096 (cyc - c) | none => 0

/-- The record that a ninth one replaces: the one of the highest JAGE, and among those the one created first (R87). -/
def Group.oldestJoin (g : Group) (cyc : Nat) : Option Join :=
  g.joins.foldl (fun (acc : Option Join) j => match acc with
    | none => some j
    | some b => if j.age cyc > b.age cyc || (j.age cyc == b.age cyc && decide (j.made < b.made)) then some j else acc) none

/-- Room for a new join record among eight: records that the new one's lanes leave empty are dropped, and where none is,
the oldest is replaced (R87). -/
def Group.roomForJoin (g : Group) (live : Mask) (cyc : Nat) : Group :=
  if g.joins.length < 8 then g
  else
    let g1 := g.leaveJoins live
    let g2 : Group := { g1 with joins := g1.joins.filter fun j => j.jset != 0 }
    if g2.joins.length < 8 then g2
    else match g2.oldestJoin cyc with
      | some j => g2.dropJoin j.id
      | none => g2

/-- Creates a join record for the lanes active in a dividing instruction (R87). -/
def Group.createJoin (g : Group) (jpc : CodeAddr) (lanes : Mask) (cyc : Nat) : Group :=
  let live := lanes &&& g.liveLanes
  let pcs := (live.lanes.map fun l => (g.lane l).lpc).dedup
  if pcs.length < 2 then g else
  let g1 := g.roomForJoin live cyc
  let id := ((List.range 8).find? fun k => g1.joins.all fun j => j.id != k).getD 0
  let g2 := g1.leaveJoins live
  let g3 := g2.modLanes live fun _ l => { l with jid := some id }
  { g3 with
    joins := g3.joins ++ [{ id := id, jpc := jpc, jset := live, since := none, made := g3.stamp }], stamp := g3.stamp + 1 }

/-- A slot frees; its scoreboard stays, and its lanes take what is not yet readable along (R155). -/
def Group.freeSlot (g : Group) (k : Nat) : Group :=
  { (g.modSlot k fun x => { sb := x.sb }) with psb := g.psb ++ (g.slot k).sb }

/-- Binds lanes to a slot at an address (R84, R88). -/
def Group.bind (g : Group) (k : Nat) (m : Mask) (pc : CodeAddr) (cyc : Nat) (mode : SlotMode) : Group :=
  (g.modLanes m fun _ l => { l with lst := .bound }).modSlot k fun x =>
    { valid := true, spc := pc, amask := m, mode := mode, active := if mode = .handler then m else 0
      sb := (x.sb ++ g.psb).filter fun e => decide (cyc < e.2) }

/-- The bindable parked lanes at an address. -/
def Group.parkedAt (g : Group) (pc : CodeAddr) : Mask := Mask.ofFn fun i => (g.lane i).lst == .parked && (g.lane i).lpc == pc

/-- The parked lanes that a binding can take: those of a handler only while no split of the group runs it (R86, R193). -/
def Group.bindable (g : Group) : Mask :=
  if g.slots.any fun x => x.mode == .handler then g.lanesIn .parked &&& ~~~g.hparked else g.lanesIn .parked
/-- The bindable addresses in increasing order. -/
def Group.parkedPcs (g : Group) : List CodeAddr :=
  (sortBy id (g.bindable.lanes.map fun l => (g.lane l).lpc.toNat).dedup).map (BitVec.ofNat 56)

/-- The address that a binding chooses: the longest parked starving lane's, else the lowest, avoiding the one just vacated
when another exists (R88). -/
def Group.chooseParked (g : Group) (avoid : Option CodeAddr) : Option CodeAddr :=
  let pcs := g.parkedPcs
  let ok := match avoid with
    | some a => if pcs.length > 1 then pcs.filter (· != a) else pcs
    | none => pcs
  let starving := g.bindable.lanes.filter fun l => decide ((g.lane l).passed ≥ 4) && ok.contains (g.lane l).lpc
  match starving.foldl (fun (acc : Option Nat) l => match acc with
      | none => some l
      | some b => if (g.lane l).parkedAt < (g.lane b).parkedAt ∨
          ((g.lane l).parkedAt = (g.lane b).parkedAt ∧ (g.lane l).lpc.toNat < (g.lane b).lpc.toNat) then some l else acc) none with
  | some l => some (g.lane l).lpc
  | none => ok.head?

/-- One binding into a free slot (R88); lanes it passes over are counted. Lanes of a handler bind in handler mode. -/
def Group.bindParked (g : Group) (k : Nat) (avoid : Option CodeAddr) (cyc : Nat) : Group :=
  match g.chooseParked avoid with
  | none => g
  | some pc =>
    let all := g.parkedAt pc &&& g.bindable
    let m := if all &&& g.hparked = 0 then all else all &&& g.hparked
    let g1 := g.modLanes ((g.lanesIn .parked) &&& ~~~all) fun _ l => { l with passed := l.passed + 1 }
    let g2 := g1.bind k m pc cyc (if all &&& g.hparked = 0 then .running else .handler)
    { g2 with hparked := g2.hparked &&& ~~~m }

/-- Binds into every free slot while bindable parked lanes exist (R88); a slot freed amid its run (`busy`) is free from the end of that run
on (R84). Of several free slots the lowest binds first, which the spec does not say (log 94, DEDUCED). -/
def Group.bindAll (g : Group) (avoid : Tbl CodeAddr) (busy : Option Nat) (cyc : Nat) : Group :=
  (List.range 4).foldl (fun g k => if (g.slot k).valid || busy == some k then g else g.bindParked k (avoid.get? k) cyc) g

/-- A split whose lanes change between runs: its first instruction is tested afresh and its stall begins anew (R85). -/
def Slot.again (x : Slot) : Slot :=
  { x with stallAt := none, nstall := 0, mark := none, retest := true, fesent := none, fearr := false }
/-- Merges slot b into slot a (R85). -/
def Group.mergeInto (g : Group) (a b : Nat) : Group :=
  let y := g.slot b
  (g.modSlot a fun x =>
    { x.again with
      amask := x.amask ||| y.amask, active := x.active ||| y.active, sb := x.sb ++ y.sb
      claim := if x.claim = .served ∨ y.claim = .served then .served else .none }).freeSlot b

/-- Parked and held lanes at the address of a split join it (R85); lanes of a handler join a split in handler mode. A claim of the
split keeps its place (log 93, DESIGN CHOICE). -/
def Group.joinLanes (g : Group) (k : Nat) : Group :=
  let x := g.slot k
  let all := Mask.ofFn fun i => ((g.lane i).lst == .parked || (g.lane i).lst == .held) && (g.lane i).lpc == x.spc
  let m := if x.mode = .handler then all &&& g.hparked else all &&& ~~~g.hparked
  if m = 0 then g
  else
    let g1 := (g.modLanes m fun _ l => { l with lst := .bound }).modSlot k fun x =>
      { x.again with amask := x.amask ||| m, active := if x.mode = .handler then x.active ||| m else x.active, sb := x.sb ++ g.psb }
    { g1 with hparked := g1.hparked &&& ~~~m }
/-- The merge rule (R85): equal SPCs merge into the lower slot; parked and held lanes at a bound SPC join it. A split that runs a handler
and one that does not name other registers (R193) and never merge (log 64, DEDUCED). -/
def Group.merge (g : Group) (busy : Option Nat) : Group :=
  let g1 := (List.range 4).foldl (fun g a => (List.range 4).foldl (fun g b =>
    let x := g.slot a; let y := g.slot b
    if a < b && g.still busy a && g.still busy b && x.spc == y.spc && x.mode == y.mode then g.mergeInto a b else g) g) g
  (List.range 4).foldl (fun g k => if g.still busy k then g.joinLanes k else g) g1

/-- Whether a bound split waits at a join: its lanes include lanes of a join whose address it has reached (R87). -/
def Group.waitsAtJoin (g : Group) (k : Nat) : Bool :=
  let x := g.slot k
  x.valid && !x.pinned && g.joins.any fun j => j.jpc == x.spc && j.jset &&& x.amask != 0

/-- A join is complete: every lane of its set has exited, or stands at its address bound or held (R87). -/
def Group.joinDone (g : Group) (j : Join) : Bool :=
  j.jset.lanes.all fun l => (g.lane l).lst == .exited ||
    ((g.lane l).lpc == j.jpc && ((g.lane l).lst == .bound || (g.lane l).lst == .held))

/-- Held lanes of a complete join, of a handler or not, merge into the split at its address, or into a free slot; with neither they
wait as bindable parked lanes (R85, R87). -/
def Group.gatherSome (g : Group) (busy : Option Nat) (held : Mask) (mode : SlotMode) (jpc : CodeAddr) (cyc : Nat) : Group :=
  if held = 0 ∨ (List.range 4).any (fun k => g.still busy k && (g.slot k).spc == jpc && (g.slot k).mode == mode) = true then g.merge busy
  else match (List.range 4).find? fun k => !(g.slot k).valid && busy != some k && !(mode == .handler && g.slots.any fun x => x.mode == .handler) with
    | some k => { g.bind k held jpc cyc mode with hparked := g.hparked &&& ~~~held }
    | none => g.park held jpc
/-- The held lanes of a complete join come together (R85, R87). -/
def Group.gather (g : Group) (busy : Option Nat) (held : Mask) (jpc : CodeAddr) (cyc : Nat) : Group :=
  let g1 := g.gatherSome busy (held &&& ~~~g.hparked) .running jpc cyc
  g1.gatherSome busy (held &&& g.hparked) .handler jpc cyc

/-- The join rules (R87): first arrivals start JAGE; complete joins are dropped and their lanes merge. -/
def Group.joinRules (g : Group) (busy : Option Nat) (cyc : Nat) : Group :=
  let g1 : Group := { g with joins := g.joins.map fun (j : Join) =>
    let arrived := (List.range 4).any fun k => g.still busy k && (g.slot k).spc == j.jpc && j.jset &&& (g.slot k).amask != 0
    if arrived && j.since.isNone then { j with since := some cyc } else j }
  (g1.joins.filter g1.joinDone).foldl (fun g j =>
    let g1 := g.modLanes j.jset fun _ l => { l with jid := none }
    let g2 : Group := { g1 with joins := g1.joins.filter fun x => x.id != j.id }
    g2.gather busy (j.jset &&& g2.lanesIn .held) j.jpc cyc) g1

/-- A split gives its slot up: its lanes are parked or held at its address, those of a handler known as such (R86, R193). -/
def Group.vacate (g : Group) (k : Nat) (held : Bool) : Group :=
  let x := g.slot k
  let g1 := if held then g.modLanes x.amask fun _ l => { l with lst := .held } else g.park x.amask x.spc
  let g2 := g1.freeSlot k
  if x.mode = .handler then { g2 with hparked := g2.hparked ||| x.amask } else g2
/-- Splits that wait at a join free their slots, their lanes held, while bindable parked lanes exist (R86, R87); a split
amid a run does not wait. -/
def Group.freeWaiting (g : Group) (busy : Option Nat) : Group :=
  (List.range 4).foldl (fun g k => if g.hasParked && g.waitsAtJoin k && busy != some k then g.vacate k true else g) g

/-- The freeing rules at a boundary (R86): a split waiting at a join, and a split whose NRUN is 256 or that yielded, while
bindable parked lanes exist. Answers the slots and addresses vacated by a rotation or a YIELD. A claim already served leaves its
raised cap behind (log 93, DESIGN CHOICE). -/
def Group.freeRules (g : Group) (yielded busy : Option Nat) : Group × Tbl CodeAddr :=
  (List.range 4).foldl (fun (acc : Group × Tbl CodeAddr) k =>
    let g := acc.1
    let x := g.slot k
    if !g.still busy k || !g.hasParked then acc
    else if x.nrun ≥ 256 ∨ yielded = some k then (g.vacate k false, acc.2.set k x.spc)
    else acc) (g.freeWaiting busy, [])

/-- Steps 5 and 6 of R84, once. -/
def Group.settleOnce (g : Group) (yielded busy : Option Nat) (cyc : Nat) : Group :=
  let (g1, vac) := ((g.merge busy).joinRules busy cyc).freeRules yielded busy
  g1.bindAll vac busy cyc

/-- What the steps can change: slots, lane states and join records. -/
def Group.splitView (g : Group) : List (Bool × CodeAddr × Mask) × List LaneState × List Join :=
  (g.slots.map fun x => (x.valid, x.spc, x.amask), g.lanes.map (·.lst), g.joins)

/-- Steps 5 and 6 of R84 until they change nothing more: a binding can bring a split to a join or beside held lanes. -/
def Group.settleSplits : Nat → Group → Option Nat → Option Nat → Nat → Group
  | 0, g, _, _, _ => g
  | n + 1, g, yielded, busy, cyc =>
    let g1 := g.settleOnce yielded busy cyc
    if g1.splitView = g.splitView then g1 else Group.settleSplits n g1 none busy cyc
/-- The splits of a group settle (R84 to R88): at the end of a run, and when lanes become bindable or a slot frees between runs (log
94, DEDUCED). `busy` is the slot of a run under way. -/
def Group.settled (g : Group) (yielded busy : Option Nat) (cyc : Nat) : Group :=
  let g1 := g.settleSplits 40 yielded busy cyc
  { g1 with stamp := g1.stamp + 1, psb := g1.psb.filter fun e => decide (cyc < e.2) }

/-- The re-forming of a group's splits after a run of slot k (R84), as one step. SPC has stayed at the control instruction that
ended the run, so lanes that fall through it have left it too (log 97, DEDUCED). Lanes that part in a handler stay parked in it: one
split runs a handler at a time (R193; log 64, DEDUCED). A run cut before its first instruction counts for nothing in NRUN (`counts`, R81). -/
def Group.reform (g : Group) (k : Nat) (yielded counts : Bool) (cyc : Nat) : Group :=
  let x := g.slot k
  let lanes := x.amask &&& g.lanesIn .bound
  let stay := lanes &&& Mask.ofFn fun i => (g.lane i).lpc == x.spc
  let gone := lanes &&& ~~~stay
  let pcs := (sortBy id (gone.lanes.map fun l => (g.lane l).lpc.toNat).dedup).map (BitVec.ofNat 56)
  let at_ (pc : CodeAddr) : Mask := gone &&& Mask.ofFn fun i => (g.lane i).lpc == pc
  let next (x : Slot) : Slot := { x with nrun := if counts then min 256 (x.nrun + 1) else x.nrun, readyAt := none, stallAt := none }
  let (g1, rest) : Group × List CodeAddr :=
    if lanes = 0 then (g.freeSlot k, [])
    else if stay ≠ 0 then (g.modSlot k fun x => { next x with amask := stay }, pcs)
    else match pcs with
      | pc :: rest => (g.modSlot k fun x => { next x with amask := at_ pc, spc := pc }, rest)
      | [] => (g, [])
  let g1 : Group := { g1 with psb := g1.psb ++ x.sb }
  let g2 := rest.foldl (fun (g : Group) pc =>
    if x.mode = .handler then let g1 := g.park (at_ pc) pc
      { g1 with hparked := g1.hparked ||| at_ pc }
    else match (List.range 4).find? (fun j => !(g.slot j).valid) with
      | some j => g.bind j (at_ pc) pc cyc x.mode
      | none => g.park (at_ pc) pc) g1
  g2.settled (if yielded then some k else none) none cyc

end Sys2Proof.Machine
end

