-- ==== Sys2Proof/Machine/Control.lean ====
section
/-! DEFINITION. The control group (R92 to R101) with its short forms. -/

namespace Sys2Proof.Machine

/-- NXT: the address after the instruction (R93, R98). -/
def Iss.next (i : Iss) : CodeAddr := i.pc + BitVec.ofNat 56 i.ins.len
/-- TGT = PC + 2 × OFF22 (R60, R93). -/
def Iss.target (i : Iss) : CodeAddr := i.pc + BitVec.ofInt 56 (2 * i.ins.off)
/-- Sends each active lane to an address. -/
def State.sendLanes (s : State) (i : Iss) (dest : Nat → CodeAddr) : State :=
  s.modGroup i.gid fun g => g.modLanes i.active fun l x => { x with lpc := dest l }
/-- The core's cycle. -/
def State.cycle (s : State) (core : Nat) : Nat := (s.core core).cyc

/-- BRD (R94). -/
def brdEff : Iss → State → Eff := fun i s =>
  let r := s.regs i
  let s1 := s.sendLanes i fun l => if i.exec.getLsbD l && r.pred i.ins.a l then i.target else i.next
  .moved (if i.ins.jdist = 0 then s1 else s1.modGroup i.gid fun g =>
    g.createJoin (i.pc + BitVec.ofNat 56 (16 * i.ins.jdist)) i.active (s.cycle i.core))
/-- BRANY, BRALL, BRNONE: the vote of the executing lanes moves the whole split (R95). -/
def voteEffBr (taken : Nat → Nat → Bool) : Iss → State → Eff := fun i s =>
  let r := s.regs i
  let n := i.exec.lanes.length
  let c := (i.exec.lanes.filter fun l => r.pred i.ins.a l).length
  .moved (s.sendLanes i fun _ => if decide (n > 0) && taken n c then i.target else i.next)
/-- JMP (R96). -/
def jmpEff : Iss → State → Eff := fun i s => .moved (s.sendLanes i fun l => if i.exec.getLsbD l then i.target else i.next)
/-- The target of an indirect transfer in a lane (R96, R97). -/
def Iss.indirect (i : Iss) (r : Regs) (l : Nat) : CodeAddr := (i.pc.extractLsb' 32 24 ++ r.x i.ins.a l).setWidth 56
/-- The executing lanes whose target lies outside the indirect-target set of the instruction (R340). -/
def State.outside (s : State) (i : Iss) (call : Bool) : Mask :=
  let r := s.regs i
  let b := s.block (s.group i.gid).blk
  match b.itt.find? (fun t => t.site == i.pc.toNat % 2 ^ 32) with
  | some t => if t.call == call then
      Mask.ofFn fun l => i.exec.getLsbD l && !t.targets.contains (r.x i.ins.a l).toNat else i.exec
  | none => i.exec
/-- A CALL_TARGET trap for lanes (R97). -/
def Iss.callTrap (i : Iss) (lanes : Mask) (addr : CodeAddr) : Trap := { i.trap .callTarget (addr.setWidth 64) with lanes := lanes }
/-- JMPI (R96). -/
def jmpiEff : Iss → State → Eff := fun i s =>
  let r := s.regs i
  let bad := s.outside i false
  match bad.lowest with
  | some l => .trap (i.callTrap bad (i.indirect r l)) s
  | none => .moved (s.sendLanes i fun l => if i.exec.getLsbD l then i.indirect r l else i.next)
/-- CALL and CALLI once their targets are known (R97). -/
def pushCall (t : Nat → CodeAddr) : Iss → State → Eff := fun i s =>
  let g := s.group i.gid
  let full := Mask.ofFn fun l => i.exec.getLsbD l && decide ((g.lane l).rdep ≥ 8)
  if full ≠ 0 then .trap (i.callTrap full i.pc) s
  else .moved (s.modGroup i.gid fun g => g.modLanes i.active fun l x =>
    if i.exec.getLsbD l then { x with rstk := x.rstk.set x.rdep i.next, rdep := x.rdep + 1, lpc := t l } else { x with lpc := i.next })
/-- CALLI (R97). -/
def calliEff : Iss → State → Eff := fun i s =>
  let r := s.regs i
  let bad := s.outside i true
  match bad.lowest with
  | some l => .trap (i.callTrap bad (i.indirect r l)) s
  | none => match pushCall (i.indirect r) i s with
    | .moved s1 => .moved (s1.modGroup i.gid fun g => g.createJoin i.next i.active (s.cycle i.core))
    | e => e
/-- The loads that a handler leaves uncommitted: those of lanes that leave it go, and all once no lane is left in it, so that no
later handler commits them (R162; log 105, DEDUCED). -/
def Group.dropHandlerLoads (g : Group) (m : Mask) : Group :=
  let keep (l : PLoad) : PLoad := if l.handler && !l.uni then { l with lanes := l.lanes &&& ~~~m } else l
  { g with loads := (g.loads.map keep).filter fun l => !l.handler || (g.inHandler && (l.uni || l.lanes != 0)) }
/-- After lanes exit: a handler with no active lane left leaves handler mode (R196). -/
def State.afterExit (s : State) (i : Iss) : State :=
  let g := s.group i.gid
  if i.handler && i.active &&& g.lanesIn .bound == 0 then
    let s1 := s.modGroup i.gid fun g => (g.modSlot i.slot fun x => { x with mode := .running }).dropHandlerLoads i.active
    if (s1.group i.gid).inHandler then s1
    else (s1.modPart i.core i.part fun p => { p with owner := none, bank := {} }).afterTrap i.gid
  else s
/-- RET (R98): a lane that exits keeps its LPC. -/
def retEff : Iss → State → Eff := fun i s =>
  let g := s.group i.gid
  let out := Mask.ofFn fun l => i.exec.getLsbD l && (g.lane l).rdep == 0
  let s1 := s.modGroup i.gid fun g => (g.modLanes i.active fun l x =>
    if !i.exec.getLsbD l then { x with lpc := i.next }
    else if x.rdep = 0 then x else { x with rdep := x.rdep - 1, lpc := x.rstk.getD (x.rdep - 1) 0 }).exitLanes out
  .moved (s1.afterExit i)
/-- EXIT (R98): a lane that exits keeps its LPC. -/
def exitEff : Iss → State → Eff := fun i s =>
  let s1 := s.modGroup i.gid fun g => (g.modLanes i.active fun l x => if i.exec.getLsbD l then x else { x with lpc := i.next }).exitLanes i.exec
  .moved (s1.afterExit i)
/-- YIELD (R99): with an executing lane, the boundary frees the slot or places the next run last. -/
def yieldEff : Iss → State → Eff := fun i s =>
  let s1 := s.modGroup i.gid fun g => (g.moveSplit i.slot i.active i.next)
  .moved (if i.exec = 0 then s1 else s1.modGroup i.gid fun g => g.modSlot i.slot fun x => { x with youngest := true })
/-- LOOPG (R100). -/
def loopgEff : Iss → State → Eff := fun i s =>
  if i.exec = 0 then .moved (s.sendLanes i fun _ => i.next)
  else
    let w := (s.regs i).u (i.ins.d - 128) - 1
    .moved ((s.writeU i i.ins.d w).sendLanes i fun _ => if w ≠ 0 then i.target else i.next)
/-- NOP (R99). -/
def nopEff : Iss → State → Eff := fun _ s => .done s

/-- BRD: issues in the split in focus. -/
def execBrd (f : W64F) (s : State) := issue (insW64 0x80 f) brdEff s
/-- BRANY: issues in the split in focus. -/
def execBrany (f : W64F) (s : State) := issue (insW64 0x81 f) (voteEffBr fun _ c => decide (c > 0)) s
/-- BRALL: issues in the split in focus. -/
def execBrall (f : W64F) (s : State) := issue (insW64 0x82 f) (voteEffBr fun n c => c == n) s
/-- BRNONE: issues in the split in focus. -/
def execBrnone (f : W64F) (s : State) := issue (insW64 0x83 f) (voteEffBr fun _ c => c == 0) s
/-- JMP: issues in the split in focus. -/
def execJmp (f : W64F) (s : State) := issue (insW64 0x84 f) jmpEff s
/-- JMPI: issues in the split in focus. -/
def execJmpi (f : W64F) (s : State) := issue (insW64 0x85 f) jmpiEff s
/-- CALL: issues in the split in focus. -/
def execCall (f : W64F) (s : State) := issue (insW64 0x86 f) (fun i s => pushCall (fun _ => i.target) i s) s
/-- CALLI: issues in the split in focus. -/
def execCalli (f : W64F) (s : State) := issue (insW64 0x87 f) calliEff s
/-- RET: issues in the split in focus. -/
def execRet (f : W64F) (s : State) := issue (insW64 0x88 f) retEff s
/-- RET_W32 (R51). -/
def execRetW32 (f : W32F) (s : State) := issue (insW32 57 f) retEff s
/-- EXIT: issues in the split in focus. -/
def execExit (f : W64F) (s : State) := issue (insW64 0x89 f) exitEff s
/-- EXIT_W32 (R51). -/
def execExitW32 (f : W32F) (s : State) := issue (insW32 56 f) exitEff s
/-- YIELD: issues in the split in focus. -/
def execYield (f : W64F) (s : State) := issue (insW64 0x8A f) yieldEff s
/-- YIELD_W32 (R51). -/
def execYieldW32 (f : W32F) (s : State) := issue (insW32 54 f) yieldEff s
/-- LOOPG: issues in the split in focus. -/
def execLoopg (f : W64F) (s : State) := issue (insW64 0x8B f) loopgEff s
/-- NOP: issues in the split in focus. -/
def execNop (f : W64F) (s : State) := issue (insW64 0x8C f) nopEff s
/-- NOP_W32 (R51). -/
def execNopW32 (f : W32F) (s : State) := issue (insW32 55 f) nopEff s

end Sys2Proof.Machine
end

