-- ==== Sys2Proof/Machine/Flags.lean ====
section
/-! DEFINITION. How lane results and flags are formed and written: element types, FIT, ROUND, COMPARE (R65, R104, R107,
R108), and the shared shapes of the lane operations. -/

namespace Sys2Proof.Machine

/-- What one lane of a lane operation reads. -/
structure Args where
  a : Nat
  b : Nat
  c : Nat
  old : Nat
  ty : Nat
  rm : Nat
  sat : Bool
  opx : Nat
  lane : Nat
  cc : Nat
  p : Bool

/-- The element count, width and signedness of an integer TY (R57, R107). -/
def tyElem : Nat → Nat × Nat × Bool
  | 0 => (1, 32, true) | 1 => (1, 32, false) | 2 => (2, 16, true) | 3 => (2, 16, false) | 4 => (4, 8, true)
  | 5 => (4, 8, false) | 10 => (1, 64, true) | 11 => (1, 64, false) | 9 => (1, 64, true) | _ => (1, 32, true)

/-- The exact integer of an element. -/
def elemInt (w : Nat) (signed : Bool) (v : Nat) : Int := if signed then signedOf w v else ((v % 2 ^ w : Nat) : Int)

/-- FIT (R108): the element's bits and ISAT. -/
def fit (sat : Bool) (w : Nat) (signed : Bool) (t : Int) : Nat × Flags :=
  if sat then let (r, c) := clampInt w signed t; (r, flagIf c flagISAT) else (wrapTo w t, 0)

/-- An operation on the exact integers of each element, fitted (R107, R108, R111). -/
def intElems (sat : Bool) (ty : Nat) (a b : Nat) (f : Int → Int → Int) : Nat × Flags :=
  let (n, w, sg) := tyElem ty
  (List.range n).foldr (fun k acc =>
    let (r, fl) := fit sat w sg (f (elemInt w sg (a >>> (w * k))) (elemInt w sg (b >>> (w * k))))
    (r + 2 ^ w * acc.1, fl ||| acc.2)) (0, 0)

/-- COMPARE (R65). -/
def compareCc (cc w a b : Nat) : Bool :=
  let sa := signedOf w a; let sb := signedOf w b
  match cc with
  | 0 => a == b | 1 => a != b | 2 => decide (sa < sb) | 3 => decide (sa ≤ sb) | 4 => decide (sa > sb)
  | 5 => decide (sa ≥ sb) | 6 => decide (a < b) | 7 => decide (a ≤ b) | 8 => decide (a > b) | _ => decide (a ≥ b)

/-- The operand fields of an instruction as one lane reads them (R104). -/
def Regs.args (r : Regs) (i : Iss) (lane : Nat) : Args :=
  let ins := i.ins
  let val (k : K) (v : Nat) : Nat := match k with | .reg _ _ _ _ => r.xs v (ins.count k) lane | _ => v
  match opInfo ins.op with
  | none => { a := 0, b := 0, c := 0, old := 0, ty := 0, rm := 0, sat := false, opx := 0, lane := lane, cc := 0, p := false }
  | some o =>
    let (kd, ka, kb, kc) := ins.kinds o
    { a := val ka ins.a, b := val kb ins.b, c := val kc ins.c, old := (match kd with | .reg _ _ _ _ => r.xs ins.d 1 lane | _ => 0),
      ty := ins.ty, rm := ins.rm, sat := ins.sat, opx := ins.opx, lane := lane, cc := ins.c, p := r.pred ins.c lane }

/-- The results of a lane operation in the executing lanes. -/
def laneTable {α : Type} (i : Iss) (f : Nat → α) : List (Nat × α) := i.exec.lanes.map fun l => (l, f l)

/-- The result of a lane in a table of results. -/
def tableAt {α : Type} (t : List (Nat × α)) (l : Nat) (d : α) : α := Tbl.getD t l d

/-- Writes `n` registers from lane results, lowest word first. -/
def State.writeLanes (s : State) (i : Iss) (d n : Nat) (t : List (Nat × Nat)) : State :=
  if d = 288 then s
  else (List.range n).foldl (fun s k => s.writeV i (d + k) fun l => BitVec.ofNat 32 (tableAt t l 0 >>> (32 * k))) s

/-- The cap check of R185, then an effect. -/
def capped (names : Ins → List Nat) (eff : Iss → State → Eff) : Iss → State → Eff := fun i s =>
  if s.overCap i (names i.ins) then .trap (i.fault .illegalOperand) s else eff i s

/-- A lane operation whose executing lanes each receive a value in D (R104). -/
def laneValN (n : Nat) (f : Args → Nat × Flags) : Iss → State → Eff := fun i s =>
  let r := s.regs i
  let t := laneTable i fun l => f (r.args i l)
  let fl := t.foldl (fun acc x => acc ||| x.2.2) (0 : Flags)
  .done (((s.lastReads i).writeLanes i i.ins.d n (t.map fun x => (x.1, x.2.1))).flags i fl)

/-- A lane operation whose destination is D at the width of its kind. -/
def laneVal (f : Args → Nat × Flags) : Iss → State → Eff :=
  capped Ins.dsts fun i s => laneValN i.ins.dsts.length f i s

/-- A lane operation without flags. -/
def lanePure (f : Args → Nat) : Iss → State → Eff := laneVal fun x => (f x, 0)

/-- A lane operation that also writes the predicate C names (R111: IADDC, ISUBB). -/
def laneCarry (f : Args → Nat × Bool) : Iss → State → Eff :=
  capped Ins.dsts fun i s =>
    let r := s.regs i
    let t := laneTable i fun l => f (r.args i l)
    .done (((s.lastReads i).writeLanes i i.ins.d 1 (t.map fun x => (x.1, x.2.1))).writeP i i.ins.c fun l =>
      (tableAt t l (0, false)).2)

/-- How a compare writes its predicate, by OPX: set, and, or (R115). -/
def mergePred (opx : Nat) (old v : Bool) : Bool := match opx with | 0 => v | 1 => old && v | _ => old || v

/-- A lane operation that writes the predicate D names: set, and, or by OPX (R115, R120). -/
def lanePred (f : Args → Bool × Flags) : Iss → State → Eff := fun i s =>
  let r := s.regs i
  let t := laneTable i fun l => f (r.args i l)
  let fl := t.foldl (fun acc x => acc ||| x.2.2) (0 : Flags)
  .done (((s.lastReads i).writeP i i.ins.d fun l =>
    mergePred i.ins.opx (r.pred i.ins.d l) (tableAt t l (false, 0)).1).flags i fl)

/-- The float format of a TY code (R57). -/
def tyFmt : Nat → Fmt
  | 7 => .fp16 | 8 => .bf16 | 9 => .fp64 | _ => .fp32

/-- A floating-point operation on each element, rounded by RM (R107, R108). -/
def floatElems (x : Args) (op : Num → Num → Num → Num × Flags) : Nat × Flags :=
  let f := tyFmt x.ty
  let w := f.width
  (List.range (if x.ty = 7 ∨ x.ty = 8 then 2 else 1)).foldr (fun k acc =>
    let e (v : Nat) : Num := f.decode ((v >>> (w * k)) % 2 ^ w)
    let (r, fl) := finish f x.rm (op (e x.a) (e x.b) (e x.c))
    (r + 2 ^ w * acc.1, fl ||| acc.2)) (0, 0)

end Sys2Proof.Machine
end

