-- ==== Sys2Proof/Machine/Translate.lean ====
section
/-! DEFINITION. Address translation, what a translated access may not do, and the fault records of a lane instruction
(R150, R265, R290 to R300, R317, R324, R366 to R368, R390, R405). -/

namespace Sys2Proof.Machine

/-- What an access needs of the leaf (R293). -/
inductive Need where
  /-- A load. -/
  | read
  /-- A store. -/
  | write
  /-- An atomic whose result a load returns, a RED or a REDO. -/
  | atomic
  /-- An atomic that returns nothing (D = 288). -/
  | quiet
  /-- An instruction fetch. -/
  | fetch
deriving DecidableEq, Repr

/-- Whether a leaf permits an access (R293). -/
def Need.allowed (n : Need) (e : TlbEnt) : Bool :=
  match n with
  | .read => e.rd | .write => e.w | .atomic => e.rd && e.w | .quiet => e.rd && e.w | .fetch => e.x
/-- Whether an access changes memory. -/
def Need.changes : Need → Bool
  | .write => true | .atomic => true | .quiet => true | _ => false
/-- ACC of a fault record (R299). -/
def Need.acc : Need → Nat
  | .read => 0 | .write => 1 | .atomic => 2 | .quiet => 2 | .fetch => 3

/-- Whether a line has lost its data: it is in its home's error set, or the error is still to be found (R314). -/
def State.lineBad (s : State) (pa : Nat) : Bool :=
  match homeDie pa with
  | some d => (s.die d).errset.contains (lineOf pa) || (s.die d).struck.contains (lineOf pa)
  | none => false
/-- The entries of its home slice's part of the error set (R266, R314). -/
def State.errsOf (s : State) (d line : Nat) : Nat :=
  ((s.die d).errset.filter fun l => Config.sliceHash l % 32 == Config.sliceHash line % 32).length
/-- An access of a context finds the error of a line: the line enters the error set of its slice, or a full set clamps the context
(R314, R316). -/
def State.found (s : State) (ctx pa : Nat) : State :=
  match homeDie pa with
  | none => s
  | some d =>
    if !(s.die d).struck.contains (lineOf pa) then s
    else if s.errsOf d (lineOf pa) < 32 then
      s.modDie d fun x => { x with errset := x.errset ++ [lineOf pa], struck := x.struck.filter (· != lineOf pa) }
    else if (s.ctx ctx).state == .clamped then s
    else s.clampCtx ctx 4 0 (BitVec.ofNat 64 (lineOf pa * 64))
/-- An access of a context has used lines: it finds the errors there. -/
def State.foundAll (s : State) (ctx : Nat) (pas : List Nat) : State := pas.foldl (fun s pa => s.found ctx pa) s

/-- The levels of a walk (R291): the lowest bit indexed, the bits indexed, whether a leaf is allowed, whether it is
required, and the alignment of the table a pointer names. -/
def walkLevels : List (Nat × Nat × Bool × Bool × Nat) :=
  [(47, 9, false, false, 12), (38, 9, false, false, 12), (29, 9, true, false, 9), (23, 6, true, false, 9), (17, 6, true, true, 0)]

/-- A walk from a level on (R291 to R293): the leaf, or the cause. -/
def State.walkFrom (s : State) (asid va : Nat) : List (Nat × Nat × Bool × Bool × Nat) → Nat → Except Cause TlbEnt
  | [], _ => .error .pageProtection
  | (sh, n, leafOk, leafMust, al) :: rest, base =>
    let at_ := base + 8 * (va / 2 ^ sh % 2 ^ n)
    if s.lineBad at_ then .error .dataError else
    let e := s.word at_ 8
    let leaf := e.testBit 1
    let pa := bitsOf e 53 9 * 512
    if !e.testBit 0 then .error .pageNotPresent
    else if bitsOf e 63 54 ≠ 0 ∨ bitsOf e 8 6 ≠ 0 ∨ (leaf && !leafOk) = true ∨ (!leaf && leafMust) = true then .error .pageProtection
    else if leaf then
      if pa % 2 ^ sh ≠ 0 ∨ homeDie pa = none then .error .pageProtection
      else .ok { asid := asid, va := va / 2 ^ sh, bits := sh, pa := pa, x := e.testBit 5, w := e.testBit 4, rd := e.testBit 3 }
    else if pa % 2 ^ al ≠ 0 ∨ pkgOf pa ≠ s.pkg ∨ inHbm pa = false then .error .pageProtection
    else s.walkFrom asid va rest pa
/-- The leaf that the tables of a context hold for an address now. -/
def State.walk (s : State) (ctx va : Nat) : Except Cause TlbEnt :=
  s.walkFrom (s.ctx ctx).asid va walkLevels (bitsOf (s.ctx ctx).root.toNat 53 12 * 4096)
/-- The table entry at which a walk meets a line that has lost its data. -/
def State.walkBad (s : State) (va : Nat) : List (Nat × Nat × Bool × Bool × Nat) → Nat → Option Nat
  | [], _ => none
  | (sh, n, _, _, _) :: rest, base =>
    let at_ := base + 8 * (va / 2 ^ sh % 2 ^ n)
    if s.lineBad at_ then some at_ else s.walkBad va rest (bitsOf (s.word at_ 8) 53 9 * 512)
/-- A walk that met a table line which has lost its data finds the error (R314). -/
def State.walkFound (s : State) (ctx va : Nat) : State :=
  match s.walk ctx va, s.walkBad va walkLevels (bitsOf (s.ctx ctx).root.toNat 53 12 * 4096) with
  | .error .dataError, some pa => s.found ctx pa
  | _, _ => s
/-- Whether a translation serves an address. -/
def TlbEnt.hits (e : TlbEnt) (asid va : Nat) : Bool := e.asid == asid && e.va == va / 2 ^ e.bits
/-- The leaf an access of a core uses: micro-TLB, quad TLB, die TLB, then the tables (R294, R295). -/
def State.leafFor (s : State) (core ctx va : Nat) : Except Cause TlbEnt :=
  let asid := (s.ctx ctx).asid
  match ((s.core core).utlb ++ (s.quad (quadOf core)).qtlb ++ (s.die (dieOf core)).dtlb).find? (fun e => e.hits asid va) with
  | some e => .ok e
  | none => s.walk ctx va
/-- The leaf an engine of a die uses (R294). -/
def State.leafForDie (s : State) (die ctx va : Nat) : Except Cause TlbEnt :=
  match (s.die die).dtlb.find? (fun e => e.hits (s.ctx ctx).asid va) with
  | some e => .ok e
  | none => s.walk ctx va
/-- The physical address of an access, or why there is none (R290, R293). -/
def useLeaf (n : Need) (va : Nat) (leaf : Except Cause TlbEnt) : Except Cause Nat :=
  if va ≥ 2 ^ 56 then .error .pageProtection else
  match leaf with
  | .error c => .error c
  | .ok e => if n.allowed e then .ok (e.pa + va % 2 ^ e.bits) else .error .pageProtection
/-- Translation for a core. -/
def State.translate (s : State) (core ctx : Nat) (n : Need) (va : Nat) : Except Cause Nat :=
  useLeaf n va (s.leafFor core ctx va)
/-- Translation for an engine of a die. -/
def State.translateDie (s : State) (die ctx : Nat) (n : Need) (va : Nat) : Except Cause Nat :=
  useLeaf n va (s.leafForDie die ctx va)

/-- The freeze directory entry of a page homed on this package (R317). -/
def State.dirEnt (s : State) (page : Nat) : Option DirEnt :=
  if page / 2 ^ 25 ≠ s.pkg then none
  else match homeDie (page * 2 ^ 17) with
    | some d => (s.die d).dir.get? page
    | none => none
/-- Changes the directory entry of a page; none frees it. -/
def State.setDir (s : State) (page : Nat) (e : Option DirEnt) : State :=
  match homeDie (page * 2 ^ 17) with
  | none => s
  | some d => s.modDie d fun x => { x with dir := match e with | some e => x.dir.set page e | none => x.dir.erase page }
/-- STATE of a page (R317): 0 OPEN, 1 SEALING, 2 SEALED, 3 THAWING. -/
def State.pageState (s : State) (page : Nat) : Nat :=
  match s.dirEnt page with
  | none => 0
  | some e => match e.state with | .sealing => 1 | .sealed => 2 | .thawing => 3
/-- Whether a write that a die translates now is turned away: its filter holds the page, and the home finds it frozen
(R321); another package's home answers as it will (log 3, DESIGN CHOICE). -/
def State.filtered (s : State) (die pa : Nat) : Bool :=
  (s.die die).filter.any (fun f => f.1 == pageOf pa) &&
    (if pkgOf pa = s.pkg then s.pageState (pageOf pa) != 0 else Config.remoteFrozen (pageOf pa) s.fresh)

/-- An area of a stepped region. -/
inductive Area where
  | base | shadow | tag
deriving DecidableEq, Repr
/-- Whether a region is enabled. -/
def Region.en (r : Region) : Bool := r.ctl.getLsbD 31
/-- Its pages. -/
def Region.npg (r : Region) : Nat := r.ctl.toNat % 2 ^ 23
/-- The first byte of version 0. -/
def Region.pa0 (r : Region) : Nat := bitsOf r.base.toNat 53 17 * 2 ^ 17
/-- The first byte of version 1. -/
def Region.pa1 (r : Region) : Nat := bitsOf r.shad.toNat 53 17 * 2 ^ 17
/-- The first byte of the tag array. -/
def Region.tags (r : Region) : Nat := bitsOf r.tag.toNat 53 6 * 64
/-- The lines of a region. -/
def Region.lines (r : Region) : Nat := r.npg * 2048
/-- The area of a region an address lies in. -/
def Region.areaOf (r : Region) (pa : Nat) : Option Area :=
  if r.pa0 ≤ pa ∧ pa < r.pa0 + 64 * r.lines then some .base
  else if r.pa1 ≤ pa ∧ pa < r.pa1 + 64 * r.lines then some .shadow
  else if r.tags ≤ pa ∧ pa < r.tags + 8 * r.lines then some .tag
  else none
/-- Region r of a context. -/
def State.region (s : State) (ctx r : Nat) : Region := (s.ctx ctx).regions.getD r {}
/-- The enabled region and area an address lies in (R366, R367). -/
def State.regionAt (s : State) (pa : Nat) : Option (Nat × Nat × Area) :=
  s.ctxs.findSome? fun c => (List.range 16).findSome? fun k =>
    let r := c.2.regions.getD k {}
    if r.en then (r.areaOf pa).map fun a => (c.1, k, a) else none
/-- The context of a stepped access. -/
def State.stepped (s : State) (pa : Nat) : Option (Nat × Nat) :=
  match s.regionAt pa with
  | some (c, r, .base) => some (c, r)
  | _ => none
/-- A die's copy of C (R368). -/
def State.stepOf (s : State) (die ctx : Nat) : Nat := (s.die die).cOf.getD ctx (s.ctx ctx).stepC
/-- The versions' tags of a stepped line (R366). -/
def State.tags (s : State) (ctx r line : Nat) : Nat × Nat :=
  let t := (s.region ctx r).tags + 8 * line
  (s.word t 4, s.word (t + 4) 4)
/-- The tags of a line as they are once an enable sweep that runs has passed it: those above C are absent (R372). -/
def State.sweptTags (s : State) (ctx r line : Nat) : Nat × Nat :=
  let t := s.tags ctx r line
  let go (x : Nat) : Nat := if (s.region ctx r).ctl.getLsbD 30 && decide (x > (s.ctx ctx).stepC) then 2 ^ 32 - 1 else x
  (go t.1, go t.2)
/-- Whether an address lies on a stepped line of another package, as its home says now (R367; log 34, DESIGN CHOICE). -/
def State.farStepped (s : State) (pa : Nat) : Bool := pkgOf pa != s.pkg && Config.remoteStepped (pageOf pa) s.fresh
/-- The step that an access of a stepped line carries (R367). -/
def State.carried (s : State) (pa st : Nat) : Option Nat := if (s.stepped pa).isSome || s.farStepped pa then some st else none
/-- Whether a write of a step is ahead or behind: a stepped line takes only step C + 1 (R368). -/
def State.offStep (s : State) (die pa st : Nat) : Bool :=
  match s.stepped pa with
  | some (c, _) => st != s.stepOf die c + 1
  | none => s.farStepped pa && st != Config.remoteStep (pageOf pa) s.fresh + 1
/-- The version a stepped read of step s returns (R368). -/
def pickVersion (t0 t1 st : Nat) : Bool :=
  let ok (t : Nat) : Bool := t != 2 ^ 32 - 1 && decide (t ≤ st)
  if ok t0 && ok t1 then decide (t1 > t0) else if ok t0 then false else if ok t1 then true else decide (t1 < t0)
/-- The version a stepped write of step s goes to, and whether it replaces it: the version tagged s, else the absent one, else the one
with the lower tag (R368). -/
def writeVersion (t0 t1 st : Nat) : Bool × Bool :=
  if t0 = st then (false, false) else if t1 = st then (true, false)
  else (if t0 = 2 ^ 32 - 1 then false else if t1 = 2 ^ 32 - 1 then true else decide (t1 < t0), true)
/-- The first byte of a version's line. -/
def State.versionPa (s : State) (ctx r line : Nat) (v : Bool) : Nat :=
  (if v then (s.region ctx r).pa1 else (s.region ctx r).pa0) + 64 * line
/-- The line number of a stepped address in its region. -/
def State.stepLine (s : State) (ctx r pa : Nat) : Nat := (pa - (s.region ctx r).pa0) / 64
/-- The step a stepped read carries: C for step 0 (R368). -/
def State.readStep (s : State) (ctx pa st : Nat) : Nat := if st = 0 then s.stepOf ((homeDie pa).getD 0) ctx else st
/-- The lines a read at home reads: of a stepped one, the tag word and the version it returns (R366, R368). -/
def State.readPas (s : State) (pa st : Nat) : List Nat :=
  match s.stepped pa with
  | none => [pa]
  | some (c, r) =>
    let l := s.stepLine c r pa
    let t := s.sweptTags c r l
    [(s.region c r).tags + 8 * l, s.versionPa c r l (pickVersion t.1 t.2 (s.readStep c pa st))]
/-- The lines that a write of some bytes at home needs whole: those it changes in part, and of a stepped one the tag word and what it
copies (R314, R368). -/
def State.writePas (s : State) (pa n st : Nat) : List Nat :=
  match s.stepped pa with
  | none => if n = 64 then [] else [pa]
  | some (c, r) =>
    let l := s.stepLine c r pa
    let t := s.sweptTags c r l
    let (v, fresh) := writeVersion t.1 t.2 st
    ((s.region c r).tags + 8 * l) :: if n = 64 then [] else if fresh then [s.versionPa c r l (!v)] else [s.versionPa c r l v]
/-- Whether one of some lines has lost its data. -/
def State.anyBad (s : State) (pas : List Nat) : Bool := pas.any s.lineBad

/-- Whether the erasure group is enabled (R405). -/
def Erasure.en (e : Erasure) : Bool := e.ctl.getLsbD 31
/-- K of the erasure group. -/
def Erasure.k (e : Erasure) : Nat := bitsOf e.ctl.toNat 7 4
/-- M of the erasure group. -/
def Erasure.m (e : Erasure) : Nat := bitsOf e.ctl.toNat 10 8
/-- n = k + m. -/
def Erasure.n (e : Erasure) : Nat := e.k + e.m
/-- The package's position. -/
def Erasure.pos (e : Erasure) : Nat := bitsOf e.ctl.toNat 15 11
/-- The stripes. -/
def Erasure.stripes (e : Erasure) : Nat := e.str.toNat % 2 ^ 32
/-- The first byte of the data area. -/
def Erasure.dataBase (e : Erasure) : Nat := bitsOf e.data.toNat 53 17 * 2 ^ 17
/-- The first byte of the parity area. -/
def Erasure.parBase (e : Erasure) : Nat := bitsOf e.par.toNat 53 17 * 2 ^ 17
/-- The units of the data area. -/
def Erasure.dataUnits (e : Erasure) : Nat := e.stripes * e.k / max 1 e.n
/-- The units of the parity area. -/
def Erasure.parUnits (e : Erasure) : Nat := e.stripes * e.m / max 1 e.n
/-- Whether an address lies in the data area. -/
def Erasure.inData (e : Erasure) (pa : Nat) : Bool := decide (e.dataBase ≤ pa) && decide (pa < e.dataBase + 2 ^ 17 * e.dataUnits)
/-- Whether an address lies in the parity area. -/
def Erasure.inPar (e : Erasure) (pa : Nat) : Bool := decide (e.parBase ≤ pa) && decide (pa < e.parBase + 2 ^ 17 * e.parUnits)
/-- A write to the areas of an enabled erasure group fails (R405). -/
def State.coded (s : State) (pa : Nat) : Bool := s.erasure.en && (s.erasure.inData pa || s.erasure.inPar pa)

/-- The ports that reach a package, in increasing number (R390). -/
def State.portsTo (s : State) (p : Nat) : List Nat :=
  (List.range 16).filter fun k => (s.rtab.getD p 0).testBit k && (s.ports.getD k {}).up
/-- Whether the package of an address can be reached (R390). -/
def State.reachable (s : State) (p : Nat) : Bool := p == s.pkg || (!s.fabFail.contains p && !(s.portsTo p).isEmpty)

/-- What a lane of a core may not do at a translated address, in the order of R150 step 3. A RED to a package out of reach is a lane's access
to it, and traps as R150 and R390 say (log 119, DEDUCED). -/
def State.denied (s : State) (die step : Nat) (n : Need) (pa : Nat) : Option Cause :=
  let reg := s.regionAt pa
  let areaBad := match reg with | some (_, _, .shadow) => true | some (_, _, .tag) => true | _ => false
  if areaBad || (n.changes && s.coded pa) then some .pageProtection
  else if n.changes && s.filtered die pa then some .frozenWrite
  else if n.changes && s.offStep die pa step then some .stepAhead
  else if !s.reachable (pkgOf pa) then some .dataError
  else if (n == .write || n == .quiet) && s.anyBad (s.writePas pa 1 step) then some .dataError
  else none
/-- A lane's access at issue: its physical address, or the cause that leaves it unfinished (R150). -/
def State.laneAccess (s : State) (core ctx step : Nat) (n : Need) (va : Nat) : Except Cause Nat :=
  match s.translate core ctx n va with
  | .error c => .error c
  | .ok pa => match s.denied (dieOf core) step n pa with
    | some c => .error c
    | none => .ok pa

/-- The causes in the order in which R150 reports them. -/
def causeOrder : List Cause := [.pageProtection, .frozenWrite, .stepAhead, .dataError, .pageNotPresent]
/-- The distinct 128 KiB pages of addresses, in increasing order (R300). -/
def pagesOf (as : List Nat) : List Nat := sortBy id ((as.map (· / 2 ^ 17)).dedup)
/-- One fault record of a lane instruction or fetch (R299, R300). -/
def State.laneRecord (s : State) (gid slot : Nat) (pc : CodeAddr) (src kind acc : Nat) (addr : Nat) (lanes : Mask) : FRec :=
  { words := [recWord0 kind src acc, BitVec.ofNat 64 addr, s.recWord2 gid slot, lanes.setWidth 64, 0, pc.setWidth 64,
      s.recWord6 gid, 0], origin := if kind = 1 then .lane gid slot else .none }
/-- The records of the not-present pages among unfinished lanes (R300): each lane with its address. -/
def State.recordPages (s : State) (i : Iss) (acc : Nat) (await : Bool) (absent : List (Nat × Nat)) : State :=
  (pagesOf (absent.map Prod.snd)).foldl (fun s p =>
    let mine := absent.filter fun x => x.2 / 2 ^ 17 == p
    let low := mine.foldl (fun a x => min a x.2) (p * 2 ^ 17 + 2 ^ 17)
    let lanes := Mask.ofFn fun l => mine.any fun x => x.1 == l
    s.logRecord (s.group i.gid).ctx (s.laneRecord i.gid i.slot i.pc 0 (if await then 1 else 3) acc low lanes)) s
/-- The lanes of an instruction find the errors that leave them unfinished, in a table or in memory (R314). -/
def State.foundLanes (s : State) (i : Iss) (n : Need) (bad : List (Nat × Nat × Cause)) : State :=
  (bad.filter fun b => b.2.2 == .dataError).foldl (fun s b =>
    let ctx := (s.group i.gid).ctx
    match s.translate i.core ctx n b.2.1 with
    | .ok pa => s.foundAll ctx (s.writePas pa 1 (s.group i.gid).step.toNat)
    | .error _ => s.walkFound ctx b.2.1) s
/-- Whether a lane's address lies on a package that cannot be reached (R195, R390). -/
def State.outOfReach (s : State) (i : Iss) (n : Need) (va : Nat) : Bool :=
  match s.translate i.core (s.group i.gid).ctx n va with | .ok pa => !s.reachable (pkgOf pa) | .error _ => false
/-- The trap on unfinished lanes (R150 step 3): each with its address and cause. A uniform access reports the active mask.
RPL says that some executing lanes completed, at this issue or, for a replay, before it; a DATA_ERROR sets it only for a package that
cannot be reached (R195, R196). -/
def State.unfinished (s : State) (i : Iss) (n : Need) (uni some_ : Bool) (bad : List (Nat × Nat × Cause)) : Eff :=
  match causeOrder.find? (fun c => bad.any fun b => b.2.2 == c) with
  | none => .done s
  | some c =>
    let addr := ((bad.find? fun b => b.2.2 == c).map (·.2.1)).getD 0
    let lanes : Mask := if uni then i.active else Mask.ofFn fun l => bad.any fun b => b.1 == l
    let absent := (bad.filter fun b => b.2.2 == .pageNotPresent).flatMap fun b =>
      if uni then i.active.lanes.map fun l => (l, b.2.1) else [(b.1, b.2.1)]
    let s1 := (s.foundLanes i n bad).recordPages i n.acc (c == .pageNotPresent) absent
    let away := c != .dataError || bad.any fun b => b.2.2 == c && s.outOfReach i n b.2.1
    .trap { cause := c, pc := i.pc, addr := BitVec.ofNat 64 addr, lanes := lanes, info := i.ins.raw
            rpl := away && (some_ || ((s.group i.gid).slot i.slot).replay.isSome) } s1

end Sys2Proof.Machine
end

