-- ==== Sys2Proof/Machine/Access.lean ====
section
/-! DEFINITION. What an access does at its point of performance: L1 lines, write-backs, stepped lines, atomics, releases and
acquires (R141, R142, R147, R148, R265 to R287, R324 to R326, R357 to R363, R366 to R374, R391). -/

namespace Sys2Proof.Machine

/-- A line of an L1 array. -/
def State.l1Line (s : State) (l1 line : Nat) : L1Line := (s.core l1).l1.getD line {}
/-- Replaces a line of an L1 array; one with no valid byte and no fill under way is not held. -/
def State.setL1 (s : State) (l1 line : Nat) (x : L1Line) : State :=
  s.modCore l1 fun c => { c with l1 := if x.valid = 0 ∧ x.fill = [] then c.l1.erase line else c.l1.set line x }
/-- A line after an acquire of wide scope: every valid byte that is not dirty goes, but for a frozen copy, and with it what a fill begun
before would bring (R268, R279). -/
def L1Line.cleaned (x : L1Line) : L1Line :=
  if x.frozen then x else if x.valid &&& x.dirty = 0 then {} else { x with valid := x.valid &&& x.dirty, fill := [] }
/-- The bits of `w` bytes from an offset of a line. -/
def byteMask (off w : Nat) : BitVec 64 := BitVec.ofNat 64 ((2 ^ w - 1) <<< off)
/-- `w` bytes of a line. -/
def L1Line.bytes (x : L1Line) (off w : Nat) : List Byte :=
  (List.range w).map fun k => BitVec.ofNat 8 (x.data.toNat >>> (8 * (off + k)))
/-- Puts bytes into line data under a byte mask. -/
def mergeLine (old new : BitVec 512) (m : BitVec 64) : BitVec 512 :=
  BitVec.ofNat 512 ((List.range 64).foldr (fun k acc =>
    (if m.getLsbD k then new.toNat >>> (8 * k) else old.toNat >>> (8 * k)) % 256 + 256 * acc) 0)
/-- Line data from its 64 bytes. -/
def lineOfBytes (bs : List Byte) : BitVec 512 := BitVec.ofNat 512 (ofBytes bs)
/-- Bytes placed at an offset of a line. -/
def placeBytes (off : Nat) (bs : List Byte) : BitVec 512 := BitVec.ofNat 512 (ofBytes bs <<< (8 * off))

/-- An error in dirty bytes of an L1 is found: the line enters its home's error set (R314). What enters another package's set is that
package's. -/
def State.addError (s : State) (line ctx : Nat) : State :=
  match homeDie (line * 64) with
  | none => s
  | some d =>
    if pkgOf (line * 64) ≠ s.pkg ∨ (s.die d).errset.contains line = true then s
    else (s.modDie d fun x => { x with struck := x.struck.filter (· != line) ++ [line] }).found ctx (line * 64)

/-- The write-backs of a line that are under way from an L1. -/
def State.wbs (s : State) (l1 line : Nat) : List Nat :=
  (s.accs.filter fun a => a.kind == .wb && !a.done && a.core == l1 && lineOf a.pa == line).map (·.id)
/-- Every write-back under way from an L1. -/
def State.allWbs (s : State) (l1 : Nat) : List Nat :=
  (s.accs.filter fun a => a.kind == .wb && !a.done && a.core == l1).map (·.id)
/-- What a write-back of some bytes of a line follows: earlier ones of a common byte, and the stores and atomics of this L1's lanes that
are on their way to another package's home (R276). -/
def State.backDeps (s : State) (l1 line : Nat) (m : BitVec 64) : List Nat :=
  (s.accs.filter fun a => !a.done && lineOf a.pa == line && (match a.kind with
    | .wb => a.core == l1 && a.mask &&& m != 0
    | .read => false
    | _ => a.home && a.sent && a.lanes != 0 && s.l1Of a.core == l1)).map (·.id)
/-- The address of the lowest byte of a line that a mask names. -/
def lowByte (pa : Nat) (m : BitVec 64) : Nat := pa + ((List.range 64).find? fun k => m.getLsbD k).getD 0
/-- The parts in which the dirty bytes of a line leave: towards SCM one for each group and epoch, which R363 orders. -/
def L1Line.leaves (x : L1Line) (scm : Bool) : List (List Mark × BitVec 64) :=
  if scm then
    let known := x.marks.foldl (fun m (k : Mark) => m ||| k.mask) 0
    ((x.marks.map fun (k : Mark) => ([k], k.mask &&& x.dirty)) ++ [([], x.dirty &&& ~~~known)]).filter fun p => p.2 != 0
  else [(x.marks, x.dirty)]
/-- One part of a line's dirty bytes leaves for home; `batch` names all of them. -/
def State.sendBack (s : State) (l1 line batch : Nat) (x : L1Line) (p : List Mark × BitVec 64) : State :=
  let (id, s1) := s.newId
  { s1 with accs := s1.accs ++ [{
      id := id, kind := .wb, gid := 0, core := l1, ctx := x.ctx, lanes := 0, pa := line * 64, va := 0, w := 64
      apps := [(0, x.bytes 0 64)], home := true, sco := 0, sem := 0, last := false, load := none, deps := s.backDeps l1 line p.2
      epoch := 0, step := none, mask := p.2, batch := batch, marks := p.1 }] }
/-- The dirty bytes of a line leave for home (R267); with an error in them the line is dropped and home remembers it
(R314). -/
def State.wbLine (s : State) (l1 line : Nat) : State :=
  let x := s.l1Line l1 line
  if x.dirty = 0 then s
  else if x.bad ≠ 0 then (s.addError line x.ctx).setL1 l1 line {}
  else
    let (batch, s1) := s.newId
    (x.leaves (inScm (line * 64))).foldl (fun s p => s.sendBack l1 line batch x p) (s1.setL1 l1 line { x with dirty := 0, marks := [] })
/-- Whether two lines of an L1 lie in one of its arrays, the four of a fused L1 by bits 7:6 of the address (R224). -/
def State.sameArray (s : State) (l1 a b : Nat) : Bool := !(s.quad (quadOf l1)).fused || a % 4 == b % 4
/-- Room for a line in an array of 2,048 lines (R1, R224): the line that has been there longest is evicted (log 95, DESIGN CHOICE). -/
def State.makeRoom (s : State) (l1 line : Nat) : State :=
  if ((s.core l1).l1.get? line).isSome then s
  else match ((s.core l1).l1.map Prod.fst).filter (s.sameArray l1 line) with
    | [] => s
    | v :: rest => if rest.length < 2047 then s else (s.wbLine l1 v).setL1 l1 v {}
/-- Every dirty byte of an L1 leaves for home (R268). -/
def State.wbAll (s : State) (l1 : Nat) : State :=
  ((s.core l1).l1.map Prod.fst).foldl (fun s line => s.wbLine l1 line) s
/-- An acquire of wide scope acts on every line of an L1 (R268). -/
def State.invalidate (s : State) (l1 : Nat) : State :=
  ((s.core l1).l1.map Prod.fst).foldl (fun s line => s.setL1 l1 line (s.l1Line l1 line).cleaned) s
/-- Whether a release or acquire of this scope acts on the L1 (R268). -/
def State.wide (s : State) (core sco : Nat) : Bool := decide (3 ≤ sco) || (sco == 2 && !(s.quad (quadOf core)).fused)

/-- The 64 bytes of a line at its home. -/
def State.homeLine (s : State) (pa : Nat) : List Byte := s.bytes (lineOf pa * 64) 64
/-- A read at home, stepped or not (R359, R368). -/
def State.homeRead (s : State) (pa n st : Nat) : List Byte :=
  match s.stepped pa with
  | none => s.bytes pa n
  | some (c, r) =>
    let l := s.stepLine c r pa
    let t := s.tags c r l
    s.bytes (s.versionPa c r l (pickVersion t.1 t.2 (s.readStep c pa st)) + pa % 64) n
/-- Whether a running snapshot protects a version of a line (R374). -/
def State.protected (s : State) (ctx r line : Nat) (v : Bool) : Bool :=
  let t := s.tags ctx r line
  s.dies.any fun d => d.2.snaps.any fun n => n.ctx == ctx && n.rgn == r && !n.copied.contains line && pickVersion t.1 t.2 n.step == v
/-- Whether the enable sweep of a stepped address's region runs (R372). -/
def State.sweeping (s : State) (pa : Nat) : Bool :=
  match s.stepped pa with
  | some (c, r) => (s.region c r).ctl.getLsbD 30
  | none => false
/-- The cells of a stepped write, the changed line and the tag word as one unit; none while the replaced version is
protected or the write-back queue has no room for the unit (R357, R368). -/
def State.stepCells (s : State) (ctx r pa st : Nat) (bs : List Byte) : Option (List Host.Cell) :=
  let l := s.stepLine ctx r pa
  let (t0, t1) := s.tags ctx r l
  let (v, fresh) := writeVersion t0 t1 st
  if !fresh then some (bs.mapIdx fun i b => (s.versionPa ctx r l v + pa % 64 + i, b))
  else if s.protected ctx r l v || decide ((s.die ((homeDie (s.region ctx r).tags).getD 0)).wbqUsed + 2 > 4096) then none
  else
    let keep := s.bytes (s.versionPa ctx r l (!v)) 64
    let line := keep.mapIdx fun i b => (s.versionPa ctx r l v + i, if pa % 64 ≤ i then bs.getD (i - pa % 64) b else b)
    let tag := (bytesOf 4 st).mapIdx fun i b => ((s.region ctx r).tags + 8 * l + (if v then 4 else 0) + i, b)
    some (line ++ tag)
/-- The cells of a write at home; none while it must wait at home. -/
def State.writeCells (s : State) (pa st : Nat) (bs : List Byte) : Option (List Host.Cell) :=
  if s.sweeping pa then none else
  match s.stepped pa with
  | none => some (bs.mapIdx fun i b => (pa + i, b))
  | some (c, r) => s.stepCells c r pa st bs

/-- An element of an atomic combined (R148). -/
def atomFloat (f : Fmt) (aop a c : Nat) : Nat :=
  let x := f.decode a; let y := f.decode c
  (finish f 0 (match aop with | 0 => addNum 0 x y | 1 => minMaxNum false false x y | _ => minMaxNum true false x y)).1
/-- The width in bytes of an atomic type (R147). -/
def atyBytes (aty : Nat) : Nat := if aty = 2 ∨ aty = 3 ∨ aty = 5 then 8 else 4
/-- OP of R148 on an old value; for CAS the comparand is the low half of the operand; bf16x2 acts element by element. -/
def atomOp (aop aty old c : Nat) : Nat :=
  let w := 8 * atyBytes aty
  let sg := aty == 0 || aty == 2
  match aop with
  | 6 => c % 2 ^ w
  | 7 =>
    let cas (k : Nat) (o m n : Nat) : Nat := if o % 2 ^ k = m % 2 ^ k then n % 2 ^ k else o % 2 ^ k
    if aty = 6 then cas 16 old c (c / 2 ^ 32) + 2 ^ 16 * cas 16 (old / 2 ^ 16) (c / 2 ^ 16) (c / 2 ^ 48) else cas w old c (c / 2 ^ w)
  | 8 => if old ≥ c then 0 else old + 1
  | 9 => if old = 0 ∨ old > c then c else old - 1
  | 3 => old &&& c
  | 4 => old ||| c
  | 5 => old ^^^ c
  | _ =>
    match aty with
    | 4 => atomFloat .fp32 aop old c
    | 5 => atomFloat .fp64 aop old c
    | 6 => atomFloat .bf16 aop (old % 2 ^ 16) (c % 2 ^ 16) + 2 ^ 16 * atomFloat .bf16 aop (old / 2 ^ 16) (c / 2 ^ 16)
    | _ => match aop with
      | 0 => (old + c) % 2 ^ w
      | 1 => if elemInt w sg old ≤ elemInt w sg c then old else c
      | _ => if elemInt w sg old ≥ elemInt w sg c then old else c
/-- The applications of one atomic access in order: the last value, and what each lane receives (R147). -/
def atomApply (aop aty old : Nat) (apps : List (Nat × List Byte)) : Nat × List (Nat × List Byte) :=
  apps.foldl (fun acc a => (atomOp aop aty acc.1 (ofBytes a.2), acc.2 ++ [(a.1, bytesOf (atyBytes aty) acc.1)])) (old, [])

/-- Row (y, z) of an operation: where it begins on a side (R305). -/
def rowStart (spad : Bool) (base : Nat) (ys zs : Int) (y z : Nat) : Nat :=
  wrapTo (if spad then 32 else 64) ((base : Int) + (z : Int) * zs + (y : Int) * ys)
/-- The rows of an operation, by number z × YC + y. -/
def TongsOp.srcRow (o : TongsOp) (k : Nat) : Nat := rowStart o.ssp o.src o.sys o.szs (k % o.yc) (k / o.yc)
/-- The destination of a row. -/
def TongsOp.dstRow (o : TongsOp) (k : Nat) : Nat := rowStart o.dsp o.dst o.dys o.dzs (k % o.yc) (k / o.yc)
/-- The number of rows. -/
def TongsOp.rows (o : TongsOp) : Nat := o.yc * o.zc
/-- The chunks of a row: one for each aligned 256-byte block of the destination (R307). -/
def TongsOp.rowChunks (o : TongsOp) (row : Nat) : Nat := (o.dstRow row % 256 + o.xlen + 255) / 256
/-- Chunk j of a row: its offset in the row and its length. -/
def TongsOp.chunk (o : TongsOp) (row j : Nat) : Nat × Nat :=
  let a := o.dstRow row % 256
  let x := if j = 0 then 0 else 256 * j - a
  (x, min o.xlen (256 * (j + 1) - a) - x)
/-- The row and chunk that come next: `next` is 2^23 × row + chunk. -/
def TongsOp.place (o : TongsOp) : Nat × Nat := (o.next / 2 ^ 23, o.next % 2 ^ 23)
/-- Bytes at an address modulo the width of its space. -/
def sideAddr (spad : Bool) (a : Nat) : Nat := a % 2 ^ (if spad then 32 else 64)
/-- Whether bytes that an operation has still to write have their home in SCM, or translate to none now (R358, R363). -/
def State.tongsScm (s : State) (die ctx : Nat) (o : TongsOp) : Bool :=
  !o.dsp && (List.range o.rows).any fun r =>
    let a := o.dstRow r + (if r = o.place.1 then (o.chunk r o.place.2).1 else 0)
    let e := o.dstRow r + o.xlen
    decide (o.place.1 ≤ r) && decide (a < e) && (List.range ((e - 1) / 2 ^ 17 + 1 - a / 2 ^ 17)).any fun k =>
      match s.translateDie die ctx .write (sideAddr false (max a ((a / 2 ^ 17 + k) * 2 ^ 17))) with
      | .ok pa => inScm pa
      | .error _ => true
/-- Whether a write of a group to SCM that a test picks, by its epoch and its name, and other than the access asking, has not entered a
write-back queue (R357, R363): of a Tongs operation the test gets its epoch and its number among the group's, and its last chunk may be on
its way to another package (R364). -/
def State.unentered (s : State) (gid self : Nat) (old : Nat → Nat → Bool) (oldBc : Nat → Nat → Bool) : Bool :=
  s.accs.any (fun a => !a.done && a.id != self && inScm a.pa &&
    (match a.kind with
     | .write => a.gid == gid && old a.epoch a.id
     | .atom _ _ => a.gid == gid && old a.epoch a.id
     | .red _ _ => a.gid == gid && old a.epoch a.id
     | .wb => a.marks.any fun m => m.gid == gid && old m.epoch m.first
     | _ => false))
  || s.cores.any (fun c => c.2.l1.any fun l => inScm (l.1 * 64) && l.2.marks.any fun m => m.gid == gid && old m.epoch m.first)
  || s.sigs.any (fun m => m.gid == gid && m.id != self && inScm m.pa && old m.epoch m.id)
  || s.dies.any (fun d => d.2.tongs.any fun q => q.2.ops.any fun o =>
      o.gid == gid && oldBc o.epoch o.n && (s.tongsScm d.1 (q.1 % 64) o || s.accs.any fun a =>
        a.kind == .write && a.lanes == 0 && !a.done && a.id != self && inScm a.pa && o.deps.contains a.id))
/-- Whether an SCM write of a group, older than an epoch and other than the access asking, has not entered a WBQ (R363). -/
def State.olderWrite (s : State) (gid epoch self : Nat) : Bool :=
  s.unentered gid self (fun e _ => decide (e < epoch)) fun e _ => decide (e < epoch)
/-- Whether every older SCM write of its group has entered before an access (R363); other accesses wait for nothing. -/
def State.inOrder (s : State) (a : Access) : Bool :=
  !inScm a.pa || (match a.kind with
    | .wb => a.marks.all fun m => !s.olderWrite m.gid m.epoch a.id
    | _ => !s.olderWrite a.gid a.epoch a.id)
/-- Whether a write by this access may enter its WBQ now (R357, R363). -/
def State.mayEnter (s : State) (a : Access) : Bool := !inScm a.pa || (s.wbqRoom a.pa && s.inOrder a)

/-- Bytes of a line cease to be dirty. -/
def L1Line.undirty (x : L1Line) (m : BitVec 64) : L1Line :=
  { x with dirty := x.dirty &&& ~~~m, bad := x.bad &&& ~~~m
           marks := (x.marks.map fun (k : Mark) => { k with mask := k.mask &&& ~~~m }).filter fun k => k.mask != 0 }
/-- The issuing L1's copy of bytes written at home becomes valid and clean where it holds them (R141); bytes made dirty since a store left
for another package stay (`later`). -/
def State.updateCopy (s : State) (l1 pa : Nat) (bs : List Byte) (later : Bool) : State :=
  if ((s.core l1).l1.get? (lineOf pa)).isNone then s
  else
    let x := s.l1Line l1 (lineOf pa)
    let m := byteMask (pa % 64) bs.length &&& x.valid &&& (if later then ~~~x.dirty else BitVec.allOnes 64)
    s.setL1 l1 (lineOf pa) { (x.undirty m) with data := mergeLine x.data (placeBytes (pa % 64) bs) m, fill := [] }
/-- A line leaves an L1 with its dirty bytes (R142). -/
def State.dropLine (s : State) (l1 pa : Nat) : State := s.setL1 l1 (lineOf pa) {}
/-- The clean bytes of a line leave an L1: a home access of a lane has been performed (R267). -/
def State.dropClean (s : State) (l1 pa : Nat) : State :=
  let x := s.l1Line l1 (lineOf pa)
  s.setL1 l1 (lineOf pa) { x with valid := x.valid &&& x.dirty, frozen := false, fill := [] }

/-- The fields of a flit that this package sends for a context from a die. -/
def State.flitTo (s : State) (ctx die pa type vc tag : Nat) (aux : BitVec 32) (payload : List Byte) : Flit :=
  { dpkg := pkgOf pa, spkg := s.pkg, ddie := (homeDie pa).getD 0, sdie := die, vc := vc, type := type, len := payload.length,
    tag := tag % 2 ^ 16, seq := 0, ack := 0, ctx := ctx, paddr := pa % 2 ^ 54, aux := aux, rsv := 0, payload := payload }
/-- The highest number that a port has received intact (R386, R388). -/
def Port.ack (p : Port) : Nat := (p.seqIn + 2 ^ 16 - 1) % 2 ^ 16
/-- A flit leaves through a port: the link numbers it and keeps it until it is acknowledged (R388). -/
def State.emitOn (s : State) (k : Nat) (f : Flit) : State :=
  let p := s.ports.getD k {}
  let f1 := { f with seq := p.seqOut % 2 ^ 16, ack := p.ack }
  { s with out := s.out ++ [f1], ports := s.ports.set k { p with seqOut := p.seqOut + 1, unacked := p.unacked ++ [f1] } }
/-- A flit leaves through a port of its destination's set (R390). With no port it is lost. -/
def State.emitFlit (s : State) (f : Flit) : State :=
  let set := s.portsTo f.dpkg
  match set[Config.portHash (lineOf f.paddr) f.sdie % max 1 set.length]? with
  | none => s
  | some k => s.emitOn k f
/-- A new flit leaves, or is held while flits to its destination that were sent again are unacknowledged (R388). -/
def State.sendFlit (s : State) (f : Flit) : State :=
  if s.resent.any fun r => r.1 == f.dpkg then { s with outHeld := s.outHeld ++ [f] } else s.emitFlit f
/-- The WD code of a width in bytes. -/
def wdOf (w : Nat) : Nat := match w with | 1 => 0 | 2 => 2 | 4 => 4 | 8 => 5 | _ => 6
/-- A message leaves in flits of up to 224 payload bytes, BULK lines in flits of up to 216; bit 31 of AUX says that more follow (R386, R387;
log 16, DESIGN CHOICE). -/
def State.sendLong (s : State) (f : Flit) : State :=
  let w := if f.type = 0x0D then 216 else 224
  let n := max 1 ((f.payload.length + w - 1) / w)
  (List.range n).foldl (fun s k =>
    let body := (f.payload.drop (w * k)).take w
    s.sendFlit { f with payload := body, len := body.length, aux := if k + 1 < n then f.aux ||| 0x80000000#32 else f.aux }) s
/-- AUX of an access: the M12 of its instruction (R386); bit 31 of an RD says that an L1 fills a line with what comes back (log 16,
DESIGN CHOICE). -/
def Access.aux (a : Access) : BitVec 32 :=
  BitVec.ofNat 32 (a.m12 + if a.kind == .read && !a.home then 2 ^ 31 else 0)
/-- What a request of a step adds to its payload, and to AUX: bit 29 says that the step stands in the last four bytes (log 16, DESIGN
CHOICE). Step 0 is not sent: the home reads at C (R368). -/
def stepTail (st : Nat) : List Byte := if st = 0 then [] else bytesOf 4 st
/-- Bit 29 of AUX. -/
def stepBit (st : Nat) : BitVec 32 := if st = 0 then 0 else 0x20000000
/-- The bytes a write access stores, by lane. -/
def Access.data (a : Access) : List Byte := match a.apps with | x :: _ => x.2 | [] => []

/-- An access has been performed: one that returns data to a load waits for its return, one whose data something else takes is kept for
it, any other is gone (R140, R391). -/
def State.performed (s : State) (a : Access) (res : List (Nat × List Byte)) (bad : Bool) : State :=
  let s1 : State := if a.keep = .none then s else { s with kept := s.kept ++ [{ a with done := true, result := res, failed := bad }] }
  match a.load with
  | some _ => { s1 with accs := s1.accs.map fun x => if x.id = a.id then { x with done := true, result := res, failed := bad } else x }
  | none => { s1 with accs := s1.accs.filter fun x => x.id != a.id }
/-- The acquire an access makes once it is performed (R268). -/
def State.acquire (s : State) (core sco sem : Nat) : State :=
  if (sem == 1 || sem == 3) && s.wide core sco then s.invalidate (s.l1Of core) else s
/-- What follows the performance of a read or atomic: LAST, and the acquire. -/
def State.afterRead (s : State) (a : Access) : State :=
  (if a.last then s.dropLine (s.l1Of a.core) a.pa else s).acquire a.core a.sco a.sem

/-- An access whose data cannot be had: it returns its error, and LAST acts all the same (R142, R151). -/
def State.failed (s : State) (a : Access) : State :=
  let s1 := s.performed a [] true
  if a.last then s1.dropLine (s1.l1Of a.core) a.pa else s1

/-- A copy of a line of a frozen page filled by a die: the home records the holder (R326). -/
def State.holdDie (s : State) (page die : Nat) : State :=
  match s.dirEnt page with
  | some e => s.setDir page (some { e with hdie := if e.hdie.contains die then e.hdie else e.hdie ++ [die] })
  | none => s
/-- Fills the invalid bytes of an L1 line (R267), and with `fresh` every byte that is not dirty (R326); `frozen` is the tag of R326, which
a line with dirty bytes never takes. -/
def State.fillL1 (s : State) (l1 line ctx : Nat) (fresh : Bool) (data : List Byte) (frozen : Bool) : State :=
  let s1 := s.makeRoom l1 line
  let x := s1.l1Line l1 line
  let kept := if fresh || frozen then x.dirty else x.valid
  s1.setL1 l1 line { x with
    data := mergeLine x.data (lineOfBytes data) (~~~kept), valid := BitVec.allOnes 64
    frozen := x.frozen || (frozen && x.dirty == 0), ctx := if x.dirty = 0 then ctx else x.ctx }
/-- A near buffer keeps a copy of a line of a frozen page: 16 MiB, the one that has been there longest leaving (R1, R269; log 95, DESIGN
CHOICE). -/
def State.putNear (s : State) (die line : Nat) (data : List Byte) : State :=
  s.modDie die fun d =>
    let room : Tbl (BitVec 512) := if (d.near.get? line).isNone && decide (d.near.length ≥ 262144) then d.near.tail else d.near
    { d with near := Tbl.set room line (lineOfBytes data) }
/-- Whether the L1 copies of a page made before the page froze may still be about: its die's filter holds the page (R321, R326). -/
def State.freezing (s : State) (die pa : Nat) : Bool := (s.die die).filter.any fun f => f.1 == pageOf pa

/-- A FROZEN_LOST record (R325). -/
def State.frozenLost (s : State) (ctx src pa : Nat) : State :=
  s.logRecord ctx { words := [recWord0 2 src 1, BitVec.ofNat 64 pa, s.recWord2Ctx ctx 0, 0, 0, 0, 0, 0], origin := .none }
/-- The record of a write-back for a package that cannot be reached (R391). -/
def State.goneLost (s : State) (ctx pa : Nat) : State :=
  s.logRecord ctx { words := [recWord0 7 5 1, BitVec.ofNat 64 pa, s.recWord2Ctx ctx 0, 0, 0, 0, 0, 0], origin := .none }
/-- A write-back ends, of whose bytes home dropped `cold` because their page is frozen, and `gone` could not reach it. The last of those that
left their line together writes one record for each, at the lowest byte (R325, R391). -/
def State.wbDone (s : State) (a : Access) (cold gone : BitVec 64) (bad : Bool) : State :=
  let s1 := s.performed a [] bad
  let c := a.cold ||| cold
  let g := a.gone ||| gone
  match s1.accs.find? fun x => x.kind == .wb && x.batch == a.batch && !x.done with
  | some x => { s1 with accs := s1.accs.map fun y => if y.id = x.id then { y with cold := y.cold ||| c, gone := y.gone ||| g } else y }
  | none =>
    let s2 := if c = 0 then s1 else s1.frozenLost a.ctx 5 (lowByte a.pa c)
    if g = 0 then s2 else s2.goneLost a.ctx (lowByte a.pa g)
/-- Bytes that could not be written back are dropped from the L1, but for those written since (R391). -/
def State.dropBytes (s : State) (l1 line : Nat) (m : BitVec 64) : State :=
  let x := s.l1Line l1 line
  s.setL1 l1 line { x with valid := x.valid &&& ~~~(m &&& ~~~x.dirty), fill := [] }
/-- The remote side of an access: its request leaves, or the package cannot be reached (R390, R391). -/
def State.remote (s : State) (a : Access) (type : Nat) (payload : List Byte) : Option State :=
  if a.sent then none
  else if s.reachable (pkgOf a.pa) then
    some (({ s with accs := s.accs.map fun x => if x.id = a.id then { x with sent := true } else x } : State).sendLong
      (s.flitTo a.ctx (dieOf a.core) a.pa type 0 a.id (a.aux ||| stepBit (a.step.getD 0)) (payload ++ stepTail (a.step.getD 0))))
  else match a.kind with
    | .wb => some ((s.dropBytes a.core (lineOf a.pa) a.mask).wbDone a 0 a.mask true)
    | _ => some (s.failed a)
/-- A fill of a line leaves for another package: the line remembers it until it loses bytes (R279, R391). -/
def State.remoteFill (s : State) (a : Access) : Option State :=
  let l1 := s.l1Of a.core
  let line := lineOf a.pa
  if a.sent || !s.reachable (pkgOf a.pa) then s.remote a 1 []
  else
    let s1 := s.makeRoom l1 line
    let x := s1.l1Line l1 line
    (s1.setL1 l1 line { x with fill := x.fill ++ [a.id] }).remote a 1 []
/-- A fill that will not come is forgotten by its line. -/
def State.endFill (s : State) (a : Access) : State :=
  let l1 := s.l1Of a.core
  let x := s.l1Line l1 (lineOf a.pa)
  s.setL1 l1 (lineOf a.pa) { x with fill := x.fill.filter (· != a.id) }
/-- The payload of a WR flit: 64 data bytes and their mask (R387). -/
def wrPayload (off : Nat) (bs : List Byte) : List Byte :=
  bytesOf 64 (ofBytes bs <<< (8 * off)) ++ bytesOf 8 (((2 ^ bs.length - 1) <<< off))

/-- A read performed at l1 (R141, R267, R269). What an L1 holds of a page that may have frozen since does not serve it, unless it is a
frozen copy: the line's dirty bytes go home, and it is filled anew (R326). -/
def State.readL1 (s : State) (a : Access) : Option State :=
  let l1 := s.l1Of a.core
  let line := lineOf a.pa
  let x := s.l1Line l1 line
  let need := byteMask (a.pa % 64) a.w
  let die := dieOf a.core
  let fresh := !x.frozen && s.freezing die a.pa
  let done (s : State) : State :=
    (s.performed a (a.apps.map fun p => (p.1, (s.l1Line l1 line).bytes (a.pa % 64) a.w)) false).afterRead a
  if x.bad &&& need ≠ 0 then some (((s.addError line a.ctx).setL1 l1 line {}).failed a)
  else if need &&& ~~~x.valid = 0 && !fresh then some (done s)
  else if fresh && x.dirty != 0 then some (s.wbLine l1 line)
  else if !(s.wbs l1 line).isEmpty then none
  else match (s.die die).near.get? line with
    | some d => some (done (s.fillL1 l1 line a.ctx fresh (bytesOf 64 d.toNat) true))
    | none =>
      if pkgOf a.pa ≠ s.pkg then s.remoteFill a
      else if s.lineBad a.pa then some ((s.found a.ctx a.pa).failed a)
      else
        let data := s.homeLine a.pa
        let sealed := s.pageState (pageOf a.pa) == 2
        let s1 := s.fillL1 l1 line a.ctx fresh data sealed
        some (done (if sealed then (s1.holdDie (pageOf a.pa) die).putNear die line data else s1))
/-- The marks of a line after a store of a group to some bytes (R363). -/
def addMark (ms : List Mark) (k : Mark) : List Mark :=
  match ms.find? fun m => m.gid == k.gid && m.epoch == k.epoch with
  | some m => (ms.filter fun x => !(x.gid == k.gid && x.epoch == k.epoch)) ++ [{ m with first := min m.first k.first, mask := m.mask ||| k.mask }]
  | none => ms ++ [k]
/-- The least name of a group that is no longer resident but has operations outstanding. -/
def ghostBase : Nat := 2 ^ 20
/-- Whether a store performed now in an L1 leaves for home at once: one older than its group's last PBAR, or than a PFLUSH or STEPCM of it
that waits, and one of a group that has retired (R335, R363, R364). -/
def State.lateStore (s : State) (a : Access) : Bool :=
  decide (ghostBase ≤ a.gid) || decide (a.epoch < (s.group a.gid).epoch) ||
    (s.ctx a.ctx).psq.any fun p => p.kind != 2 && p.gid == a.gid && decide (a.id < p.id)
/-- A late store's line leaves. Write-backs of its line still here that hold its bytes give those up to the new one, and what waits for
them waits for that too: younger bytes wait for older ones (R363), so the older ones must not wait for them. -/
def State.sendLate (s : State) (l1 line : Nat) (m : BitVec 64) : State :=
  let hit (a : Access) : Bool := a.kind == .wb && !a.done && !a.sent && a.core == l1 && lineOf a.pa == line && a.mask &&& m != 0
  let old := (s.accs.filter hit).map (·.id)
  let s1 : State := { s with accs := s.accs.map fun a => if hit a then { a with mask := a.mask &&& ~~~m } else a }
  let s2 := s1.wbLine l1 line
  let new := (s2.accs.filter fun a => decide (s1.nextId ≤ a.id)).map (·.id)
  { s2 with accs := s2.accs.map fun a => if a.deps.any old.contains then { a with deps := a.deps ++ new } else a }
/-- A write performed at l1: it allocates without a fill (R267). -/
def State.writeL1 (s : State) (a : Access) : State :=
  let l1 := s.l1Of a.core
  let line := lineOf a.pa
  let s0 := s.makeRoom l1 line
  let x := s0.l1Line l1 line
  let m := byteMask (a.pa % 64) a.w
  let y := x.undirty m
  let s1 := s0.setL1 l1 line { y with
    data := mergeLine x.data (placeBytes (a.pa % 64) a.data) m, valid := x.valid ||| m, dirty := y.dirty ||| m
    frozen := false, marks := addMark y.marks { gid := a.gid, grid := a.grid, epoch := a.epoch, first := a.id, mask := m }, ctx := a.ctx }
  (if s.lateStore a then s1.sendLate l1 line m else s1).performed a [] false
/-- A write performed at home (R266, R357, R368). -/
def State.writeHome (s : State) (a : Access) : Option State :=
  let st := a.step.getD 0
  if pkgOf a.pa ≠ s.pkg then if s.inOrder a then s.remote a 3 (wrPayload (a.pa % 64) a.data) else none
  else if s.sweeping a.pa then none
  else if s.anyBad (s.writePas a.pa a.data.length st) then some ((s.foundAll a.ctx (s.writePas a.pa a.data.length st)).failed a)
  else if !s.mayEnter a then none
  else match s.writeCells a.pa st a.data with
    | none => none
    | some cells => some (((s.homeCells cells).updateCopy (s.l1Of a.core) a.pa a.data false).performed a [] false)
/-- A RED that cannot be applied is dropped and logged: KIND 2 where its page is frozen, KIND 4 for lost data (R314, R325). -/
def State.logRed (s : State) (a : Access) (kind acc : Nat) : State :=
  match a.kind with
  | .red _ _ => s.logRecord a.ctx { words := [recWord0 kind 6 acc, BitVec.ofNat 64 a.pa, s.recWord2Ctx a.ctx 0, 0, 0, 0, 0, 0], origin := .none }
  | _ => s
/-- An atomic performed at home (R147, R284); one that finds its line in the error set fails, and a RED is logged (R314). -/
def State.atomHome (s : State) (a : Access) (aop aty : Nat) : Option State :=
  let st := a.step.getD 0
  let pas := s.readPas a.pa st ++ s.writePas a.pa a.w st
  if pkgOf a.pa ≠ s.pkg then if s.inOrder a then s.remote a 5 (a.apps.flatMap Prod.snd) else none
  else if s.sweeping a.pa then none
  else if s.anyBad pas then some (((s.foundAll a.ctx pas).logRed a 4 2).performed a [] true)
  else if !s.mayEnter a then none
  else
    let (new, res) := atomApply aop aty (ofBytes (s.homeRead a.pa a.w st)) a.apps
    match s.writeCells a.pa st (bytesOf a.w new) with
    | none => none
    | some cells => some ((((s.homeCells cells).updateCopy (s.l1Of a.core) a.pa (bytesOf a.w new) false).performed a res false).afterRead a)
/-- A write-back performed at home (R267, R324, R325, R357). -/
def State.wbHome (s : State) (a : Access) : Option State :=
  let cells := (a.data.mapIdx fun i b => (a.pa + i, b)).filter fun c => a.mask.getLsbD (c.1 - a.pa)
  if pkgOf a.pa ≠ s.pkg then if s.inOrder a then s.remote a 3 (a.data ++ bytesOf 8 a.mask.toNat) else none
  else if cells.isEmpty then some (s.wbDone a 0 0 false)
  else if 2 ≤ s.pageState (pageOf a.pa) then some (s.wbDone a a.mask 0 false)
  else if s.lineBad a.pa then some ((s.found a.ctx a.pa).wbDone a 0 0 true)
  else if !s.mayEnter a then none
  else some ((s.homeCells cells).wbDone a 0 0 false)
/-- The write-back part of a release (R268): what follows it waits for every write-back it finds or makes. -/
def State.relPart (s : State) (a : Access) : State :=
  let l1 := s.l1Of a.core
  let s1 := (s.wbAll l1).performed a [] false
  let ids := s1.allWbs l1
  { s1 with accs := s1.accs.map fun x => if x.deps.contains a.id then { x with deps := x.deps ++ ids } else x }
/-- A read performed at home (R141, R266). -/
def State.readHome (s : State) (a : Access) : Option State :=
  let st := a.step.getD 0
  if pkgOf a.pa ≠ s.pkg then s.remote a 1 []
  else if s.sweeping a.pa then none
  else if s.anyBad (s.readPas a.pa st) then some ((s.foundAll a.ctx (s.readPas a.pa st)).failed a)
  else
    let bs := s.homeRead a.pa a.w st
    some ((s.performed a (a.apps.map fun p => (p.1, bs)) false).afterRead a)
/-- Before a home load or atomic reads, the dirty bytes that the issuing L1 holds of its line go home; then the line is
invalid there (R141, R267). -/
def State.flushFirst (s : State) (a : Access) (k : State → Option State) : Option State :=
  let l1 := s.l1Of a.core
  if a.sent then none
  else if (s.l1Line l1 (lineOf a.pa)).dirty ≠ 0 then some (s.wbLine l1 (lineOf a.pa))
  else if !(s.wbs l1 (lineOf a.pa)).isEmpty then none
  else k (s.dropLine l1 a.pa)
/-- A store at home follows the write-backs of its line; before one leaves for another package the dirty bytes of its line go home
(R276). -/
def State.storeHome (s : State) (a : Access) : Option State :=
  let l1 := s.l1Of a.core
  if !a.sent && pkgOf a.pa != s.pkg && (s.l1Line l1 (lineOf a.pa)).dirty != 0 then some (s.wbLine l1 (lineOf a.pa))
  else if (s.wbs l1 (lineOf a.pa)).isEmpty then s.writeHome a else none
/-- What performing an access makes of the state; none when it cannot be performed now. -/
def State.performNow (s : State) (a : Access) : Option State :=
  if a.done || a.deps.any s.pendingId then none else
  match a.kind with
  | .read => if a.home then s.flushFirst a fun s => s.readHome a else s.readL1 a
  | .write => if a.home then s.storeHome a else some (s.writeL1 a)
  | .atom aop aty => s.flushFirst a fun s => s.atomHome a aop aty
  | .red aop aty => s.flushFirst a fun s => s.atomHome a aop aty
  | .drop discard =>
    if discard then some ((s.dropLine (s.l1Of a.core) a.pa).performed a [] false)
    else s.flushFirst a fun s => some (s.performed a [] false)
  | .wb => s.wbHome a
  | .rel => some (s.relPart a)
  | .relWait => some (s.performed a [] false)

/-- The accesses under way that are performed before a new access of these lanes (R273, R276): acquires, accesses of a
common byte, and for a release every one. -/
def State.depsOf (s : State) (gid : Nat) (lanes : Mask) (pa w : Nat) (rel : Bool) : List Nat :=
  ((s.accs.filter fun a => !a.done && a.gid == gid && a.lanes &&& lanes != 0 &&
      (rel || ((a.sem == 1 || a.sem == 3) && (match a.kind with | .red _ _ => false | .write => false | _ => true)) ||
        (decide (a.pa < pa + w) && decide (pa < a.pa + a.w)))).map (·.id))
  ++ ((s.spads.filter fun m => !m.done && m.gid == gid && m.lanes &&& lanes != 0 && (rel || m.acq)).map (·.id))
  ++ (if rel then (s.redos.filter fun m => m.gid == gid && lanes.getLsbD m.lane).map (·.id) else [])
/-- Starts the write-back part of a release of these lanes: what the release itself waits for (R268). -/
def State.startRelease (s : State) (gid core : Nat) (lanes : Mask) (sco : Nat) : List Nat × State :=
  let before := s.depsOf gid lanes 0 0 true
  let l1 := s.l1Of core
  if !s.wide core sco || (before.isEmpty && (s.allWbs l1).isEmpty && (s.core l1).l1.all fun l => l.2.dirty == 0) then (before, s)
  else
    let (a, s1) := s.newId
    let (b, s2) := s1.newId
    let mk (id : Nat) (k : AccKind) (deps : List Nat) : Access :=
      { id := id, kind := k, gid := gid, core := core, ctx := (s.group gid).ctx, lanes := lanes, pa := 0, va := 0, w := 0,
        apps := [], home := false, sco := sco, sem := 0, last := false, load := none, deps := deps, epoch := 0, step := none }
    ([b], { s2 with accs := s2.accs ++ [mk a .rel before, mk b .relWait [a]] })

/-- A line that something reads at another package's home, at a step: an RD leaves, and what comes back is kept for it (R307, R367, R391). -/
def State.askFor (s : State) (o : Origin) (core ctx pa st : Nat) : State :=
  let (id, s1) := s.newId
  let a : Access :=
    { id := id, kind := .read, gid := 0, core := core, ctx := ctx, lanes := 0, pa := lineOf pa * 64, va := 0, w := 64, apps := [(0, [])]
      home := true, sco := 0, sem := 0, last := false, load := none, deps := [], epoch := 0, step := s.carried pa st, keep := o }
  let s2 : State := { s1 with accs := s1.accs ++ [a] }
  (s2.remote a 1 []).getD s2
/-- The answer that something has for a line it asked for. -/
def State.keptOf (s : State) (o : Origin) (pa : Nat) : Option Access := s.kept.find? fun a => a.keep == o && lineOf a.pa == lineOf pa
/-- The lines of other packages that something needs and has not asked for. -/
def State.toAsk (s : State) (o : Origin) (pas : List Nat) : List Nat :=
  ((pas.filter fun pa => pkgOf pa != s.pkg).map lineOf).dedup.filter fun l =>
    (s.keptOf o (64 * l)).isNone && !s.accs.any fun a => a.keep == o && lineOf a.pa == l
/-- What is still to do before something can use lines of its own and other packages: ask for those it has not asked for, or wait; none
when every line is here. -/
def State.needLines (s : State) (o : Origin) (core ctx st : Nat) (pas : List Nat) : Option State :=
  if pas.all fun pa => pkgOf pa == s.pkg || (s.keptOf o pa).isSome then none
  else some ((s.toAsk o pas).foldl (fun s l => s.askFor o core ctx (64 * l) st) s)
/-- Bytes within one line, read at home or brought from another package, or why they cannot be had (R309, R314, R390). -/
def State.lineBytes (s : State) (o : Origin) (pa n st : Nat) : Except Cause (List Byte) :=
  if pkgOf pa = s.pkg then if s.anyBad (s.readPas pa st) then .error .dataError else .ok (s.homeRead pa n st)
  else match s.keptOf o pa with
    | none => .error .dataError
    | some a => match a.result with
      | (c, bs) :: _ => if a.failed then .error ((Cause.ofCode c).getD .dataError) else .ok ((bs.drop (pa % 64)).take n)
      | [] => .error .dataError
/-- Something is finished with the lines it asked for. -/
def State.dropKept (s : State) (o : Origin) : State :=
  { s with kept := s.kept.filter (·.keep != o), accs := s.accs.map fun a => if a.keep = o then { a with keep := .none } else a }
/-- What is still to do before an instruction of a core reads lines at home: the dirty bytes that its L1 holds of them go home first
(R141, R267), an enable sweep ends (R372), and other packages' lines come here; none when all is done. -/
def State.linesReady (s : State) (o : Origin) (core ctx st : Nat) (pas : List Nat) : Option State :=
  let l1 := s.l1Of core
  if pas.any fun pa => (s.l1Line l1 (lineOf pa)).dirty != 0 then some (pas.foldl (fun s pa => s.wbLine l1 (lineOf pa)) s)
  else if pas.any fun pa => !(s.wbs l1 (lineOf pa)).isEmpty || s.sweeping pa then some s
  else s.needLines o core ctx st pas
/-- Lines have been read at home for an instruction of a core: they are invalid in its L1 (R267), and what was brought is used up. -/
def State.linesRead (s : State) (o : Origin) (core : Nat) (pas : List Nat) : State :=
  (pas.foldl (fun s pa => s.dropClean (s.l1Of core) pa) s).dropKept o

end Sys2Proof.Machine
end

