-- ==== Sys2Proof/Machine/Loads.lean ====
section
/-! DEFINITION. Register-targeted loads and the settle points that commit them (R140, R159 to R162, R181, R314). -/

namespace Sys2Proof.Machine

/-- The words a load writes from the bytes it read: sign-extended for b8s and b16s (R140). -/
def loadWords (wd n : Nat) (bs : List Byte) : List Word :=
  let v := ofBytes bs
  let x := match wd with | 1 => wrapTo 32 (signedOf 8 v) | 3 => wrapTo 32 (signedOf 16 v) | _ => v
  (List.range n).map fun k => BitVec.ofNat 32 (x >>> (32 * k))

/-- A register-targeted load that would be the 33rd acts as a settle point before it issues (R160). -/
def withLoadRoom (eff : Iss → State → Eff) : Iss → State → Eff := fun i s =>
  if s.loadCount i < 32 then eff i s
  else if !(s.group i.gid).settleReady i.handler i.active then .wait s
  else match s.settle i with
    | (s1, some t) => .trap t s1
    | (s1, none) => if s1.loadCount i < 32 then eff i s1 else .wait s1
/-- Maps the names of a load's destination when it issues (R179). -/
def State.mapDest (s : State) (i : Iss) : State :=
  if i.handler then s else
  (i.ins.dsts.filter (decide <| · < 128)).foldl (fun s n => (s.mapName i n).modGroup i.gid fun g => match g.name? n with
    | some e => { g with names := g.names.set n { e with live := e.live ||| i.active } }
    | none => g) s
/-- Enters a load of lanes: its destination, lanes, addresses and width. -/
def State.newLoad (s : State) (i : Iss) (lanes : Mask) (addrs : List (Nat × Nat)) (wd : Nat) : Nat × State :=
  let (id, s1) := s.newId
  let l : PLoad :=
    { seq := id, handler := i.handler, uni := false, dst := i.ins.d, n := i.ins.dsts.length, lanes := lanes, got := 0,
      vals := [], bad := 0, addrs := addrs.map fun a => (a.1, BitVec.ofNat 64 a.2), wd := wd }
  (id, s1.modGroup i.gid fun g => { g with loads := g.loads ++ [l] })
/-- Enters a load that targets uniform registers (R160): `dst` and `n` say where a returned access is written. -/
def State.newUniLoad (s : State) (i : Iss) (dst n addr wd : Nat) : Nat × State :=
  let (id, s1) := s.newId
  let l : PLoad :=
    { seq := id, handler := i.handler, uni := true, dst := dst, n := n, lanes := 0, got := 0,
      vals := [], bad := 0, addrs := [(0, BitVec.ofNat 64 addr)], wd := wd }
  (id, s1.modGroup i.gid fun g => { g with loads := g.loads ++ [l] })
/-- What has returned for lanes that have exited is discarded: a load that owes no lane any more goes, and names that only it kept are
freed (R98, R181). -/
def Group.dropExited (g : Group) (seq : Nat) : Group :=
  match g.loads.find? fun l => l.seq == seq && !l.uni && l.gone &&& l.got != 0 with
  | none => g
  | some l =>
    let owe (x : PLoad) : PLoad := if x.seq = seq then { x with lanes := x.lanes &&& ~~~(x.gone &&& x.got) } else x
    let g1 : Group := { g with loads := (g.loads.map owe).filter fun x => x.seq != seq || x.lanes != 0 }
    if l.handler || l.dst = 288 then g1 else (List.range l.n).foldl (fun g k => g.freeName (l.dst + k)) g1
/-- What has come back for exited lanes of a load goes (R98). -/
def State.dropExited (s : State) (gid : Nat) (load : Option Nat) : State :=
  match load with
  | some seq => s.modGroup gid fun g => g.dropExited seq
  | none => s
/-- Data returns for a load (R159): lane values, or the writes of a uniform load. Data for no load is discarded (R98). -/
def State.returnLoad (s : State) (gid seq : Nat) (res : List (Nat × List Byte)) (bad : Bool) : State :=
  if (s.groups.get? gid).isNone then s else
  let m := Mask.ofFn fun k => res.any fun r => r.1 == k
  s.modGroup gid fun g => { g with loads := g.loads.map fun (l : PLoad) =>
    if l.seq ≠ seq then l
    else if l.uni then
      { l with got := 1, bad := if bad then 1 else l.bad
               vals := if l.dst = 288 then [] else [(l.dst, loadWords l.wd l.n ((res.map Prod.snd).headD []))] }
    else
      { l with got := l.got ||| m, bad := if bad then l.bad ||| m else l.bad
               vals := l.vals ++ res.map fun r => (r.1, loadWords l.wd l.n r.2) } }
/-- A uniform load whose result is known: the writes it commits (R160). -/
def State.returnWords (s : State) (gid seq : Nat) (ws : List (Nat × List Word)) : State :=
  if (s.groups.get? gid).isNone then s else
  s.modGroup gid fun g => { g with loads := g.loads.map fun (l : PLoad) =>
    if l.seq = seq then { l with got := 1, vals := ws.filter fun w => w.1 != 288 } else l }

end Sys2Proof.Machine
end

