-- ==== Sys2Proof/Machine/Spad.lean ====
section
/-! DEFINITION. The scratchpad of a block, its full/empty words, and accesses to it (R139, R145, R146, R199 to R205). -/

namespace Sys2Proof.Machine

/-- The rank a scratchpad address names (R139). -/
def spadRank (addr : Nat) : Nat := addr / 2 ^ 24 % 256
/-- The byte offset it names. -/
def spadOff (addr : Nat) : Nat := addr % 2 ^ 24
/-- NR of a block (R199). -/
def Block.nr (b : Block) : Nat := b.cores.length
/-- Whether an access lies wholly within a rank's allocation (R199). -/
def Block.spadOk (b : Block) (addr w : Nat) : Bool := decide (spadRank addr < b.nr) && decide (spadOff addr + w ≤ b.spad)
/-- The bytes at a scratchpad address. -/
def Block.read (b : Block) (addr w : Nat) : List Byte := Mem.reads (b.bytes.getD (spadRank addr) []) (spadOff addr) w
/-- Writes bytes; a word written whole loses its error (R314). -/
def Block.write (b : Block) (addr : Nat) (bs : List Byte) : Block :=
  { b with
    bytes := b.bytes.set (spadRank addr) (Mem.writes (b.bytes.getD (spadRank addr) []) (spadOff addr) bs)
    bad := b.bad.filter fun w => !(decide (addr ≤ 4 * w) && decide (4 * w + 4 ≤ addr + bs.length)) }
/-- Whether some word of an access fails its check (R314). -/
def Block.badAt (b : Block) (addr w : Nat) : Bool := b.bad.any fun k => decide (4 * k < addr + w) && decide (addr < 4 * k + 4)
/-- Whether the word at an address is full (R145). -/
def Block.isFull (b : Block) (addr : Nat) : Bool := (b.full.getD (spadRank addr) []).contains (spadOff addr / 4)
/-- Sets the full/empty bit of the word at an address. -/
def Block.setFull (b : Block) (addr : Nat) (v : Bool) : Block :=
  let l := b.full.getD (spadRank addr) []
  let k := spadOff addr / 4
  { b with full := b.full.set (spadRank addr) (if v then (if l.contains k then l else l ++ [k]) else l.filter (· != k)) }
/-- The core that serves a scratchpad address. -/
def Block.coreOf (b : Block) (addr : Nat) : Nat := b.cores.getD (spadRank addr) 0

/-- SADDR of a lane (R139). -/
def Regs.saddr (r : Regs) (i : Iss) (l : Nat) : Nat := (r.x i.ins.a l + r.x i.ins.b l).toNat
/-- GADDR of a lane (R139). -/
def Regs.gaddr (r : Regs) (i : Iss) (l : Nat) : Nat :=
  wrapTo 64 ((r.xs i.ins.a 2 l : Int) + signedOf 32 (r.x i.ins.b l).toNat)
/-- The block of an issuing split. -/
def State.blockOf (s : State) (i : Iss) : Block := s.block (s.group i.gid).blk
/-- The pre-check trap over lanes that fail it (R150 step 1). -/
def Iss.precheck (i : Iss) (c : Cause) (uni : Bool) (bad : List (Nat × Nat)) : Option Trap :=
  match bad with
  | [] => none
  | (_, a) :: _ => some { i.trap c (BitVec.ofNat 64 a) with lanes := if uni then i.active else Mask.ofFn fun l => bad.any fun b => b.1 == l }
/-- MISALIGN among the lanes of an access (R140, R150). -/
def Iss.misaligned (i : Iss) (uni : Bool) (w : Nat) (lanes : List (Nat × Nat)) : Option Trap :=
  i.precheck .misalign uni (lanes.filter fun a => a.2 % w != 0)
/-- EXTENT among the lanes of a scratchpad access (R150, R199). -/
def Iss.outOfExtent (i : Iss) (b : Block) (w : Nat) (lanes : List (Nat × Nat)) : Option Trap :=
  i.precheck .extent false (lanes.filter fun a => !b.spadOk a.2 w)
/-- The executing lanes with an address each. -/
def Iss.addrs (i : Iss) (f : Nat → Nat) : List (Nat × Nat) := i.exec.lanes.map fun l => (l, f l)

/-- Performs a scratchpad access at its bank (R202, R203): what each lane receives, and whether a word it read failed. -/
def Block.perform (b : Block) (m : SpadMsg) : Block × List (Nat × List Byte) × Bool :=
  match m.kind with
  | 0 => (b, m.apps.map fun a => (a.1, b.read m.addr m.w), b.badAt m.addr m.w)
  | 1 => (m.apps.foldl (fun b a => b.write m.addr a.2) b, [], false)
  | 3 => ((List.range (m.w / 4)).foldl (fun b k => b.setFull (m.addr + 4 * k) (m.aop == 1)) b, [], false)
  | 4 => (b, [], false)
  | _ =>
    if b.badAt m.addr m.w then (b, m.apps.map fun a => (a.1, []), true)
    else
      let (new, res) := atomApply m.aop m.aty (ofBytes (b.read m.addr m.w)) m.apps
      (b.write m.addr (bytesOf m.w new), res, false)
/-- The scratchpad accesses that a new one of these lanes follows: acquires, and those of its own to the same rank (R204,
R273); for a release every one. -/
def State.spadDeps (s : State) (gid : Nat) (lanes : Mask) (addr : Nat) : List Nat :=
  s.depsOf gid lanes 0 0 false ++
    (s.spads.filter fun m => !m.done && m.gid == gid && m.lanes &&& lanes != 0 && spadRank m.addr == spadRank addr).map (·.id)
/-- Performs an access at its bank now, with its acquire; a load's data returns. -/
def State.spadPerform (s : State) (m : SpadMsg) (core : Nat) : State :=
  let (b, res, bad) := (s.block m.blk).perform m
  let s1 := s.setBlock m.blk b
  let s2 := match m.load with | some seq => s1.returnLoad m.gid seq res bad | none => s1
  if m.acq then s2.acquire core m.sco 1 else s2
/-- Issues an access: at once on the own core when nothing precedes it, else as one under way (R202, R204). -/
def State.spadIssue (s : State) (i : Iss) (m : SpadMsg) (rel : List Nat) : State :=
  let deps := rel ++ s.spadDeps i.gid m.lanes m.addr
  if deps.isEmpty && (s.block m.blk).coreOf m.addr == i.core then s.spadPerform m i.core
  else
    let (id, s1) := s.newId
    { s1 with spads := s1.spads ++ [{ m with id := id, deps := deps }] }
/-- A scratchpad message of an issuing split for one location. -/
def Iss.spadMsg (i : Iss) (s : State) (kind addr w : Nat) (apps : List (Nat × List Byte)) (load : Option Nat) : SpadMsg :=
  { id := 0, kind := kind, gid := i.gid, src := i.core, blk := (s.group i.gid).blk
    lanes := Mask.ofFn fun l => apps.any fun a => a.1 == l
    addr := addr, w := w, apps := apps, aop := i.ins.wd, aty := i.ins.aty, load := load
    acq := i.ins.sem == 1 || (i.ins.sem == 3 && i.ins.op == 0x98), sco := i.ins.sco }
/-- What a release of the executing lanes waits for, when the instruction is one (R268). -/
def State.releaseFor (s : State) (i : Iss) : List Nat × State :=
  if (i.ins.sem = 2 ∨ i.ins.sem = 3) ∧ i.exec ≠ 0 then s.startRelease i.gid i.core i.exec i.ins.sco else ([], s)

/-- The greatest absolute value of FP32 words, NaN above every number, as recorded in the scale table (R262). -/
def absMax (ws : List Nat) : Nat :=
  ws.foldl (fun m w => let a := w % 2 ^ 31; max m (if a > 0x7F800000 then Fmt.fp32.nanBits else a)) 0
/-- Whether recordings of a group's earlier stores are still to be applied (R264). -/
def Group.recording (g : Group) : Bool := g.tl.any fun o => o.amx.isSome
/-- Records a value at an entry of the context's scale table (R262). -/
def State.recordScale (s : State) (ctx idx v : Nat) : State :=
  s.modCtx ctx fun c =>
    let k := 12 * idx + c.scale.cur
    { c with scale := { c.scale with pos := c.scale.pos.set k (BitVec.ofNat 32 (max (c.scale.pos.getD k 0).toNat v)) } }
/-- Hangs a recording on the last TL operation of a queue that has one of its own (R264). -/
def hangRecord : List TlOp → Nat → Nat → List TlOp
  | [], _, _ => []
  | o :: r, idx, v =>
    if o.amx.isSome && !r.any (fun x => x.amx.isSome) then { o with after := o.after ++ [(idx, v)] } :: r
    else o :: hangRecord r idx v
/-- An armed store records the greatest absolute value of its completed lanes (R262), after the recordings of the group's
earlier stores (R264). -/
def State.recordStore (s : State) (i : Iss) (vals : List Nat) : State :=
  let g := s.group i.gid
  if g.amxEn && !i.handler && i.ins.wd == 4 && !vals.isEmpty then
    if g.recording then s.modGroup i.gid fun g => { g with tl := hangRecord g.tl g.amxIdx (absMax vals) }
    else s.recordScale g.ctx g.amxIdx (absMax vals)
  else s

/-- LDS (R143). -/
def ldsEff : Iss → State → Eff := withLoadRoom <| capped Ins.dsts fun i s =>
  let r := s.regs i
  let w := wdBytes i.ins.wd
  let la := i.addrs (r.saddr i)
  match i.misaligned false w la, i.outOfExtent (s.blockOf i) w la with
  | some t, _ => .trap t s
  | none, some t => .trap t s
  | none, none =>
    let s1 := s.mapDest i
    if i.exec = 0 then .done s1
    else
      let (seq, s2) := s1.newLoad i i.exec la i.ins.wd
      let (rel, s3) := s2.releaseFor i
      .done (la.foldl (fun s a => s.spadIssue i (i.spadMsg s 0 a.2 w [(a.1, [])] (some seq)) rel) s3)
/-- The bytes a lane stores: the low `w` bytes of C (R140). -/
def Regs.data (r : Regs) (i : Iss) (w l : Nat) : List Byte := bytesOf w (r.xs i.ins.c i.ins.width l)
/-- STS (R143). -/
def stsEff : Iss → State → Eff := fun i s =>
  let r := s.regs i
  let w := wdBytes i.ins.wd
  let la := i.addrs (r.saddr i)
  match i.misaligned false w la, i.outOfExtent (s.blockOf i) w la with
  | some t, _ => .trap t s
  | none, some t => .trap t s
  | none, none =>
    let (rel, s1) := s.releaseFor i
    let mine (s : State) (a : Nat) : List Nat := ((s.spads.drop s1.spads.length).filter (·.addr == a)).map (·.id)
    let s2 := la.foldl (fun s a => s.spadIssue i (i.spadMsg s 1 a.2 w [(a.1, r.data i w a.1)] none) (rel ++ mine s a.2)) s1
    .done (s2.recordStore i (la.map fun a => r.xs i.ins.c 1 a.1))
/-- The lanes of an atomic grouped by location, in the order of their lowest lanes (R147). -/
def groupBy (la : List (Nat × Nat)) : List (Nat × List Nat) :=
  ((la.map Prod.snd).dedup).map fun a => (a, (la.filter fun x => x.2 == a).map Prod.fst)
/-- The operand bytes of an atomic in a lane. -/
def Regs.operand (r : Regs) (i : Iss) (l : Nat) : List Byte :=
  let n := i.ins.count (.reg true true true 9)
  bytesOf (4 * n) (r.xs i.ins.c n l)
/-- The lanes of an atomic without a load whose words fail their check, reported as it issues (R152, R314; log 69, DEDUCED). -/
def Iss.badWords (i : Iss) (b : Block) (w : Nat) (la : List (Nat × Nat)) : Option Trap :=
  if i.ins.d = 288 then i.precheck .dataError false (la.filter fun a => b.badAt a.2 w) else none
/-- ATOMS (R147): with D = 288 it is no load (R140). -/
def atomsIssue : Iss → State → Eff := capped Ins.dsts fun i s =>
  let r := s.regs i
  let w := atyBytes i.ins.aty
  let la := i.addrs (r.saddr i)
  match i.misaligned false w la, i.outOfExtent (s.blockOf i) w la, i.badWords (s.blockOf i) w la with
  | some t, _, _ => .trap t s
  | none, some t, _ => .trap t s
  | none, none, some t => .trap t s
  | none, none, none =>
    let s1 := s.mapDest i
    if i.exec = 0 then .done s1
    else
      let (load, s2) := if i.ins.d = 288 then (none, s1) else let (seq, t) := s1.newLoad i i.exec la (wdOf w); (some seq, t)
      let (rel, s3) := s2.releaseFor i
      .done ((groupBy la).foldl (fun s a =>
        s.spadIssue i (i.spadMsg s 2 a.1 w (a.2.map fun l => (l, r.operand i l)) load) rel) s3)
/-- ATOMS: one that returns its old value needs room for a load (R140, R160). -/
def atomsEff : Iss → State → Eff := fun i s => if i.ins.d = 288 then atomsIssue i s else withLoadRoom atomsIssue i s

/-- The pre-checks of LDFE and STFE: alignment, then one rank and extent. Lanes that name another rank than the lowest lane's are
those EXTENT reports where there are any, else those outside the allocation (R145, R150, R205). -/
def Iss.feCheck (i : Iss) (b : Block) (la : List (Nat × Nat)) : Option Trap :=
  let other := match la with | [] => [] | (_, a) :: _ => la.filter fun x => spadRank x.2 != spadRank a
  match i.misaligned false 4 la with
  | some t => some t
  | none => if other.isEmpty then i.outOfExtent b 4 la else i.precheck .extent false other
/-- The core whose bank a scratchpad access goes to. -/
def State.spadTarget (s : State) (m : SpadMsg) : Nat := (s.block m.blk).coreOf m.addr
/-- Whether an access is on its way from a core to another, which keep the order of theirs (R204). -/
def State.onWay (s : State) (src tgt : Nat) (m : SpadMsg) : Bool :=
  !m.done && m.src == src && s.spadTarget m == tgt && !m.deps.any s.pendingId
/-- Whether the earlier accesses of the lanes let a full/empty operation be performed in order (R204, R273). -/
def State.feOrdered (s : State) (i : Iss) (la : List (Nat × Nat)) : Bool := la.all fun a => (s.spadDeps i.gid i.exec a.2).isEmpty
/-- Whether a full/empty operation acts on another core's bank. -/
def State.feAway (s : State) (i : Iss) (la : List (Nat × Nat)) : Bool := la.any fun a => (s.blockOf i).coreOf a.2 != i.core
/-- A LDFE or STFE leaves for another core's bank, once; it is performed there when it arrives, or at the end of a cycle that lets it
proceed (R202, R204). -/
def State.feSend (s : State) (i : Iss) (la : List (Nat × Nat)) : State :=
  let x := (s.group i.gid).slot i.slot
  let a := (la.map Prod.snd).headD 0
  if x.fesent.isSome || x.fearr then s
  else
    let (id, s1) := s.newId
    ({ s1 with spads := s1.spads ++ [{ i.spadMsg s 4 a 4 [] none with
        id := id, lanes := i.exec, aop := i.slot, acq := false, deps := s.spadDeps i.gid i.exec a }] } : State).modGroup i.gid fun g =>
      g.modSlot i.slot fun x => { x with fesent := some id }
/-- Whether the release an instruction waits for has been performed; the first test of a release starts its write-back and
answers what to wait for (R268). -/
def State.releaseDone (s : State) (i : Iss) (sco : Nat) : Bool × State :=
  match ((s.group i.gid).slot i.slot).mark with
  | some (pc, id) => if pc = i.pc then (!s.pendingId id, s) else
      (false, s.modGroup i.gid fun g => g.modSlot i.slot fun x => { x with mark := none })
  | none =>
    let (ids, s1) := s.startRelease i.gid i.core i.exec sco
    match ids with
    | [] => (true, s1)
    | id :: _ => if s.wide i.core sco then
        (false, s1.modGroup i.gid fun g => g.modSlot i.slot fun x => { x with mark := some (i.pc, id) })
      else (false, s)
/-- Whether LDFE or STFE can proceed: a failed check proceeds to its trap, no executing lane waits for nothing (R145). -/
def State.feReady (s : State) (i : Iss) : Bool :=
  let b := s.blockOf i
  let la := i.addrs ((s.regs i).saddr i)
  (i.feCheck b la).isSome || i.exec == 0 ||
    (s.feOrdered i la && (if i.ins.op = 0x94 then la.all fun a => b.isFull a.2
      else i.ins.pl == 1 || la.all fun a => !b.isFull a.2))
/-- Whether the words that a LDFE or STFE tests hold it up (R145). -/
def State.feBlocked (s : State) (i : Iss) : Bool :=
  let b := s.blockOf i
  let la := i.addrs ((s.regs i).saddr i)
  (i.feCheck b la).isNone && (if i.ins.op = 0x94 then la.any fun a => !b.isFull a.2 else i.ins.pl == 0 && la.any fun a => b.isFull a.2)
/-- Whether the step of a LDFE or STFE is done and it has only to issue (R202). -/
def State.feDone (s : State) (i : Iss) : Bool := ((s.group i.gid).slot i.slot).fedone
/-- Whether a LDFE or STFE that waits stalls its split: at its own core's bank as long as the words block it, at another's from its arrival
on (R86, R145, R202). -/
def State.feStalls (s : State) (i : Iss) : Bool :=
  if s.feAway i (i.addrs ((s.regs i).saddr i)) then ((s.group i.gid).slot i.slot).fearr else s.feBlocked i
/-- A LDFE that has been done issues: its load counts as issued (R159, R202). -/
def State.feIssued (s : State) (i : Iss) : State :=
  s.modGroup i.gid fun g => { g with loads := g.loads.map fun (l : PLoad) =>
    if l.early && l.handler == i.handler && l.lanes &&& i.active != 0 then { l with early := false } else l }
/-- LDFE at its bank: `here` says that its words are those of the issuing core, or that it has come to them (R145, R202). -/
def ldfeAt (here : Bool) : Iss → State → Eff := withLoadRoom <| capped Ins.dsts fun i s =>
  let la := i.addrs ((s.regs i).saddr i)
  let b := s.blockOf i
  match i.feCheck b la with
  | some t => .trap t s
  | none =>
    if !here && s.feAway i la then .wait (s.feSend i la)
    else if !s.feReady i then .wait s
    else
      let s1 := s.mapDest i
      if i.exec = 0 then .done s1
      else
        let (seq, s2) := s1.newLoad i i.exec la 4
        let s3 := la.foldl (fun s a => s.returnLoad i.gid seq [(a.1, b.read a.2 4)] (b.badAt a.2 4)) s2
        let s4 := if i.ins.pl = 1 then s3.modBlock (s.group i.gid).blk fun b => la.foldl (fun b a => b.setFull a.2 false) b else s3
        .done (s4.acquire i.core i.ins.sco i.ins.sem)
/-- LDFE (R145): one that has been done only goes on. -/
def ldfeEff : Iss → State → Eff := fun i s => if s.feDone i then .done (s.feIssued i) else ldfeAt false i s
/-- STFE at its bank: `here` says that its words are those of the issuing core, or that it has come to them (R145, R202). -/
def stfeAt (here : Bool) : Iss → State → Eff := fun i s =>
  let r := s.regs i
  let la := i.addrs (r.saddr i)
  match i.feCheck (s.blockOf i) la with
  | some t => .trap t s
  | none =>
    let away := !here && s.feAway i la
    if !away && !s.feReady i then .wait s
    else
      let store (s : State) : Eff := if away then .wait (s.feSend i la) else .done (s.modBlock (s.group i.gid).blk fun b =>
        la.foldl (fun b a => (b.write a.2 (bytesOf 4 (r.x i.ins.c a.1).toNat)).setFull a.2 true) b)
      if i.ins.sem = 2 ∧ i.exec ≠ 0 then match s.releaseDone i i.ins.sco with
        | (true, s1) => store s1
        | (false, s1) => .wait s1
      else store s
/-- STFE (R145): one that has been done only goes on. -/
def stfeEff : Iss → State → Eff := fun i s => if s.feDone i then .done s else stfeAt false i s
/-- FESET (R146). A misaligned start traps before C = 0 has no effect, and its traps report the active lanes (log 98, DESIGN
CHOICE). -/
def fesetEff : Iss → State → Eff := fun i s =>
  let r := s.regs i
  let start := r.saddr i 0
  let n := (r.x i.ins.c 0).toNat
  let b := s.blockOf i
  if i.exec = 0 then .done s
  else if start % 4 ≠ 0 then .trap (i.trap .misalign (BitVec.ofNat 64 start)) s
  else if n = 0 then .done s
  else if !b.spadOk start 4 then .trap (i.trap .extent (BitVec.ofNat 64 start)) s
  else if spadOff start + 4 * n > b.spad then
    .trap (i.trap .extent (BitVec.ofNat 64 (spadRank start * 2 ^ 24 + b.spad))) s
  else .done (s.spadIssue i { i.spadMsg s 3 start (4 * n) [] none with lanes := i.exec, aop := i.ins.pl, acq := false } [])

/-- LDS: issues in the split in focus. -/
def execLds (f : W64F) (s : State) := issue (insW64 0x92 f) ldsEff s
/-- STS: issues in the split in focus. -/
def execSts (f : W64F) (s : State) := issue (insW64 0x93 f) stsEff s
/-- LDFE: issues in the split in focus. -/
def execLdfe (f : W64F) (s : State) := issue (insW64 0x94 f) ldfeEff s
/-- STFE: issues in the split in focus. -/
def execStfe (f : W64F) (s : State) := issue (insW64 0x95 f) stfeEff s
/-- FESET: issues in the split in focus. -/
def execFeset (f : W64F) (s : State) := issue (insW64 0x96 f) fesetEff s
/-- ATOMS: issues in the split in focus. -/
def execAtoms (f : W64F) (s : State) := issue (insW64 0x98 f) atomsEff s

end Sys2Proof.Machine
end

