-- ==== Sys2Proof/Machine/Memory.lean ====
section
/-! DEFINITION. The global memory instructions: loads, stores, atomics, ordered reductions, FENCE, PREF and DROP (R138 to
R152, R283 to R287). -/

namespace Sys2Proof.Machine

/-- Whether an access is performed at home rather than at l1 (R141, R367). -/
def State.atHome (s : State) (i : Iss) (pa : Nat) : Bool :=
  i.ins.pl != 0 || s.wide i.core i.ins.sco || (s.carried pa 0).isSome
/-- The translation of each executing lane: what completes and what is unfinished (R150 step 2). -/
def State.lanesAt (s : State) (i : Iss) (n : Need) (la : List (Nat × Nat)) : List (Nat × Nat × Nat) × List (Nat × Nat × Cause) :=
  let g := s.group i.gid
  la.foldl (fun acc a => match s.laneAccess i.core g.ctx g.step.toNat n a.2 with
    | .ok pa => (acc.1 ++ [(a.1, a.2, pa)], acc.2)
    | .error c => (acc.1, acc.2 ++ [(a.1, a.2, c)])) ([], [])
/-- A global instruction: pre-checked, translated, its completed lanes performed, a trap on the others (R150). -/
def globalEff (n : Need) (uni : Bool) (w : Nat) (la : List (Nat × Nat)) (perform : State → List (Nat × Nat × Nat) → State) :
    Iss → State → Eff := fun i s =>
  match i.misaligned uni w la with
  | some t => .trap t s
  | none =>
    let (ok, bad) := s.lanesAt i n la
    let s1 := if ok.isEmpty && !bad.isEmpty then s else perform s ok
    if bad.isEmpty then .done s1 else s1.unfinished i n uni (!ok.isEmpty) bad
/-- An access of an issuing split. -/
def Iss.access (i : Iss) (s : State) (kind : AccKind) (lanes : Mask) (va pa w : Nat) (apps : List (Nat × List Byte)) (home : Bool)
    (load : Option Nat) : Access :=
  let g := s.group i.gid
  { id := 0, kind := kind, gid := i.gid, core := i.core, ctx := g.ctx, lanes := lanes, pa := pa, va := BitVec.ofNat 64 va, w := w
    apps := apps, home := home, sco := i.ins.sco, sem := i.ins.sem, last := false, load := load, deps := []
    epoch := g.epoch, step := s.carried pa g.step.toNat, m12 := i.ins.m12, grid := g.grid }
/-- The earlier GSTs of the group to a common byte: a GST comes after them, whichever splits issued them (R144). -/
def State.uniDeps (s : State) (a : Access) : List Nat :=
  if a.uni then (s.accs.filter fun b => b.uni && !b.done && b.gid == a.gid && decide (b.pa < a.pa + a.w) && decide (a.pa < b.pa + b.w)).map (·.id) else []
/-- An access starts: it waits for what precedes it, and for `more` (R273, R276). -/
def State.startAccess (s : State) (a : Access) (more : List Nat) : State :=
  let (id, s1) := s.newId
  { s1 with accs := s1.accs ++ [{ a with id := id, deps := more ++ s.depsOf a.gid a.lanes a.pa a.w false ++ s.uniDeps a }] }
/-- The accesses of the same instruction, issued since a name was taken, that touch a byte of an access (R143). -/
def State.sinceOverlap (s : State) (from_ pa w : Nat) : List Nat :=
  (s.accs.filter fun a => decide (from_ ≤ a.id) && decide (a.pa < pa + w) && decide (pa < a.pa + a.w)).map (·.id)
/-- One lane's bit. -/
def laneBit (l : Nat) : Mask := 1#32 <<< l

/-- LD (R143). -/
def ldEff : Iss → State → Eff := withLoadRoom <| capped Ins.dsts fun i s =>
  let la := i.addrs ((s.regs i).gaddr i)
  let w := wdBytes i.ins.wd
  globalEff .read false w la (fun s ok =>
    let s1 := s.mapDest i
    if ok.isEmpty then s1 else
    let (seq, s2) := s1.newLoad i (Mask.ofFn fun l => ok.any fun a => a.1 == l) (ok.map fun a => (a.1, a.2.1)) i.ins.wd
    ok.foldl (fun s a => s.startAccess { i.access s .read (laneBit a.1) a.2.1 a.2.2 w [(a.1, [])] (s.atHome i a.2.2) (some seq) with
      last := i.ins.lastBit } []) s2) i s
/-- ST (R143). -/
def stEff : Iss → State → Eff := fun i s =>
  let r := s.regs i
  let la := i.addrs (r.gaddr i)
  let w := wdBytes i.ins.wd
  globalEff .write false w la (fun s ok =>
    let (rel, s1) := s.releaseFor i
    let n := s1.nextId
    let s2 := ok.foldl (fun s a => s.startAccess (i.access s .write (laneBit a.1) a.2.1 a.2.2 w [(a.1, r.data i w a.1)] (s.atHome i a.2.2) none)
      (rel ++ s.sinceOverlap n a.2.2 w)) s1
    s2.recordStore i (ok.map fun a => r.xs i.ins.c 1 a.1)) i s
/-- The single access of a uniform form (R144). -/
def Iss.uniAddr (i : Iss) (r : Regs) : List (Nat × Nat) := if i.exec = 0 then [] else [(0, r.gaddr i 0)]
/-- GLD (R144). -/
def gldEff : Iss → State → Eff := fun i s =>
  let la := i.uniAddr (s.regs i)
  let w := wdBytes i.ins.wd
  if i.exec = 0 then .done s else
  withLoadRoom (globalEff .read true w la fun s ok =>
    let (seq, s1) := s.newUniLoad i i.ins.d i.ins.dsts.length ((la.map Prod.snd).headD 0) i.ins.wd
    ok.foldl (fun s a => s.startAccess { i.access s .read i.exec a.2.1 a.2.2 w [(0, [])] (s.atHome i a.2.2) (some seq) with
      last := i.ins.lastBit } []) s1) i s
/-- GST (R144). -/
def gstEff : Iss → State → Eff := fun i s =>
  let r := s.regs i
  let w := wdBytes i.ins.wd
  globalEff .write true w (i.uniAddr r) (fun s ok =>
    if ok.isEmpty then s else
    let (rel, s1) := s.releaseFor i
    let s2 := ok.foldl (fun s a =>
      s.startAccess { i.access s .write i.exec a.2.1 a.2.2 w [(0, r.data i w 0)] (s.atHome i a.2.2) none with uni := true } rel) s1
    s2.recordStore i [r.xs i.ins.c 1 0]) i s
/-- The accesses of an atomic: one per location, its lanes in increasing order (R147). -/
def State.startAtoms (s : State) (i : Iss) (r : Regs) (kind : AccKind) (load : Option Nat) (rel : List Nat)
    (ok : List (Nat × Nat × Nat)) : State :=
  (groupBy (ok.map fun a => (a.1, a.2.2))).foldl (fun s g =>
    let va := ((ok.find? fun a => a.2.2 == g.1).map (·.2.1)).getD 0
    s.startAccess (i.access s kind (Mask.ofFn fun l => g.2.contains l) va g.1 (atyBytes i.ins.aty)
      (g.2.map fun l => (l, r.operand i l)) true load) rel) s
/-- ATOM (R147): with D = 288 it is no load (R140), and lost data of its line is reported at issue as for a store (R150, R314). -/
def atomIssue : Iss → State → Eff := capped Ins.dsts fun i s =>
  let r := s.regs i
  let w := atyBytes i.ins.aty
  globalEff (if i.ins.d = 288 then .quiet else .atomic) false w (i.addrs (r.gaddr i)) (fun s ok =>
    let s1 := s.mapDest i
    if ok.isEmpty then s1
    else if i.ins.d = 288 then
      let (rel, s2) := s1.releaseFor i
      s2.startAtoms i r (.atom i.ins.wd i.ins.aty) none rel ok
    else
      let (seq, s2) := s1.newLoad i (Mask.ofFn fun l => ok.any fun a => a.1 == l) (ok.map fun a => (a.1, a.2.1)) (wdOf w)
      let (rel, s3) := s2.releaseFor i
      s3.startAtoms i r (.atom i.ins.wd i.ins.aty) (some seq) rel ok) i s
/-- ATOM: one that returns its old value needs room for a load (R140, R160). -/
def atomEff : Iss → State → Eff := fun i s => if i.ins.d = 288 then atomIssue i s else withLoadRoom atomIssue i s
/-- RED (R284). -/
def redEff : Iss → State → Eff := fun i s =>
  let r := s.regs i
  globalEff .atomic false (atyBytes i.ins.aty) (i.addrs (r.gaddr i)) (fun s ok =>
    let (rel, s1) := s.releaseFor i
    s1.startAtoms i r (.red i.ins.wd i.ins.aty) none rel ok) i s

/-- REDO (R285, R286): the contributions leave, and the split waits for their answers. -/
def redoEff : Iss → State → Eff := fun i s =>
  let r := s.regs i
  let g := s.group i.gid
  let la := i.addrs fun l => r.xs i.ins.a 2 l
  let tag (l : Nat) : Nat := (r.x i.ins.b l).toNat
  let w := atyBytes i.ins.aty
  let badIdx := la.filter fun a => decide (tag a.1 % 4096 > tag a.1 / 4096 % 4096)
  if !(g.slot i.slot).redo.isEmpty then .wait s else
  match i.misaligned false w la, i.precheck .illegalOperand false badIdx with
  | some t, _ => .trap t s
  | none, some t => .trap t s
  | none, none =>
    let (ok, bad) := s.lanesAt i .atomic la
    let (rel, s0) := if ok.isEmpty then ([], s) else s.releaseFor i
    let s1 := s0.modGroup i.gid fun g => g.modSlot i.slot fun x =>
      { x with taken := false, lost := if x.replay.isSome then x.lost else [], refused := if x.replay.isSome then x.refused else [] }
    let s2 := ok.foldl (fun s a =>
      let (id, s') := s.newId
      let m : RedoMsg :=
        { id := id, gid := i.gid, slot := i.slot, ctx := g.ctx, lane := a.1, va := BitVec.ofNat 64 a.2.1, pa := a.2.2
          aop := i.ins.wd, aty := i.ins.aty, rslot := tag a.1 / 2 ^ 24, n := tag a.1 / 4096 % 4096 + 1, idx := tag a.1 % 4096
          val := ofBytes (r.operand i a.1), sco := i.ins.sco, deps := rel ++ s.depsOf i.gid (laneBit a.1) a.2.2 w false
          core := i.core, m12 := i.ins.m12 }
      { s' with redos := s'.redos ++ [m] }.modGroup i.gid fun g => g.modSlot i.slot fun x => { x with redo := x.redo ++ [id] }) s1
    let hold (s : State) (t : Trap) : Eff := .wait (s.modGroup i.gid fun g => g.modSlot i.slot fun x => { x with redoAt := some t })
    match s2.unfinished i .atomic false (!ok.isEmpty) bad with
    | .trap t s3 => if ok.isEmpty then .trap t s3 else hold s3 t
    | _ => if ok.isEmpty then .done s2 else hold s2 { i.trap .illegalOperand 0 with lanes := 0 }
/-- Once every contribution of a slot is answered: the trap on its unfinished lanes, on those that no home took (R390, R405), or on its refused
ones, or the split goes on (R286, R287). Where several are there, they trap in that order, and a replay of the first alone brings the trap of
the next; with none accepted all of them are sent again (log 106, DEDUCED). -/
def State.redoAnswered (s : State) (gid slot : Nat) : State :=
  let g := s.group gid
  let x := g.slot slot
  if !x.redo.isEmpty then s else
  match x.redoAt with
  | none => s
  | some t =>
    let again := (t.rpl || t.lanes == 0) && (x.taken || x.replay.isSome)
    let s1 := s.modGroup gid fun g => g.modSlot slot fun x =>
      { x with redoAt := none, lost := if t.lanes ≠ 0 ∧ again then x.lost else []
               refused := if (t.lanes ≠ 0 ∨ x.lost ≠ []) ∧ again = false then [] else x.refused }
    let lanes (l : List (Nat × Nat × Cause)) : Mask := Mask.ofFn fun k => l.any fun b => b.1 == k
    if t.lanes ≠ 0 then s1.raise gid slot { t with rpl := again }
    else if x.lost ≠ [] then
      let c := (causeOrder.find? fun c => x.lost.any fun b => b.2.2 == c).getD .dataError
      let mine := x.lost.filter fun b => b.2.2 == c
      let low := mine.foldl (fun a b => if b.1 < a.1 then b else a) (mine.headD (0, 0, c))
      s1.raise gid slot { t with cause := c, addr := BitVec.ofNat 64 low.2.1, lanes := lanes x.lost, rpl := again }
    else match x.refused with
      | [] => s1.modGroup gid fun g => (g.moveSplit slot x.amask (x.spc + 8)).modSlot slot fun x => { x with replay := none }
      | r :: rs =>
        let low := rs.foldl (fun a b => if b.1 < a.1 then b else a) r
        (s1.modGroup gid fun g => g.modSlot slot fun x => { x with refused := [], replay := none }).raise gid slot
          { t with addr := BitVec.ofNat 64 low.2, lanes := Mask.ofFn fun l => x.refused.any fun b => b.1 == l }

/-- The accesses of lanes that a FENCE waits for as reads (R283): a RED, which returns nothing, is none (log 118, DESIGN CHOICE). -/
def State.readsUnder (s : State) (gid : Nat) (lanes : Mask) : Bool :=
  s.accs.any (fun a => !a.done && a.gid == gid && a.lanes &&& lanes != 0 && (match a.kind with | .read => true | .atom _ _ => true | _ => false))
  || s.spads.any fun m => !m.done && m.gid == gid && m.lanes &&& lanes != 0 && m.kind != 1
/-- FENCE (R283). -/
def fenceEff : Iss → State → Eff := fun i s =>
  if i.exec = 0 then .done s else
  let go (s : State) : Eff := if s.readsUnder i.gid i.exec && i.ins.sem != 2 then .wait s else .done (s.acquire i.core i.ins.sco i.ins.sem)
  if i.ins.sem = 1 then go s
  else match s.releaseDone i i.ins.sco with
    | (true, s1) => go s1
    | (false, s1) => .wait s1
/-- PREF (R149): at PL 0 the whole line is read into the issuing L1, for no register; a stepped line stays out of it (R367). At PL 1 the
home L2 takes the line: the model holds no L2 apart from memory (R266), so nothing changes. -/
def prefEff : Iss → State → Eff := fun i s =>
  let (ok, _) := s.lanesAt i .read ((i.addrs ((s.regs i).gaddr i)).filter fun a => a.2 % 4 == 0)
  .done (if i.ins.pl = 1 then s else
    (ok.filter fun a => (s.carried a.2.2 0).isNone).foldl (fun s a =>
      s.startAccess { i.access s .read 0 a.2.1 (lineOf a.2.2 * 64) 64 [] false none with sem := 0 } []) s)
/-- DROP (R149). -/
def dropEff : Iss → State → Eff := fun i s =>
  let la := ((i.addrs ((s.regs i).gaddr i)).filter fun a => a.2 % 4 == 0)
  let ok := la.filterMap fun a => match s.translate i.core (s.group i.gid).ctx .write a.2 with
    | .ok pa => some (a.1, a.2, pa) | .error _ => none
  .done (ok.foldl (fun s a => s.startAccess { i.access s (.drop i.ins.lastBit) (laneBit a.1) a.2.1 (lineOf a.2.2 * 64) 64 [] false none with
    sem := 0 } []) s)

/-- What reading a record at home finds (R341, R397): a fault at an address, nothing yet, or its bytes and where its lines lie. -/
inductive RecordRead where
  | fault (va : Nat) (c : Cause)
  | wait (s : State)
  | bytes (pas : List Nat) (bs : List Byte)
/-- Lines from a virtual address, as a lane's load translates them (R150, R366), or the first that fails. -/
def State.lineAddrs (s : State) (i : Iss) (va n : Nat) : Except (Nat × Cause) (List Nat) :=
  let g := s.group i.gid
  (List.range n).foldl (fun acc j => match acc with
    | .error e => .error e
    | .ok l => match s.laneAccess i.core g.ctx g.step.toNat .read (va + 64 * j) with
      | .error c => .error (va + 64 * j, c)
      | .ok pa => .ok (l ++ [pa])) (.ok [])
/-- A record of some lines read at home by an issuing split (R341, R397): its faults are those of a load, and a stepped line is read at the
group's step (R367). -/
def State.fetchRecord (s : State) (i : Iss) (va n : Nat) : RecordRead :=
  let g := s.group i.gid
  let o := Origin.lane i.gid i.slot
  match s.lineAddrs i va n with
  | .error e => .fault e.1 e.2
  | .ok pas => match s.linesReady o i.core g.ctx g.step.toNat pas with
    | some s1 => .wait s1
    | none =>
      let all := pas.foldl (fun (acc : Except (Nat × Cause) (List Byte)) pa => match acc with
        | .error e => .error e
        | .ok l => match s.lineBytes o pa 64 g.step.toNat with
          | .error c => .error (va + l.length, c)
          | .ok b => .ok (l ++ b)) (.ok [])
      match all with
      | .error e => .fault e.1 e.2
      | .ok bs => .bytes pas bs
/-- A fault at a record's line (R150, R314): lost data is found by reading. -/
def State.recordFault (s : State) (i : Iss) (va : Nat) (c : Cause) : Eff :=
  let g := s.group i.gid
  let s1 := match s.translate i.core g.ctx .read va with
    | .ok pa => if c = Cause.dataError then s.foundAll g.ctx (s.readPas pa g.step.toNat) else s
    | .error _ => s
  (s1.dropKept (.lane i.gid i.slot)).unfinished i .read true false [(0, va, c)]
/-- The 64-bit words of some bytes. -/
def dwordsOf (bs : List Byte) : List Dword := (List.range (bs.length / 8)).map fun k => BitVec.ofNat 64 (ofBytes ((bs.drop (8 * k)).take 8))

/-- LD: issues in the split in focus. -/
def execLd (f : W64F) (s : State) := issue (insW64 0x90 f) ldEff s
/-- ST: issues in the split in focus. -/
def execSt (f : W64F) (s : State) := issue (insW64 0x91 f) stEff s
/-- ATOM: issues in the split in focus. -/
def execAtom (f : W64F) (s : State) := issue (insW64 0x97 f) atomEff s
/-- RED: issues in the split in focus. -/
def execRed (f : W64F) (s : State) := issue (insW64 0x99 f) redEff s
/-- REDO: issues in the split in focus. -/
def execRedo (f : W64F) (s : State) := issue (insW64 0x9A f) redoEff s
/-- FENCE: issues in the split in focus. -/
def execFence (f : W64F) (s : State) := issue (insW64 0x9B f) fenceEff s
/-- PREF: issues in the split in focus. -/
def execPref (f : W64F) (s : State) := issue (insW64 0x9C f) prefEff s
/-- DROP: issues in the split in focus. -/
def execDrop (f : W64F) (s : State) := issue (insW64 0x9D f) dropEff s
/-- GLD: issues in the split in focus. -/
def execGld (f : W64F) (s : State) := issue (insW64 0x9E f) gldEff s
/-- GST: issues in the split in focus. -/
def execGst (f : W64F) (s : State) := issue (insW64 0x9F f) gstEff s

end Sys2Proof.Machine
end

