-- ==== Sys2Proof/Machine/Hearth.lean ====
section
/-! DEFINITION. Launch records and kernels (R333 to R340), and performance levels (R5, R169, R379, R380). -/

namespace Sys2Proof.Machine

/-- A field of a word list: bits hi to lo of word k. -/
def fieldOf (ws : List Dword) (k hi lo : Nat) : Nat := bitsOf (ws.getD k 0).toNat hi lo
/-- KH of a launch record (R336). -/
def recKh (ws : List Dword) : Nat := fieldOf ws 3 47 32
/-- CTX of a launch record. -/
def recCtx (ws : List Dword) : Nat := fieldOf ws 3 53 48
/-- The grid extent (R336). -/
def recGrid (ws : List Dword) : Nat × Nat × Nat := (fieldOf ws 2 31 0, fieldOf ws 2 63 32, fieldOf ws 3 31 0)
/-- The block shape of a SHAPE word (R336). -/
def shapeOf (w : Nat) : Nat × Nat × Nat := (bitsOf w 15 0 + 1, bitsOf w 31 16 + 1, bitsOf w 47 32 + 1)
/-- The threads of a block. -/
def threadsOf (w : Nat) : Nat := let (x, y, z) := shapeOf w; x * y * z
/-- The groups of a block (R3). -/
def groupsOf (w : Nat) : Nat := (threadsOf w + 31) / 32
/-- The caps of a VCAP word: its bytes up to the first 0 (R336). -/
def vcapsOf (w : Nat) : List Nat := ((List.range 8).map fun k => bitsOf w (8 * k + 7) (8 * k)).takeWhile (· != 0)
/-- Fields of a RES word (R336). -/
def resSpad (w : Nat) : Nat := bitsOf w 36 25 * 128
/-- CBUD. -/
def resC (w : Nat) : Nat := bitsOf w 24 21
/-- MBUD. -/
def resM (w : Nat) : Nat := bitsOf w 20 16
/-- GBUD. -/
def resG (w : Nat) : Nat := bitsOf w 15 8
/-- PRIO. -/
def resPrio (w : Nat) : Nat := bitsOf w 5 4
/-- FUSE. -/
def resFuse (w : Nat) : Bool := w.testBit 3
/-- LOCAL. -/
def resLocal (w : Nat) : Bool := w.testBit 2
/-- SPAN. -/
def resSpan (w : Nat) : Nat := w % 4
/-- RES with PRIO at 0, as a kernel entry holds it (R339). -/
def resNoPrio (w : Nat) : Nat := w - resPrio w * 16

/-- Whether SHAPE fails R337. -/
def shapeBad (shape res : Nat) : Bool :=
  decide (bitsOf shape 63 48 ≠ 0) || decide (threadsOf shape > 65536) || (resLocal res && decide (threadsOf shape > 256))
/-- Whether RES fails R337. -/
def resBad (res : Nat) : Bool :=
  decide (bitsOf res 63 37 ≠ 0) || decide (bitsOf res 7 6 ≠ 0) || decide (resSpan res = 3) || decide (bitsOf res 36 25 > 2048)
    || decide (resC res > 8) || decide (resM res > 16) || decide (resG res > 160)
/-- Whether VCAP fails R337. -/
def vcapBad (vcap res : Nat) : Bool :=
  let cs := vcapsOf vcap
  cs.isEmpty || decide (vcap ≥ 2 ^ (8 * cs.length)) || (decide (cs.length > 1) && !resLocal res) || cs.any (fun c => decide (c > 128))
/-- The byte offset of the lowest field of a launch record that fails R337. -/
def State.recordBad (s : State) (ctx : Nat) (ws : List Dword) : Option Nat :=
  let k := (s.ctx ctx).kernels.get? (recKh ws)
  let w (n : Nat) : Nat := (ws.getD n 0).toNat
  let differs (f : Kernel → Bool) : Bool := match k with | some k => f k | none => false
  let ext (n : Nat) : Bool := n == 0 || decide (n > 2 ^ 24)
  let (gx, gy, gz) := recGrid ws
  ([(0x00, decide (bitsOf (w 0) 63 56 ≠ 0) || (w 0).testBit 0 || differs fun k => k.entry != bitsOf (w 0) 55 0),
    (0x10, ext gx), (0x14, ext gy), (0x18, ext gz),
    (0x1C, decide (bitsOf (w 3) 63 54 ≠ 0) || recCtx ws != ctx || decide (recKh ws ≥ 256) || k.isNone),
    (0x20, shapeBad (w 4) (w 5) || differs fun k => k.shape != w 4),
    (0x28, resBad (w 5) || differs fun k => k.res != resNoPrio (w 5)),
    (0x30, vcapBad (w 6) (w 5) || differs fun k => k.vcap != w 6),
    (0x38, w 7 != 0)]
   ++ (List.range 4).map (fun n => (0x60 + 16 * n, w (12 + 2 * n) % 8 != 0))
   ++ [(0xA0, w 20 % 8 != 0)] ++ (List.range 11).map (fun n => (0xA8 + 8 * n, w (21 + n) != 0))).findSome? fun (c : Nat × Bool) =>
    if c.2 then some c.1 else none
/-- The records a launch queue's ring holds (R333). -/
def Lq.size (q : Lq) : Nat := 2 ^ (q.base.toNat % 16 + 4)
/-- The address of record n (R333). -/
def State.recordPa (s : State) (q : Lq) (n : Nat) : Nat :=
  s.pkg * 2 ^ 42 + (bitsOf q.base.toNat 53 12 * 4096 + 256 * (n % q.size)) % 2 ^ 42
/-- The 64-bit words of memory at home from an address. -/
def State.dwords (s : State) (pa n : Nat) : List Dword := (List.range n).map fun k => BitVec.ofNat 64 (s.word (pa + 8 * k) 8)

/-- A core's request: the highest effective request of its resident groups (R169). -/
def State.coreRequest (s : State) (core : Nat) : Option Nat :=
  match s.residents core with
  | [] => none
  | gs => some (gs.foldl (fun m gid => max m (min (s.group gid).level (s.ctx (s.group gid).ctx).lvlCap)) 0)
/-- The level granted to a quadrant domain (R169, R380). -/
def State.granted (s : State) (dom : Nat) : Nat :=
  let req := (List.range 32).foldl (fun m k => match s.coreRequest (32 * dom + k) with | some r => max m r | none => m) 0
  let p := s.power
  let lim := min req (p.grant.getD dom 0)
  if p.ovrEn.getLsbD dom then min lim (bitsOf p.ovrLvl.toNat (2 * dom + 1) (2 * dom)) else lim
/-- Applies the granted level of a domain: a lower one at once, a higher one once its voltage has settled (R169). -/
def State.relevel (s : State) (dom : Nat) : State :=
  let g := s.granted dom
  let cur := s.power.domLevel.getD dom 0
  let p := s.power
  if g > cur then { s with power := { p with raising := p.raising.set dom (some g) } }
  else { s with power := { p with domLevel := p.domLevel.set dom g, raising := p.raising.set dom none } }
/-- The level a core runs at (R169). -/
def State.levelOf (s : State) (core : Nat) : Nat :=
  min ((s.coreRequest core).getD 0) (s.power.domLevel.getD (domOf core) 0)

end Sys2Proof.Machine
end

