-- ==== Sys2Proof/Machine/CoreOps.lean ====
section
/-! DEFINITION. The core group: waits, levels, register caps, barriers, deques, launches, traps and system registers (R170,
R173, R174, R177, R186, R187, R197, R215 to R220, R295, R296, R341, R403). -/

namespace Sys2Proof.Machine

/-- The operation of a class that a WAIT reports: the oldest failed one, done, and older than the N most recent (R174). -/
def Group.toReport (g : Group) (cls n : Nat) : Option EngOp :=
  (g.ops.filter fun o => o.cls == cls && o.done && o.fail.isSome && decide (o.n + n < g.issuedOf cls)).foldl
    (fun acc o => match acc with | none => some o | some b => if o.n < b.n then some o else some b) none
/-- Whether a WAIT's counter has fallen far enough (R174). -/
def State.waitReady (s : State) (i : Iss) : Bool := decide ((s.group i.gid).counter (i.ins.m12 / 512) ≤ i.ins.m12 % 64)
/-- TINFO of an ENGINE_ERROR (R311). -/
def Fail.info (f : Fail) (cls : Nat) : Nat := f.reason * 2 ^ 24 + cls * 2 ^ 21 + f.side * 2 ^ 18
/-- WAIT (R174, R282, R311). -/
def waitEff : Iss → State → Eff := fun i s =>
  let cls := i.ins.m12 / 512
  if !s.waitReady i then .wait s
  else
    let s1 := match cls with
      | 1 => s.acquire i.core ((s.blockOf i).span + 1) 1
      | 2 => s
      | _ => s.invalidate (s.l1Of i.core)
    match (s1.group i.gid).toReport cls (i.ins.m12 % 64) with
    | some o =>
      let f := o.fail.getD { reason := 0, side := 0, addr := 0 }
      .trap { i.trap .engineError f.addr with info := BitVec.ofNat 32 (f.info cls) }
        (s1.modGroup i.gid fun g => { g with ops := g.ops.filter fun x => !(x.cls == cls && x.n == o.n) })
    | none => .done s1

/-- The oldest outstanding BC operation of a group (R177). -/
def Group.oldestBc (g : Group) : Option EngOp :=
  (g.ops.filter fun o => o.cls == 0 && !o.done).foldl (fun acc o => match acc with
    | none => some o | some b => if o.n < b.n then some o else some b) none
/-- The operation a SLEEPT.prom sleeps on: the oldest when it was first tested (R177). -/
def State.sleepOp (s : State) (i : Iss) : Option Nat :=
  match ((s.group i.gid).slot i.slot).mark with
  | some (pc, n) => if pc = i.pc then some n else (s.group i.gid).oldestBc.map (·.n)
  | none => (s.group i.gid).oldestBc.map (·.n)
/-- The operation of class BC with a number, while it is outstanding. -/
def Group.bcOp (g : Group) (n : Nat) : Option EngOp := g.ops.find? fun o => o.cls == 0 && o.n == n && !o.done
/-- Whether the sleep is over (R177). -/
def State.sleepReady (s : State) (i : Iss) : Bool :=
  let time := (s.core i.core).time
  if i.ins.m12 / 512 = 0 then decide (time ≥ (s.regs i).xs i.ins.a 2 0)
  else match (s.sleepOp i).bind (s.group i.gid).bcOp with
    | none => true
    | some o => !o.late && (match o.promise with | some p => decide (time ≥ p) | none => false)
/-- SLEEPT MODE 0 (R177). -/
def sleeptEff : Iss → State → Eff := fun i s => if s.sleepReady i then .done s else .wait s
/-- SLEEPT MODE 1 (R177). -/
def sleeptPromEff : Iss → State → Eff := fun i s =>
  if !s.sleepReady i then
    .wait (s.modGroup i.gid fun g => g.modSlot i.slot fun x => { x with mark := (s.sleepOp i).map fun n => (i.pc, n) })
  else match (s.sleepOp i).bind (s.group i.gid).bcOp with
    | none => .done s
    | some o => .trap (i.trap .promiseLate (BitVec.ofNat 64 (o.promise.getD 0 % 2 ^ 32)))
      (s.modGroup i.gid fun g => { g with ops := g.ops.map fun (x : EngOp) =>
        if x.cls = 0 ∧ x.n = o.n then { x with late := true } else x })

/-- PLVL (R170). -/
def plvlEff : Iss → State → Eff := fun i s =>
  let v := if i.ins.m12 / 2048 = 1 then i.ins.m12 % 4 else min ((s.regs i).x i.ins.a 0).toNat 3
  .done ((s.modGroup i.gid fun g => { g with level := v }).relevel (domOf i.core))

/-- Claims of splits that no longer queue one are withdrawn (R85, R187). -/
def State.purgeClaims (s : State) (blk : Nat) : State :=
  s.modBlock blk fun b => { b with claims := b.claims.filter fun c => ((s.group c.gid).slot c.slot).claim == .queued }
/-- Whether REGCLM faults: no partition-local block, or a cap above 128 (R187). -/
def State.claimBad (s : State) (i : Iss) : Bool := !(s.blockOf i).isLocal || decide ((s.group i.gid).cap + i.ins.m12 > 128)
/-- Enters the claim of a REGCLM at the tail of the block's queue (R187). -/
def State.enqueueClaim (s : State) (i : Iss) : State :=
  if ((s.group i.gid).slot i.slot).claim = .none then
    (s.modGroup i.gid fun g => g.modSlot i.slot fun x => { x with claim := .queued }).modBlock (s.group i.gid).blk fun b =>
      { b with claims := (b.claims.filter fun c => !(c.gid == i.gid && c.slot == i.slot)) ++
        [{ gid := i.gid, slot := i.slot, n := i.ins.m12 }] }
  else s
/-- REGCLM (R187). -/
def regclmEff : Iss → State → Eff := fun i s =>
  match ((s.group i.gid).slot i.slot).claim with
  | .served => .done s
  | .queued => .wait s
  | .none => if s.claimBad i then .trap (i.fault .illegalOperand) s else .wait (s.enqueueClaim i)
/-- REGREL (R187). -/
def regrelEff : Iss → State → Eff := fun i s =>
  let g := s.group i.gid
  let n := i.ins.m12
  if !(s.blockOf i).isLocal || decide (g.footprint + n > g.cap) then .trap (i.fault .illegalOperand) s
  else .done ((s.modGroup i.gid fun g => { g with cap := g.cap - n }).modBlock g.blk fun b => { b with pool := b.pool + n })

/-- The scope a barrier level orders memory at (R217). -/
def barScope (lvl : Nat) : Nat := lvl
/-- BAR (R215, R216, R217, R403): once its release is performed, the lanes wait and the slot frees. -/
def barEff : Iss → State → Eff := fun i s =>
  let lvl := i.ins.m12 / 512
  let desc := (((s.regs i).x i.ins.a 0).toNat)
  if 4 ≤ lvl ∧ (desc % 2 ^ 20 = 0 ∨ (lvl = 4 ∧ desc / 2 ^ 20 ≠ 0)) then
    .trap (i.trap .illegalOperand (BitVec.ofNat 64 desc)) s
  else match s.releaseDone { i with exec := i.active } (barScope lvl) with
    | (false, s1) => .wait s1
    | (true, s1) => .moved (s1.modGroup i.gid fun g =>
        (g.modLanes i.active fun _ l => { l with
          lst := .barrier, lpc := i.pc
          bar := some { lvl := lvl, id := i.ins.m12 % 16, desc := if 4 ≤ lvl then desc else 0, pc := i.pc, mark := 0 } }).freeSlot i.slot)

/-- DQPUSH (R219, R220). -/
def dqpushEff : Iss → State → Eff := fun i s =>
  match s.releaseDone { i with exec := i.active } 3 with
  | (false, s1) => .wait s1
  | (true, s1) =>
    let full := decide ((s1.core i.core).deque.length ≥ 256)
    let e : Dword := BitVec.ofNat 64 ((s1.regs i).xs i.ins.a 2 0)
    let s2 := if full then s1 else s1.modCore i.core fun c => { c with deque := c.deque ++ [e] }
    .done (s2.writeU i i.ins.c (if full then 0 else 1))
/-- DQPOP (R219, R220). -/
def dqpopEff : Iss → State → Eff := fun i s =>
  match (s.core i.core).deque.getLast? with
  | none => .done ((s.writeUs i i.ins.d 2 0).writeU i i.ins.c 0)
  | some e =>
    let s1 := (s.modCore i.core fun c => { c with deque := c.deque.dropLast }).acquire i.core 3 1
    .done ((s1.writeUs i i.ins.d 2 e.toNat).writeU i i.ins.c 1)
/-- A steal at a deque: the top entry, when the core is one of the context's (R219). -/
def State.stealAt (s : State) (tgt ctx : Nat) : Option Dword × State :=
  if (s.core tgt).ctx ≠ some ctx then (none, s)
  else match (s.core tgt).deque with
    | [] => (none, s)
    | e :: rest => (some e, s.modCore tgt fun c => { c with deque := rest })
/-- What a steal returns to its registers (R219, R220). -/
def State.stealDone (s : State) (gid core seq d c : Nat) (e : Option Dword) : State :=
  let v := (e.getD 0)
  let s1 := s.returnWords gid seq [(d, [v.setWidth 32, (v >>> 32).setWidth 32]), (c, [if e.isSome then 1 else 0])]
  if e.isSome then s1.acquire core 3 1 else s1
/-- DQSTEAL (R219, R220). -/
def dqstealEff : Iss → State → Eff := withLoadRoom fun i s =>
  let t := ((s.regs i).x i.ins.a 0).toNat
  let (seq, s1) := s.newUniLoad i i.ins.d 2 0 4
  if t > 511 ∨ dieOf t ≠ dieOf i.core then .done (s1.stealDone i.gid i.core seq i.ins.d i.ins.c none)
  else if t = i.core then
    let (e, s2) := s1.stealAt t (s.group i.gid).ctx
    .done (s2.stealDone i.gid i.core seq i.ins.d i.ins.c e)
  else
    let (id, s2) := s1.newId
    .done { s2 with steals := s2.steals ++ [{
      id := id, gid := i.gid, src := i.core, tgt := t, d := i.ins.d, c := i.ins.c, load := seq, ctx := (s.group i.gid).ctx }] }

/-- LNCH (R341). -/
def lnchEff : Iss → State → Eff := fun i s =>
  let va := (s.regs i).xs i.ins.a 2 0
  let q := ((s.regs i).x i.ins.b 0).toNat
  let ctx := (s.group i.gid).ctx
  let lq := s.lq q
  if va % 256 ≠ 0 then .trap (i.trap .misalign (BitVec.ofNat 64 va)) s
  else if q > 63 ∨ lq.en = false ∨ lq.src = false ∨ lq.ctx ≠ ctx then .trap (i.trap .illegalOperand (BitVec.ofNat 64 q)) s
  else match s.releaseDone { i with exec := i.active } 4 with
    | (false, s1) => .wait s1
    | (true, s1) =>
      if (lq.pi + 2 ^ 32 - lq.ci) % 2 ^ 32 ≥ lq.size then .wait s1
      else match s1.fetchRecord i va 4 with
        | .fault a c => s1.recordFault i a c
        | .wait s2 => .wait s2
        | .bytes pas bs =>
          let s2 := s1.linesRead (.lane i.gid i.slot) i.core pas
          match s2.recordBad ctx (dwordsOf bs) with
          | some off => .trap (i.trap .illegalOperand (BitVec.ofNat 64 (va + off))) s2
          | none =>
            if !s2.wbqRoom (s2.recordPa lq lq.pi) then .wait s2
            else .done ((s2.homeBytes (s2.recordPa lq lq.pi) bs).setLq q { lq with pi := (lq.pi + 1) % 2 ^ 32 })

/-- The split stands at the instruction after its own, as a trap that resumes there leaves it (R195). -/
def State.pastOwn (s : State) (i : Iss) : State :=
  s.modGroup i.gid fun g => g.moveSplit i.slot i.active (i.pc + BitVec.ofNat 56 i.ins.len)
/-- TRAP and BKPT (R197). -/
def Iss.softTrap (i : Iss) (c : Cause) (info : Nat) : Trap :=
  { i.trap c 0 with pc := i.pc + BitVec.ofNat 56 i.ins.len, info := BitVec.ofNat 32 info }
/-- TRAP (R197). -/
def trapEff : Iss → State → Eff := fun i s => .trap (i.softTrap .software (i.ins.m12 % 256)) (s.pastOwn i)
/-- BKPT (R192, R197). -/
def bkptEff : Iss → State → Eff := fun i s => .trap (i.softTrap .bkpt 0) (s.pastOwn i)
/-- The split resumes at TPC: a replay restricted to lanes when RPL is set (R196, R302). -/
def State.resume (s : State) (gid slot : Nat) : State :=
  let g := s.group gid
  let x := g.slot slot
  let m := g.sys.tlanes &&& x.active &&& x.amask
  s.modGroup gid fun g => (g.moveSplit slot x.amask (g.sys.tpc.setWidth 56)).modSlot slot fun x =>
    { x with mode := .running, replay := if g.sys.tstat.getLsbD 31 then some m else none, active := 0, mark := none }
/-- ERET (R196). The bank is released when no split of the group is left in handler mode. -/
def eretEff : Iss → State → Eff := fun i s =>
  let s1 := (s.resume i.gid i.slot).modGroup i.gid fun g => g.dropHandlerLoads i.active
  let s2 := if (s1.group i.gid).inHandler then s1
    else (s1.modPart i.core i.part fun p => { p with owner := none, bank := {} }).afterTrap i.gid
  .wait s2
/-- A system register as a number (R194). -/
def Sys.get (y : Sys) (code : Nat) : Nat :=
  match code with
  | 0 => y.tvec.toNat | 1 => y.tpc.toNat | 2 => y.tcause.toNat | 3 => y.taddr.toNat | 4 => y.tlanes.toNat
  | 5 => y.tinfo.toNat | _ => y.tstat.toNat
/-- MFSR (R197). -/
def mfsrEff : Iss → State → Eff := fun i s =>
  .done (s.writeU i i.ins.d (BitVec.ofNat 32 ((s.group i.gid).sys.get i.ins.a >>> (32 * i.ins.opx))))
/-- A register with one 32-bit word replaced, under the bits that may be written (R10, R194). -/
def putWord (old : Dword) (w : Nat) (v : Word) (may : Dword) : Dword :=
  let new : Dword := v.setWidth 64 <<< (32 * w)
  let m : Dword := may &&& (if w = 0 then 0xFFFFFFFF else 0xFFFFFFFF00000000)
  (old &&& ~~~m) ||| (new &&& m)
/-- MTSR (R194, R197). -/
def mtsrEff : Iss → State → Eff := fun i s =>
  let v := (s.regs i).x i.ins.a 0
  let w := i.ins.opx
  .done (s.modGroup i.gid fun g => { g with sys := match i.ins.d with
    | 0 => { g.sys with tvec := putWord g.sys.tvec w v 0xFFFFFFFFFFFFFE }
    | 1 => { g.sys with tpc := putWord g.sys.tpc w v 0xFFFFFFFFFFFFFE }
    | 4 => { g.sys with tlanes := v }
    | 6 => { g.sys with tstat := putWord g.sys.tstat w v 0x80000000 }
    | _ => g.sys })

/-- The TLB entries a TLBINV leaves (R296). -/
def tlbKeep (kind asid va : Nat) (t : List TlbEnt) : List TlbEnt :=
  t.filter fun e => !(if kind = 0 then e.hits asid va else e.asid == asid)
/-- Removes the matching translations of every TLB that a core within a reach translates through: 0 core, 1 quad, 2 die, 3 package, so
that what it translates next comes from the tables (R295, R296). -/
def State.tlbDrop (s : State) (kind asid va reach core : Nat) : State :=
  let near (c : Nat) : Bool :=
    match reach with | 0 => c == core | 1 => quadOf c == quadOf core | 2 => dieOf c == dieOf core | _ => true
  let keep := tlbKeep kind asid va
  { s with
    cores := s.cores.map fun p => if near p.1 then (p.1, { p.2 with utlb := keep p.2.utlb }) else p
    quads := s.quads.map fun p => if (match reach with | 2 => p.1 / 32 == dieOf core | 3 => true | _ => p.1 == quadOf core)
      then (p.1, { p.2 with qtlb := keep p.2.qtlb }) else p
    dies := s.dies.map fun p => if (match reach with | 3 => true | _ => p.1 == dieOf core)
      then (p.1, { p.2 with dtlb := keep p.2.dtlb }) else p }
/-- Whether a Tongs engine within a reach of a core still has reads or writes of a context under way that it has translated (R296). -/
def State.tongsHolds (s : State) (ctx reach core : Nat) : Bool :=
  s.accs.any fun a => !a.done && a.sent && a.ctx == ctx && (reach == 3 || dieOf a.core == dieOf core) &&
    ((match a.keep with | .tongs _ _ _ _ => true | _ => false)
      || s.dies.any fun d => d.2.tongs.any fun q => q.1 % 64 == ctx && q.2.ops.any fun o => o.deps.contains a.id)
/-- TLBINV (R296): the split waits until no Tongs operation of its context uses a translation that was removed. -/
def tlbinvEff : Iss → State → Eff := fun i s =>
  let ctx := (s.group i.gid).ctx
  let reach := i.ins.m12 / 256 % 4
  let s1 := s.tlbDrop (i.ins.m12 / 1024) (s.ctx ctx).asid ((s.regs i).xs i.ins.a 2 0) reach i.core
  if s.tongsHolds ctx reach i.core then .wait s1 else .done s1

/-- WAIT: issues in the split in focus. -/
def execWait (f : W64F) (s : State) := issue (insW64 0xC0 f) waitEff s
/-- WAIT_W32 (R51). -/
def execWaitW32 (f : W32F) (s : State) := issue (insW32 53 f) waitEff s
/-- SLEEPT: issues in the split in focus. -/
def execSleept (f : W64F) (s : State) := issue (insW64 0xC1 f) sleeptEff s
/-- SLEEPT_PROM: issues in the split in focus. -/
def execSleeptProm (f : W64F) (s : State) := issue (insW64 0xC1 f) sleeptPromEff s
/-- PLVL: issues in the split in focus. -/
def execPlvl (f : W64F) (s : State) := issue (insW64 0xC2 f) plvlEff s
/-- REGCLM: issues in the split in focus. -/
def execRegclm (f : W64F) (s : State) := issue (insW64 0xC3 f) regclmEff s
/-- REGREL: issues in the split in focus. -/
def execRegrel (f : W64F) (s : State) := issue (insW64 0xC4 f) regrelEff s
/-- BAR: issues in the split in focus. -/
def execBar (f : W64F) (s : State) := issue (insW64 0xC5 f) barEff s
/-- DQPUSH: issues in the split in focus. -/
def execDqpush (f : W64F) (s : State) := issue (insW64 0xC6 f) dqpushEff s
/-- DQPOP: issues in the split in focus. -/
def execDqpop (f : W64F) (s : State) := issue (insW64 0xC7 f) dqpopEff s
/-- DQSTEAL: issues in the split in focus. -/
def execDqsteal (f : W64F) (s : State) := issue (insW64 0xC8 f) dqstealEff s
/-- LNCH: issues in the split in focus. -/
def execLnch (f : W64F) (s : State) := issue (insW64 0xC9 f) lnchEff s
/-- TRAP: issues in the split in focus. -/
def execTrap (f : W64F) (s : State) := issue (insW64 0xCA f) trapEff s
/-- ERET: issues in the split in focus. -/
def execEret (f : W64F) (s : State) := issue (insW64 0xCB f) eretEff s
/-- MFSR: issues in the split in focus. -/
def execMfsr (f : W64F) (s : State) := issue (insW64 0xCC f) mfsrEff s
/-- MTSR: issues in the split in focus. -/
def execMtsr (f : W64F) (s : State) := issue (insW64 0xCD f) mtsrEff s
/-- TLBINV: issues in the split in focus. -/
def execTlbinv (f : W64F) (s : State) := issue (insW64 0xCE f) tlbinvEff s
/-- BKPT: issues in the split in focus. -/
def execBkpt (f : W64F) (s : State) := issue (insW64 0xCF f) bkptEff s

end Sys2Proof.Machine
end

