-- ==== Sys2Proof/Machine/LaneCvt.lean ====
section
/-! DEFINITION. The conversion-and-select group (R123 to R131) and VFREE (R182), with their short forms. -/

namespace Sys2Proof.Machine

/-- The width and signedness of an integer TY code (R124). -/
def cvtInt (t : Nat) : Nat × Bool := (if ty64 t then 64 else 32, t == 0 || t == 10)
/-- Whether a TY code is one of the integer types of CVT (R124). -/
def cvtIsInt (t : Nat) : Bool := t == 0 || t == 1 || t == 10 || t == 11

/-- CVT (R124): TY is the destination, C the source type. -/
def cvtLane (x : Args) : Nat × Flags :=
  let src := x.cc
  let dst := x.ty
  let el (f : Fmt) (k : Nat) (v : Nat) : Num := f.decode ((v >>> (f.width * k)) % 2 ^ f.width)
  if cvtIsInt src && cvtIsInt dst then
    let (ws, ss) := cvtInt src
    let (wd, sd) := cvtInt dst
    let t := elemInt ws ss x.a
    if x.sat then let (r, c) := clampInt wd sd t; (r, flagIf c flagISAT) else (wrapTo wd t, 0)
  else if cvtIsInt src then
    let (ws, ss) := cvtInt src
    roundTo (tyFmt dst) false x.rm (Num.ofInt (elemInt ws ss x.a))
  else if cvtIsInt dst then
    let (wd, sd) := cvtInt dst
    roundToInt wd sd x.rm ((tyFmt src).decode x.a)
  else if (src = 6 ∧ (dst = 7 ∨ dst = 8)) then
    let (r0, f0) := roundTo (tyFmt dst) false x.rm (el .fp32 0 x.a)
    let (r1, f1) := roundTo (tyFmt dst) false x.rm (el .fp32 1 x.a)
    (r0 + 2 ^ 16 * r1, f0 ||| f1)
  else if (src = 7 ∨ src = 8) ∧ dst = 6 then
    let (r0, f0) := roundTo .fp32 false 0 (el (tyFmt src) 0 x.a)
    let (r1, f1) := roundTo .fp32 false 0 (el (tyFmt src) 1 x.a)
    (r0 + 2 ^ 32 * r1, f0 ||| f1)
  else if src = 7 ∨ src = 8 then
    let (r0, f0) := roundTo (tyFmt dst) false x.rm (el (tyFmt src) 0 x.a)
    let (r1, f1) := roundTo (tyFmt dst) false x.rm (el (tyFmt src) 1 x.a)
    (r0 + 2 ^ 16 * r1, f0 ||| f1)
  else roundTo (tyFmt dst) false x.rm ((tyFmt src).decode x.a)

/-- RNGH (R129). -/
def rngh (a b : Nat) : Nat :=
  let m := 2 ^ 32
  let x := a ^^^ (b * 0x9E3779B9 % m)
  let x := x ^^^ (x >>> 16)
  let x := x * 0x7FEB352D % m
  let x := x ^^^ (x >>> 15)
  let x := x * 0x846CA68B % m
  x ^^^ (x >>> 16)

/-- NARROW of a value into a slot's format (R125). -/
def narrowTo (slot : Word) (rm : Nat) (x : Num) (r : Nat) : Nat × Flags :=
  if slotSr slot then stochNarrow (slotFormat slot) (slotSat slot) x r else roundTo (slotFormat slot) (slotSat slot) rm x

/-- Replaces bits of a number: `w` bits at position `p`. -/
def putBits (old p w v : Nat) : Nat := old - (((old >>> p) % 2 ^ w) <<< p) + ((v % 2 ^ w) <<< p)

/-- CVTN (R125). -/
def cvtnEff : Iss → State → Eff := fun i s =>
  let slot := s.fmtSlot i.gid i.ins.c
  let w := (slotFormat slot).width
  if !slotOk slot || slotFmt slot == 0 || slotScale slot != 0 then .trap (i.fault .formatSlot) s
  else if (2 * i.ins.opx + 2) * w > 32 then .trap (i.fault .illegalOperand) s
  else capped Ins.dsts (fun i s => laneValN 1 (fun x =>
    let h := rngh x.a x.b
    let (y0, f0) := narrowTo slot x.rm (Fmt.fp32.decode x.a) (h % 2 ^ 16)
    let (y1, f1) := narrowTo slot x.rm (Fmt.fp32.decode x.b) (h / 2 ^ 16)
    (putBits (putBits x.old (2 * x.opx * w) w y0) ((2 * x.opx + 1) * w) w y1, f0 ||| f1)) i s) i s

/-- CVTW (R126). -/
def cvtwEff : Iss → State → Eff := fun i s =>
  let slot := s.fmtSlot i.gid i.ins.c
  let w := (slotFormat slot).width
  if !slotOk slot || slotFmt slot == 0 || slotScale slot != 0 then .trap (i.fault .formatSlot) s
  else if (i.ins.b + 1) * w > 32 then .trap (i.fault .illegalOperand) s
  else capped Ins.dsts (fun i s => laneValN 1 (fun x =>
    roundTo .fp32 false 0 ((slotFormat slot).decode ((x.a >>> (i.ins.b * w)) % 2 ^ w))) i s) i s

/-- Whether the first of two element codes has the greater magnitude, NaN above every number (R127). -/
def magGt (f : Fmt) (a b : Nat) : Bool :=
  let abs (x : Num) : Num := match x with | .fin _ m e => .fin false m e | .inf _ => .inf false | .nan s => .nan s
  match f.decode a, f.decode b with
  | .nan _, .nan _ => false
  | .nan _, _ => true
  | _, .nan _ => false
  | x, y => cmpNum (abs x) (abs y) == some .gt

/-- The two kept indices of a group of four elements, lower first (R127). -/
def sparseKeep (f : Fmt) (es : List Nat) : Nat × Nat :=
  let e (k : Nat) : Nat := es.getD k 0
  let best (ok : Nat → Bool) : Nat :=
    (List.range 4).foldl (fun acc k => if ok k && (acc == 4 || magGt f (e k) (e acc)) then k else acc) 4
  let first := best fun _ => true
  let second := best fun k => k != first
  (min first second, max first second)

/-- SPRS in one lane (R127): the group elements from A and B, and the kept elements or the metadata. -/
def sprsLane (f : Fmt) (opx : Nat) (a b : Nat) : Nat :=
  let w := f.width
  let n := if w = 4 then 2 else 1
  let whole := if w = 16 then a + 2 ^ 32 * b else a
  (List.range n).foldr (fun g acc =>
    let es := (List.range 4).map fun k => (whole >>> (w * (4 * g + k))) % 2 ^ w
    let (lo, hi) := sparseKeep f es
    if opx = 1 then acc * 16 + lo + 4 * hi
    else acc * 2 ^ (4 * w) +
      (List.range 4).foldr (fun k r => (if k = lo ∨ k = hi then es.getD k 0 else 0) + 2 ^ w * r) 0) 0

/-- SPRS (R127). -/
def sprsEff : Iss → State → Eff := fun i s =>
  let slot := s.fmtSlot i.gid i.ins.c
  let f := slotFormat slot
  let wide := f.width == 16 && i.ins.opx == 0
  if !slotOk slot || slotScale slot != 0 || [0, 6, 7].contains (slotFmt slot) then .trap (i.fault .formatSlot) s
  else if f.width != 16 && (i.ins.b != 0 || i.ins.last 3) then .trap (i.fault .illegalOperand) s
  else if wide && i.ins.d != 288 && (i.ins.d % 2 != 0 || (i.handler && decide (i.ins.d + 2 > 16))) then
    .trap (i.fault .illegalOperand) s
  else
    let n := if wide then 2 else 1
    capped (fun ins => if ins.d = 288 then [] else (List.range n).map (ins.d + ·))
      (fun i s => laneValN n (fun x => (sprsLane f x.opx x.a x.b, 0)) i s) i s

/-- SEL (R128). -/
def selLane (x : Args) : Nat := if x.p then x.a else x.b

/-- PSET (R128). -/
def psetEff : Iss → State → Eff := fun i s =>
  let r := s.regs i
  .done (s.writeP i i.ins.d fun l =>
    let a := r.pred i.ins.a l; let b := r.pred i.ins.b l
    match i.ins.opx with | 0 => a && b | 1 => a || b | 2 => a != b | _ => a && !b)

/-- PMOV (R128). -/
def pmovEff : Iss → State → Eff := fun i s =>
  let r := s.regs i
  if i.ins.opx = 0 then
    capped Ins.dsts (fun i s => laneValN 1 (fun x =>
      ((List.range 12).foldr (fun k acc => (r.pred k x.lane).toNat + 2 * acc) 0, 0)) i s) i s
  else .done ((List.range 7).foldl (fun st k => st.writeP i k fun l => (r.x i.ins.a l).getLsbD k) (s.lastReads i))

/-- The value of a special register for an issuing split (R83, R130), in one lane. -/
def State.special (s : State) (i : Iss) (code lane : Nat) : Nat :=
  let g := s.group i.gid
  let b := s.block g.blk
  let c := s.core i.core
  match code with
  | 0 => lane | 1 => 32 | 2 => i.slot | 3 => g.index
  | 4 => b.coords.1 | 5 => b.coords.2.1 | 6 => b.coords.2.2
  | 7 => b.extent.1 | 8 => b.extent.2.1 | 9 => b.extent.2.2
  | 10 => g.grid % 2 ^ 32 | 11 => i.part | 12 => i.core | 13 => quadOf i.core | 14 => dieOf i.core | 15 => s.pkg
  | 16 => g.ctx | 17 => c.cyc % 2 ^ 64 | 18 => c.time % 2 ^ 64 | 19 => g.step.toNat | 20 => g.fpstat.toNat
  | 21 => c.level | _ => s.passOf (quadOf i.core)

/-- SREG (R130, R44). -/
def sregEff : Iss → State → Eff := capped Ins.dsts fun i s =>
  let n := i.ins.width
  let v (l : Nat) : Nat := s.special i i.ins.a l % 2 ^ (32 * n)
  let s1 := s.writeLanes i i.ins.d n (laneTable i v)
  .done (if i.ins.opx = 1 ∧ i.exec ≠ 0 ∧ i.handler = false then s1.modGroup i.gid fun g => { g with fpstat := 0 } else s1)

/-- MOV (R131, R179). -/
def movEff : Iss → State → Eff := fun i s => if i.ins.selfMove then .done s else lanePure (fun x => x.a) i s

/-- READL (R131). -/
def readlEff : Iss → State → Eff := fun i s =>
  let r := s.regs i
  let j := if i.ins.opx = 0 then some ((r.x i.ins.b 0).toNat % 32) else i.exec.lowest
  let v : Word := match j with
    | some j => if i.exec.getLsbD j then r.x i.ins.a j else 0
    | none => 0
  .done ((s.lastReads i).writeU i i.ins.d v)

/-- VFREE (R182). -/
def vfreeEff : Iss → State → Eff := fun i s => .done (s.modGroup i.gid fun g => g.unlive i.ins.a i.exec)

/-- CVT: issues in the split in focus. -/
def execCvt (f : W64F) (s : State) := issue (insW64 0x60 f) (laneVal cvtLane) s
/-- CVTN: issues in the split in focus. -/
def execCvtn (f : W64F) (s : State) := issue (insW64 0x61 f) (cvtnEff) s
/-- CVTW: issues in the split in focus. -/
def execCvtw (f : W64F) (s : State) := issue (insW64 0x62 f) (cvtwEff) s
/-- SPRS: issues in the split in focus. -/
def execSprs (f : W64F) (s : State) := issue (insW64 0x63 f) (sprsEff) s
/-- SEL: issues in the split in focus. -/
def execSel (f : W64F) (s : State) := issue (insW64 0x64 f) (lanePure selLane) s
/-- PSET: issues in the split in focus. -/
def execPset (f : W64F) (s : State) := issue (insW64 0x65 f) (psetEff) s
/-- PMOV: issues in the split in focus. -/
def execPmov (f : W64F) (s : State) := issue (insW64 0x66 f) (pmovEff) s
/-- RNGH: issues in the split in focus. -/
def execRngh (f : W64F) (s : State) := issue (insW64 0x67 f) (lanePure fun x => rngh x.a x.b) s
/-- SREG: issues in the split in focus. -/
def execSreg (f : W64F) (s : State) := issue (insW64 0x68 f) (sregEff) s
/-- MOV: issues in the split in focus. -/
def execMov (f : W64F) (s : State) := issue (insW64 0x69 f) (movEff) s
/-- MOV_C16 (R48). -/
def execMovC16 (f : C16F) (s : State) := issue (insC16 0 f) (movEff) s
/-- MOV_W32 (R51). -/
def execMovW32 (f : W32F) (s : State) := issue (insW32 37 f) (movEff) s
/-- BCAST: issues in the split in focus. -/
def execBcast (f : W64F) (s : State) := issue (insW64 0x6A f) (lanePure fun x => x.a) s
/-- BCAST_W32 (R51). -/
def execBcastW32 (f : W32F) (s : State) := issue (insW32 38 f) (lanePure fun x => x.a) s
/-- READL: issues in the split in focus. -/
def execReadl (f : W64F) (s : State) := issue (insW64 0x6B f) (readlEff) s
/-- READL_W32 (R51). -/
def execReadlW32 (f : W32F) (s : State) := issue (insW32 39 f) (readlEff) s
/-- VFREE: issues in the split in focus. -/
def execVfree (f : W64F) (s : State) := issue (insW64 0x6C f) (vfreeEff) s
/-- VFREE_W32 (R51). -/
def execVfreeW32 (f : W32F) (s : State) := issue (insW32 40 f) (vfreeEff) s

end Sys2Proof.Machine
end

