-- ==== Sys2Proof/Machine/Tiles.lean ====
section
/-! DEFINITION. Tiles and the tile path (R207 to R214), and engine operations as a group counts them (R173). -/

namespace Sys2Proof.Machine

/-- Counts a new engine operation of a class (R173): its number and the state. -/
def State.countOp (s : State) (gid : Nat) (cls : Cls) (mk : EngOp → EngOp) : Nat × State :=
  let n := (s.group gid).issuedOf cls
  (n, s.modGroup gid fun g => { g with issued := g.issued.set cls (n + 1), ops := g.ops ++ [mk { cls := cls, n := n }] })
/-- Whether a counter stands at 63 (R173). -/
def State.counterFull (s : State) (gid : Nat) (cls : Cls) : Bool := decide ((s.group gid).counter cls ≥ 63)
/-- Reports one operation of a class done: its flags reach FPSTAT (R43); one that did not fail is forgotten, one that did
stands behind those done before it (R175). -/
def Group.report (g : Group) (cls : Cls) (n : Nat) : Group :=
  { g with
    fpstat := g.ops.foldl (fun f o => if o.cls = cls ∧ o.n = n then f ||| o.flags else f) g.fpstat
    ops := (g.ops.filter fun o => !(o.cls == cls && o.n == n)) ++
      (g.ops.filter fun o => o.cls == cls && o.n == n && o.fail.isSome).map fun (o : EngOp) => { o with done := true } }
/-- The oldest outstanding operation of a class (R173). -/
def Group.oldest (g : Group) (cls : Cls) : Option EngOp :=
  (g.ops.filter fun o => o.cls == cls && !o.done).foldl (fun acc o => match acc with
    | none => some o | some b => if o.n < b.n then some o else some b) none
/-- Reports completions in issue order (R173): the oldest operation while its work has ended. -/
def Group.complete (g : Group) (cls : Cls) : Group :=
  (List.range (g.counter cls)).foldl (fun g _ => match g.oldest cls with
    | some o => if o.work then g.report cls o.n else g
    | none => g) g
/-- The work of an operation ends, failed or not (R174). -/
def Group.workDone (g : Group) (cls : Cls) (n : Nat) (fail : Option Fail) (fl : Flags) : Group :=
  { g with ops := g.ops.map fun (o : EngOp) =>
    if o.cls = cls ∧ o.n = n ∧ o.done = false then
      { o with work := true, flags := fl, fail := match fail with | some f => some f | none => o.fail } else o }
/-- What a group takes of the engines' reports at a cycle boundary of its core (R172): the Anvil's in issue order, and of every other class
the oldest operations whose work has ended. -/
def Group.sampled (g : Group) : Group :=
  let due := (g.ops.filter fun o => o.cls == 2 && o.due && !o.done).map (·.n)
  [0, 1, 3, 4, 5].foldl (fun g c => g.complete c) (due.foldl (fun g n => g.report 2 n) g)
/-- A core takes the engines' reports to its groups (R172). -/
def State.sample (s : State) (core : Nat) : State := (s.residents core).foldl (fun s gid => s.modGroup gid Group.sampled) s
/-- The work of an operation ends, and completions are reported in issue order: a core whose clock runs takes them at its next cycle
boundary, one whose clock stands at once (R172). -/
def State.endOp (s : State) (gid : Nat) (cls : Cls) (n : Nat) (fail : Option Fail) : State :=
  if (s.core (s.group gid).core).running then s.modGroup gid fun g => g.workDone cls n fail 0
  else s.modGroup gid fun g => (g.workDone cls n fail 0).complete cls

/-- Tile m of a group. -/
def Group.tile (g : Group) (m : Nat) : Tile := g.tiles.getD m {}
/-- Replaces tile m. -/
def Group.setTile (g : Group) (m : Nat) (t : Tile) : Group := { g with tiles := g.tiles.set m t }
/-- Bytes from a tile's element storage. -/
def Tile.bytes (t : Tile) (off n : Nat) : List Byte := bytesOf n ((t.data.toNat >>> (8 * off)) % 2 ^ (8 * n))
/-- Puts bytes into a tile's element storage. -/
def Tile.put (t : Tile) (off : Nat) (bs : List Byte) : Tile :=
  { t with
    data := BitVec.ofNat 65536 (putBits t.data.toNat (8 * off) (8 * bs.length) (ofBytes bs))
    bad := t.bad.filter fun w => !(decide (off ≤ 4 * w) && decide (4 * w + 4 ≤ off + bs.length)) }
/-- RB for a column count and element width (R208). -/
def rowBytes (cols w : Nat) : Nat := (cols * w + 7) / 8
/-- The scale bytes of a shape (R211). -/
def planeBytes (rows cols : Nat) : Nat := ((rows + 31) / 32) * ((cols + 31) / 32)
/-- Clears the padding bits of a row (R211). -/
def padRow (cols w : Nat) (bs : List Byte) : List Byte := bytesOf bs.length (ofBytes bs % 2 ^ (cols * w))
/-- The element code at (r, c) of a tile (R208, R24). -/
def Tile.code (t : Tile) (cols w r c : Nat) : Nat := (t.data.toNat >>> (8 * r * rowBytes cols w + c * w)) % 2 ^ w
/-- The E8M0 scale of the block that holds (r, c) (R25). -/
def Tile.scale (t : Tile) (cols r c : Nat) : Nat := (t.scl.toNat >>> (8 * ((r / 32) * ((cols + 31) / 32) + c / 32))) % 256
/-- The value of an element: decoded, and scaled when the slot is block-scaled (R26). -/
def Tile.value (t : Tile) (word : Word) (cols r c : Nat) : Num :=
  let x := (slotFormat word).decode (t.code cols (slotFormat word).width r c)
  if slotScale word = 2 then scaled x (t.scale cols r c) else x

/-- The tiles a request reads (R233, R235, R251). -/
def Req.tiles (e : Req) : List Nat :=
  match e.op with | 0xD6 => [e.a, e.b] | 0xD7 => [e.a, e.b, e.c] | 0xD8 => [e.a, e.b] | _ => []
/-- Whether a tile word holds bits of the element at (r, c), or its scale where the slot is block-scaled (R24, R25, R208). -/
def touches (word : Word) (cols r c k : Nat) : Bool :=
  let w := (slotFormat word).width
  let o := 8 * r * rowBytes cols w + c * w
  (decide (o / 32 ≤ k) && decide (k ≤ (o + w - 1) / 32)) ||
    (slotScale word == 2 && k == 2048 + ((r / 32) * ((cols + 31) / 32) + c / 32) / 4)
/-- The requests of a group that still have to read a tile (R213). -/
def State.tileReaders (s : State) (gid tile : Nat) : List Nat :=
  s.quads.flatMap fun q => (q.2.table.filter fun e => e.gid == gid && !e.granted && e.tiles.contains tile).map (·.id)
/-- Whether a request still has to read its tiles. -/
def State.reqWaits (s : State) (id : Nat) : Bool := s.quads.any fun q => q.2.table.any fun e => e.id == id && !e.granted
/-- The requests of a group that write a tile and have not completed (R240). -/
def State.tileWriters (s : State) (gid tile : Nat) : List Nat :=
  s.quads.flatMap fun q => (q.2.table.filter fun e => e.gid == gid && e.op == 0xDB && e.d == tile).map (·.id)
/-- Whether a request has not completed. -/
def State.inTable (s : State) (id : Nat) : Bool := s.quads.any fun q => q.2.table.any fun e => e.id == id
/-- The rows an MLD or MST moves: each row's scratchpad address (R211). -/
def rowAddrs (base pitch rows : Nat) : List Nat := (List.range rows).map fun r => (base + r * pitch) % 2 ^ 32
/-- The first failing address of a byte range of one rank. -/
def Block.extentAddr (b : Block) (addr w : Nat) : Option Nat :=
  if b.spadOk addr w then none
  else if spadRank addr ≥ b.nr ∨ spadOff addr ≥ b.spad then some addr
  else some (spadRank addr * 2 ^ 24 + b.spad)
/-- The scope of the issue of an MLD or MST: core when every rank it names is the group's own core, else the block's span
(R213, R282). -/
def Block.tlScope (b : Block) (core : Nat) (addrs : List Nat) : Nat :=
  if addrs.all fun a => b.coreOf a == core then 1 else b.span + 1
/-- MLD and MST: the checks of TILECHECK in order, then the issue is a release and the operation is queued (R211, R282). -/
def tileMoveEff (store : Bool) : Iss → State → Eff := fun i s =>
  if i.exec = 0 then .done s else
  let g := s.group i.gid
  let t := g.tile i.ins.d
  let r := s.regs i
  let word := s.fmtSlot i.gid t.slot
  let rb := rowBytes t.cols (slotFormat word).width
  let base := r.saddr i 0
  let p0 := (r.x i.ins.c 0).toNat
  let pitch := if p0 = 0 then rb else p0
  let plane := (r.x (i.ins.c + 1) 0).toNat
  if !t.shaped then .trap (i.fault .illegalOperand) s
  else if !slotOk word then .trap (i.fault .formatSlot) s
  else if store && decide (pitch < rb) then .trap (i.fault .illegalOperand) s
  else if base % 4 ≠ 0 ∨ pitch % 4 ≠ 0 then .trap (i.trap .misalign (BitVec.ofNat 64 base)) s
  else
    let b := s.blockOf i
    let rows := (rowAddrs base pitch t.rows).findSome? fun a => b.extentAddr a rb
    let bad := match rows with
      | some a => some a
      | none => if slotScale word = 2 then b.extentAddr plane (planeBytes t.rows t.cols) else none
    match bad with
    | some a => .trap (i.trap .extent (BitVec.ofNat 64 a)) s
    | none =>
      if s.counterFull i.gid 1 then .wait s
      else
        let (rel, s0) := s.startRelease i.gid i.core i.active
          (b.tlScope i.core (rowAddrs base pitch t.rows ++ if slotScale word = 2 then [plane] else []))
        let (n, s1) := s0.countOp i.gid 1 id
        let op : TlOp :=
          { kind := if store then 1 else 0, n := n, tile := i.ins.d, src := 0, base := base, pitch := pitch, plane := plane
            rows := t.rows, cols := t.cols, fmt := word
            deps := rel ++ (s.spads.filter fun m => m.gid == i.gid && !m.done).map (·.id) ++ (if store then [] else s.tileReaders i.gid i.ins.d)
            mx := s.tileWriters i.gid i.ins.d
            amx := if store && g.amxEn && !i.handler then some g.amxIdx else none }
        .done (s1.modGroup i.gid fun g => { g with tl := g.tl ++ [op] })
/-- MMOV and MZERO (R212). An MMOV keeps the shape its source has as it issues (R210; log 67, DEDUCED). -/
def tileFileEff (kind : Nat) : Iss → State → Eff := fun i s =>
  let t := (s.group i.gid).tile i.ins.a
  if i.exec = 0 then .done s
  else if s.counterFull i.gid 1 then .wait s
  else
    let (n, s1) := s.countOp i.gid 1 id
    .done (s1.modGroup i.gid fun g => { g with tl := g.tl ++ [{
      kind := kind, n := n, tile := i.ins.d, src := i.ins.a, base := 0, pitch := 0, plane := 0, rows := t.rows, cols := t.cols, fmt := 0
      slot := t.slot, shaped := t.shaped, deps := s.tileReaders i.gid i.ins.d
      mx := s.tileWriters i.gid i.ins.d ++ (if kind = 2 then s.tileWriters i.gid i.ins.a else []), amx := none }] })
/-- MSHP (R210). -/
def mshpEff : Iss → State → Eff := fun i s =>
  if i.exec = 0 then .done s else
  let word := s.fmtSlot i.gid i.ins.c
  let v := ((s.regs i).x i.ins.a 0).toNat
  let rows := v % 512
  let cols := bitsOf v 26 16
  if !slotOk word then .trap (i.fault .formatSlot) s
  else if bitsOf v 31 27 ≠ 0 ∨ bitsOf v 15 9 ≠ 0 ∨ rows = 0 ∨ rows > 256 ∨ cols = 0 ∨ cols > 1024 ∨
      rows * rowBytes cols (slotFormat word).width > 8192 then .trap (i.fault .illegalOperand) s
  else .done (s.modGroup i.gid fun g => g.setTile i.ins.d
    { g.tile i.ins.d with rows := rows, cols := cols, slot := i.ins.c, shaped := true })

/-- MLD as it runs: the tile, and the first unreadable word (R211, R214). -/
def Block.mld (b : Block) (op : TlOp) (t : Tile) : Tile × Option Nat :=
  let w := (slotFormat op.fmt).width
  let rb := rowBytes op.cols w
  let word (a : Nat) : Byte := if b.badAt a 1 then 0 else (b.read a 1).headD 0
  let rows := rowAddrs op.base op.pitch op.rows
  let t1 := (rows.mapIdx fun r a => (r, a)).foldl (fun t ra =>
    t.put (ra.1 * rb) (padRow op.cols w ((List.range rb).map fun k => word (ra.2 + k)))) { t with failed := false }
  let nb := planeBytes op.rows op.cols
  let t2 : Tile := if slotScale op.fmt = 2 then
      { t1 with
        scl := BitVec.ofNat 2048 (putBits t1.scl.toNat 0 (8 * nb) (ofBytes ((List.range nb).map fun k => word (op.plane + k))))
        bad := t1.bad.filter fun w => !(decide (2048 ≤ w) && decide (4 * (w - 2048) + 4 ≤ nb)) }
    else t1
  let all := rows.flatMap (fun a => (List.range rb).map (a + ·)) ++
    (if slotScale op.fmt = 2 then (List.range nb).map (op.plane + ·) else [])
  match all.find? fun a => b.badAt a 1 with
  | some a => ({ t2 with failed := true }, some (a / 4 * 4))
  | none => (t2, none)
/-- The bytes of a scratchpad word that an MST gives are written, whole or one by one: none of a tile word that cannot be read (R211,
R214). -/
def Block.putWord (b : Block) (addr : Nat) (bs : List (Option Byte)) : Block :=
  if bs.all Option.isSome then b.write addr (bs.map fun x => x.getD 0)
  else (bs.mapIdx fun k x => (k, x)).foldl (fun b x => match x.2 with | some v => b.write (addr + x.1) [v] | none => b) b
/-- Bytes written from an address on, word by word (R202, R211). -/
def Block.putWords (b : Block) (addr : Nat) (bs : List (Option Byte)) : Block :=
  (List.range ((addr % 4 + bs.length + 3) / 4)).foldl (fun b k =>
    let lo := 4 * k - addr % 4
    b.putWord (addr + lo) ((bs.drop lo).take (4 * (k + 1) - addr % 4 - lo))) b
/-- MST as it runs: the block, and the scratchpad address of the first word the tile could not give (R211, R214). -/
def Block.mst (b : Block) (op : TlOp) (t : Tile) : Block × Option Nat :=
  let w := (slotFormat op.fmt).width
  let rb := rowBytes op.cols w
  let rows := (rowAddrs op.base op.pitch op.rows).mapIdx fun r a => (r, a)
  let given (first : Nat) (bs : List Byte) : List (Option Byte) := bs.mapIdx fun k x => if t.bad.contains ((first + k) / 4) then none else some x
  let b1 := rows.foldl (fun b ra => b.putWords ra.2 (given (ra.1 * rb) (padRow op.cols w (t.bytes (ra.1 * rb) rb)))) b
  let nb := planeBytes op.rows op.cols
  let scl := slotScale op.fmt == 2
  let b2 := if scl then b1.putWords op.plane (given (4 * 2048) (bytesOf nb (t.scl.toNat % 2 ^ (8 * nb)))) else b1
  let lost (first at_ n : Nat) : Option Nat := ((List.range n).find? fun k => t.bad.contains ((first + k) / 4)).map fun k => (at_ + k) / 4 * 4
  (b2, match rows.findSome? fun ra => lost (ra.1 * rb) ra.2 rb with
    | some a => some a
    | none => if scl then lost (4 * 2048) op.plane nb else none)
/-- The value an armed MST records (R262). What widening a scaled element would raise is dropped: R211 has MST raise no flag (log 96,
DESIGN CHOICE). Its elements count unscaled where the slot has a scale that MST names no register for, SCALE 1 (log 117, DESIGN CHOICE). -/
def tileAmax (op : TlOp) (t : Tile) : Nat :=
  absMax ((List.range op.rows).flatMap fun r => (List.range op.cols).map fun c =>
    (roundTo .fp32 false 0 (t.value op.fmt op.cols r c)).1)
/-- A TL operation's unreadable word (R214, R311). -/
def tlFail (a : Option Nat) : Option Fail := a.map fun x => { reason := 8, side := 2, addr := BitVec.ofNat 64 x }
/-- Whether the next TL operation of a group can run (R213). -/
def State.tlReady (s : State) (gid : Nat) : Bool :=
  match (s.group gid).tl with
  | [] => false
  | op :: _ => !op.deps.any (fun d => s.pendingId d || s.reqWaits d) && !op.mx.any s.inTable && !s.groupClamped gid
/-- The next TL operation of a group runs and completes (R211 to R214). An MMOV of a tile with unreadable words fails, and its
copy holds words as unreadable (R314). An armed MST that meets such words records the maximum with what they held (log 131, DESIGN
CHOICE). -/
def State.runTl (s : State) (gid : Nat) : State :=
  let g := s.group gid
  match g.tl with
  | [] => s
  | op :: rest =>
    let s0 := s.setGroup gid { g with tl := rest }
    match op.kind with
    | 0 =>
      let (t, bad) := (s.block g.blk).mld op (g.tile op.tile)
      (s0.modGroup gid fun g => g.setTile op.tile t).endOp gid 1 op.n (tlFail bad)
    | 1 =>
      let t := g.tile op.tile
      let (b, bad) := (s.block g.blk).mst op t
      let s1 := s0.setBlock g.blk b
      let s2 := match op.amx with
        | some k => op.after.foldl (fun (s : State) (x : Nat × Nat) => s.recordScale g.ctx x.1 x.2) (s1.recordScale g.ctx k (tileAmax op t))
        | none => s1
      s2.endOp gid 1 op.n (tlFail bad)
    | 2 =>
      if op.src = op.tile then s0.endOp gid 1 op.n none
      else
        let t := g.tile op.src
        (s0.modGroup gid fun g => g.setTile op.tile { t with
          rows := op.rows, cols := op.cols, slot := op.slot, shaped := op.shaped, failed := !t.bad.isEmpty }).endOp gid 1 op.n
          (if t.bad.isEmpty then none else some { reason := 8, side := 2, addr := 0 })
    | _ => (s0.modGroup gid fun g => g.setTile op.tile { g.tile op.tile with data := 0, scl := ({} : Tile).scl, failed := false, bad := [] }).endOp
        gid 1 op.n none

/-- MLD: issues in the split in focus. -/
def execMld (f : W64F) (s : State) := issue (insW64 0xD0 f) (tileMoveEff false) s
/-- MST: issues in the split in focus. -/
def execMst (f : W64F) (s : State) := issue (insW64 0xD1 f) (tileMoveEff true) s
/-- MSHP: issues in the split in focus. -/
def execMshp (f : W64F) (s : State) := issue (insW64 0xD2 f) mshpEff s
/-- MMOV: issues in the split in focus. -/
def execMmov (f : W64F) (s : State) := issue (insW64 0xD3 f) (tileFileEff 2) s
/-- MZERO: issues in the split in focus. -/
def execMzero (f : W64F) (s : State) := issue (insW64 0xD4 f) (tileFileEff 3) s

end Sys2Proof.Machine
end

