-- ==== Sys2Proof/Machine/Anvil.lean ====
section
/-! DEFINITION. The quad's reservation table and its requests, and the instructions EMSK, MMA, MMAS, MDRN, MDRNA and MACZ
(R224 to R245). -/

namespace Sys2Proof.Machine

/-- Word k of an accumulator slot (R226). -/
def Acc.word (a : Acc) (k : Nat) : Nat := (a.toNat >>> (32 * k)) % 2 ^ 32
/-- Replaces word k of an accumulator slot. -/
def Acc.put (a : Acc) (k v : Nat) : Acc := BitVec.ofNat 131072 (putBits a.toNat (32 * k) 32 v)
/-- Accumulator slot n of a group. -/
def Group.acc (g : Group) (n : Nat) : Acc := g.accs.getD n 0
/-- Whether a bit of an edge mask is set (R227). -/
def edge (m : Dword) (k : Nat) : Bool := m.getLsbD k

/-- The quarters with an executing lane (R230). -/
def Iss.quarters (i : Iss) : List Nat := (List.range 4).filter fun q => (i.exec.toNat >>> (8 * q)) % 256 != 0
/-- ER and EC of a request (R227). -/
def State.edges (s : State) (i : Iss) : Dword × Dword :=
  let e := (s.group i.gid).edges
  if i.ins.es = 0 then (BitVec.allOnes 64, BitVec.allOnes 64)
  else (e.getD (2 * i.ins.es - 2) 0, e.getD (2 * i.ins.es - 1) 0)
/-- A register of those an instruction reads whose word fails its check (R314). -/
def State.badAmong (s : State) (i : Iss) (codes : List Nat) : Option Trap :=
  (codes.find? fun c => s.badWord i c 0).map fun c => i.trap .dataError (BitVec.ofNat 64 c)

/-- The accumulator slots of its group that a request reads or writes (R240): an MDRNA into a slot of its own group writes that too. -/
def Req.slots (e : Req) : List Nat :=
  match e.op with
  | 0xD6 => [e.d] | 0xD7 => [e.d] | 0xD8 => if slotScale e.sa = 2 then [e.c] else [] | 0xD9 => [e.d]
  | 0xDB => [e.a] | 0xDC => e.a :: (if e.c < 8 then [e.c] else []) | 0xDD => [e.d] | 0x100 => [e.d] | _ => []
/-- The tile a request writes. -/
def Req.wtiles (e : Req) : List Nat := if e.op = 0xDB then [e.d] else []
/-- The planes a request names (R249). -/
def Req.planes (e : Req) : List Nat :=
  match e.op with
  | 0xD8 => [e.d] | 0xD9 => [e.a] | 0xDA => if e.opx = 1 then [e.d] else [e.d, e.a] | 0x101 => [e.a] | _ => []
/-- Whether two lists share a member. -/
def meets (a b : List Nat) : Bool := a.any b.contains
/-- The requests that a new one waits for until they complete, and until they have read (R240, R249). -/
def Quad.ahead (x : Quad) (e : Req) : List Nat × List Nat :=
  ((x.table.filter fun f => (f.gid == e.gid && (meets f.slots e.slots || meets f.wtiles (e.tiles ++ e.wtiles)))
      || meets f.planes e.planes).map (·.id),
   (x.table.filter fun f => f.gid == e.gid && meets f.tiles e.wtiles).map (·.id))
/-- A request enters the table of a quad (R239, R240). The source side of a peer merge never waits for the end that waits for it
(R257). -/
def State.addReq (s : State) (qd : Nat) (e : Req) : State :=
  s.modQuad qd fun x =>
    let (b, r) := x.ahead e
    let b1 := if e.op = 0x101 then b.filter (· != e.peer) else b
    { x with table := x.table ++ [{ e with before := e.before ++ b1, rd := r }] }
/-- Whether a later request has the configuration of a held one and other quarters (R241). -/
def Req.fuses (e f : Req) : Bool :=
  f.held && f.gid == e.gid && f.op == e.op && f.d == e.d && f.a == e.a && f.b == e.b && f.c == e.c && f.m12 == e.m12
    && f.er == e.er && f.ec == e.ec && f.xa == e.xa && f.xb == e.xb && !meets f.q e.q
/-- Whether an MX operation must wait for its counter, for an entry of the table or for one of its core (R173, R239). -/
def State.mxFull (s : State) (i : Iss) : Bool :=
  s.counterFull i.gid 2 || decide ((s.quad (quadOf i.core)).table.length ≥ 64) ||
    decide (((s.quad (quadOf i.core)).table.filter fun e => e.core == i.core && decide (e.op < 0x100)).length ≥ 16)
/-- The request an issuing split forms, with what every operation captures (R239). -/
def State.request (s : State) (i : Iss) : Req :=
  let g := s.group i.gid
  let (er, ec) := s.edges i
  { id := 0, op := i.ins.op, gid := i.gid, core := i.core, n := [], q := i.quarters, d := i.ins.d, a := i.ins.a, b := i.ins.b
    c := i.ins.c, sa := 0, sb := 0, ta := i.ins.ta, tb := i.ins.tb, opx := i.ins.opx, er := er, ec := ec, m12 := i.ins.m12
    m := 0, k := 0, nn := 0, xa := 127, xb := 127, word := 0, prio := g.prio, tl := [], before := [], rd := [], d0 := [], held := false }
/-- The TL operations still to run that write a tile of a list (R240). -/
def Group.tlWriters (g : Group) (tiles : List Nat) : List Nat :=
  (g.tl.filter fun o => o.kind != 1 && tiles.contains o.tile).map (·.n)
/-- Whether a request may join a held one: nothing it must wait for has come between them, neither a TL operation nor a request (R213,
R240; log 67, DEDUCED). -/
def State.joins (s : State) (e f : Req) : Bool :=
  e.fuses f && ((s.group e.gid).tlWriters e.tiles).all f.tl.contains
    && ((s.quad (quadOf e.core)).ahead e).1.all fun k => k == f.id || f.before.contains k
/-- An MX operation is counted and its request enters the table, or fuses into a held one (R231, R239, R241). -/
def State.enterReq (s : State) (i : Iss) (e : Req) : State :=
  let (n, s1) := s.countOp i.gid 2 id
  let qd := quadOf i.core
  match (s1.quad qd).table.find? (s1.joins e) with
  | some f =>
    let q := f.q ++ e.q
    let ns := f.n ++ [n]
    let s2 := s1.modQuad qd fun x => { x with table := x.table.map fun y =>
      if y.id = f.id then { y with n := ns, q := q, held := decide (q.length < 4) } else y }
    let mate (o : EngOp) : EngOp := if o.cls = 2 ∧ ns.contains o.n = true then { o with mate := ns } else o
    s2.modGroup i.gid fun g => { g with ops := g.ops.map mate }
  | none =>
    let (id, s2) := s1.newId
    let held := (e.op == 0xD6 || e.op == 0xD7 || e.op == 0xD8) && decide (e.q.length < 4)
    s2.addReq qd { e with id := id, n := [n], held := held, tl := (s2.group i.gid).tlWriters e.tiles }

/-- PAIROK (R233). -/
def pairOk (a b : Word) : Bool :=
  let fl (w : Word) : Bool := match slotFormat w with
    | .fp32 => true | .bf16 => true | .fp16 => true | .e4m3 => true | .e5m2 => true | .tm8 => true | .e3m2 => true | .e2m3 => true
    | .fp64 => false | .e2m1 => false | .int8 => false | .int4 => false | .e8m0 => false
  (fl a && fl b) || (slotFormat a == .int8 && slotFormat b == .int8)
/-- The chunk depth of a format (R36). -/
def chunkDepth : Fmt → Nat
  | .fp32 => 2 | .bf16 => 8 | .fp16 => 8 | _ => 16

/-- The shapes of the operands as read: M, Ka, Kb, N (R233). -/
def opShapes (ta tb : Bool) (x y : Tile) : Nat × Nat × Nat × Nat :=
  let (m, ka) := if ta then (x.cols, x.rows) else (x.rows, x.cols)
  let (kb, n) := if tb then (y.cols, y.rows) else (y.rows, y.cols)
  (m, ka, kb, n)
/-- EMSK (R232). -/
def emskEff : Iss → State → Eff := fun i s =>
  if i.exec = 0 then .done s else
  let r := s.regs i
  let v : Dword :=
    if i.ins.opx = 0 then BitVec.ofNat 64 (r.xs i.ins.a 2 0)
    else BitVec.ofNat 64 (2 ^ min (r.x i.ins.a 0).toNat 64 - 1)
  .done (s.modGroup i.gid fun g => { g with edges := g.edges.set i.ins.d v })
/-- The scale bytes of a request (R27): g[C][7:0] and g[C + 1][7:0] where used, else 2^0. -/
def State.scaleBytes (s : State) (i : Iss) (c : Nat) (sa sb : Bool) : Nat × Nat :=
  let r := s.regs i
  (if sa then (r.x c 0).toNat % 256 else 127, if sb then (r.x (c + 1) 0).toNat % 256 else 127)
/-- MMA (R233). Its scale registers are read after its checks, where they are captured (log 127, DESIGN CHOICE). -/
def mmaEff : Iss → State → Eff := fun i s =>
  if i.exec = 0 then .done s else
  let g := s.group i.gid
  let x := g.tile i.ins.a
  let y := g.tile i.ins.b
  let sa := s.fmtSlot i.gid i.ins.sa
  let sb := s.fmtSlot i.gid i.ins.sb
  let (m, ka, kb, n) := opShapes i.ins.ta i.ins.tb x y
  let per := slotScale sa == 1 || slotScale sb == 1
  if !x.shaped || !y.shaped then .trap (i.fault .illegalOperand) s
  else if !slotOk sa || !slotOk sb then .trap (i.fault .formatSlot) s
  else if i.ins.sa ≠ x.slot ∨ i.ins.sb ≠ y.slot then .trap (i.fault .illegalOperand) s
  else if !pairOk sa sb then .trap (i.fault .formatSlot) s
  else if ka ≠ kb ∨ m > 64 ∨ n > 64 then .trap (i.fault .illegalOperand) s
  else if per && !i.ins.operandOk (s.bounds i) kgp i.ins.c then .trap (i.fault .illegalOperand) s
  else if !per && i.ins.c != 0 then .trap (i.fault .illegalOpcode) s
  else match if per then s.badAmong i [i.ins.c, i.ins.c + 1] else none with
    | some t => .trap t s
    | none =>
      if s.mxFull i then .wait s
      else
        let (xa, xb) := s.scaleBytes i i.ins.c (slotScale sa == 1) (slotScale sb == 1)
        .done (s.enterReq i { s.request i with sa := sa, sb := sb, m := m, k := ka, nn := n, xa := xa, xb := xb })
/-- The formats of MMAS's A operand (R235). -/
def sparseFmt (w : Word) : Bool :=
  match slotFormat w with
  | .fp16 => true | .bf16 => true | .e4m3 => true | .e5m2 => true | .tm8 => true | .int8 => true | _ => false
/-- MMAS (R235). Where its own checks stand among those of R233 is the model's choice (log 126, DEDUCED): C is tested for its shape beside A
and B, and formats and scales after the slots are matched. -/
def mmasEff : Iss → State → Eff := fun i s =>
  if i.exec = 0 then .done s else
  let g := s.group i.gid
  let x := g.tile i.ins.a
  let y := g.tile i.ins.b
  let z := g.tile i.ins.c
  let sa := s.fmtSlot i.gid i.ins.sa
  let sb := s.fmtSlot i.gid i.ins.sb
  let sc := s.fmtSlot i.gid z.slot
  let (m, ka, kb, n) := opShapes false i.ins.tb x y
  if !x.shaped || !y.shaped || !z.shaped then .trap (i.fault .illegalOperand) s
  else if !slotOk sa || !slotOk sb then .trap (i.fault .formatSlot) s
  else if i.ins.sa ≠ x.slot ∨ i.ins.sb ≠ y.slot then .trap (i.fault .illegalOperand) s
  else if !slotOk sc || !pairOk sa sb || !sparseFmt sa || slotScale sa != 0 || slotScale sb == 1 || slotFormat sc != .int4
      || slotScale sc != 0 then .trap (i.fault .formatSlot) s
  else if ka % 2 ≠ 0 ∨ kb ≠ 2 * ka ∨ m > 64 ∨ n > 64 ∨ z.rows ≠ m ∨ 2 * z.cols ≠ ka then .trap (i.fault .illegalOperand) s
  else if s.mxFull i then .wait s
  else .done (s.enterReq i { s.request i with sa := sa, sb := sb, m := m, k := 2 * ka, nn := n })
/-- MDRN (R236). -/
def mdrnEff : Iss → State → Eff := fun i s =>
  if i.exec = 0 then .done s else
  let g := s.group i.gid
  let t := g.tile i.ins.d
  let slot := s.fmtSlot i.gid t.slot
  let r := s.regs i
  let o := if i.ins.b = 288 then 0 else (r.x i.ins.b 0).toNat
  let x := if i.ins.b = 288 then 127 else (r.x (i.ins.b + 1) 0).toNat % 256
  if !t.shaped then .trap (i.fault .illegalOperand) s
  else if !slotOk slot || slotScale slot == 2 then .trap (i.fault .formatSlot) s
  else if bitsOf o 31 22 ≠ 0 ∨ bitsOf o 15 6 ≠ 0 ∨ o % 64 + t.rows > 64 ∨ bitsOf o 21 16 + t.cols > 64 then
    .trap (i.fault .illegalOperand) s
  else if s.mxFull i then .wait s
  else .done (s.enterReq i { s.request i with
    sa := slot, m := t.rows, nn := t.cols, word := BitVec.ofNat 32 o, xa := if slotScale slot = 1 then x else 127 })
/-- The resident group of a block with a GROUP index. -/
def State.memberGid (s : State) (blk index : Nat) : Option Nat :=
  (s.block blk).groups.find? fun gid => (s.group gid).index == index
/-- MDRNA (R237); `c` of its request is the slot of its own group that it writes, if it is one. -/
def mdrnaEff : Iss → State → Eff := fun i s =>
  if i.exec = 0 then .done s else
  let g := s.group i.gid
  let v := ((s.regs i).x i.ins.b 0).toNat
  if bitsOf v 31 19 ≠ 0 ∨ bitsOf v 15 11 ≠ 0 ∨ v % 2 ^ 11 ≥ (s.block g.blk).ngroups ∨
      (v % 2 ^ 11 = g.index ∧ bitsOf v 18 16 = i.ins.a) then .trap (i.fault .illegalOperand) s
  else if s.mxFull i then .wait s
  else .done (s.enterReq i { s.request i with word := BitVec.ofNat 32 v, c := if v % 2 ^ 11 = g.index then bitsOf v 18 16 else 288 })
/-- MACZ (R238). -/
def maczEff : Iss → State → Eff := fun i s =>
  if i.exec = 0 then .done s
  else if s.mxFull i then .wait s
  else .done (s.enterReq i (s.request i))

/-- The name under which an arrival stands whose target group has retired since it was accepted. -/
def orphanGid : Nat := 2 ^ 19
/-- The group that a request belongs to: an arrival whose target is gone to the group that issued it, of the same block (R237). -/
def Req.owner (e : Req) : Nat := if e.gid = orphanGid then e.peer else e.gid
/-- Whether a request may be granted (R240, R241, R249). -/
def State.eligible (s : State) (e : Req) : Bool :=
  !e.granted && !e.held && e.arrived && !s.groupClamped e.owner
    && !(s.group e.gid).tl.any (fun o => e.tl.contains o.n)
    && !e.before.any s.inTable && !e.rd.any s.reqWaits
/-- Whether a request runs in the array (R242). -/
def Req.inArray (e : Req) : Bool := e.op == 0xD6 || e.op == 0xD7 || e.op == 0xD8
/-- The effective priority (R242). -/
def Req.priority (e : Req) : Nat := if e.aged then 4 else e.prio
/-- The core of a request as ties are won: core-in-quad, 4 for an arrival (R242). -/
def Req.lane (e : Req) : Nat := if e.op < 0x100 then e.core % 4 else 4
/-- Whether the first of two eligible requests wins (R242); the first entered the table first. -/
def Req.beats (e f : Req) : Bool :=
  if e.priority ≠ f.priority then decide (e.priority > f.priority)
  else match e.since, f.since with
    | some a, some b => if a ≠ b then decide (a < b) else decide (e.lane ≤ f.lane)
    | some _, none => true
    | none, some _ => false
    | none, none => decide (e.lane ≤ f.lane)
/-- The request a resource grants. -/
def State.granting (s : State) (qd : Nat) (array : Bool) : Option Req :=
  ((s.quad qd).table.filter fun e => e.inArray == array && e.op != 0x101 && s.eligible e).foldl
    (fun acc e => match acc with | none => some e | some b => if b.beats e then some b else some e) none
/-- Requests that have become eligible are stamped in the order in which they became so (R242). -/
def State.stampEligible (s : State) : State :=
  let (now, s1) := s.newId
  let stamp (e : Req) : Req := if e.since.isNone && s.eligible e then { e with since := some now } else e
  { s1 with quads := s.quads.map fun p => (p.1, { p.2 with table := p.2.table.map stamp }) }

/-- The failure of a tile a request reads at some elements (R214, R245): inherited, or of a word its code cannot correct, which has no
scratchpad address (R311; log 66, DESIGN CHOICE). -/
def Tile.failure (t : Tile) (word : Word) (cols : Nat) (els : List (Nat × Nat)) : Option Fail :=
  if t.failed then some { reason := 0x15, side := 2, addr := 0 }
  else if t.bad.any (fun k => els.any fun x => touches word cols x.1 x.2 k) then some { reason := 0x08, side := 2, addr := 0 } else none
/-- The failure of a slot a request reads at some elements (R245). -/
def Group.accFailure (g : Group) (slot : Nat) (els : List Nat) : Option Fail :=
  if g.accFail.contains slot then some { reason := 0x15, side := 3, addr := 0 }
  else if els.any (fun k => g.accBad.contains (slot, k)) then some { reason := 0x08, side := 3, addr := 0 } else none
/-- The rows and columns of the slot that a pass computes (R234). -/
def Req.band (e : Req) : List Nat × List Nat :=
  ((List.range e.m).filter fun r => e.q.contains (r / 16) && edge e.er r, (List.range e.nn).filter fun c => edge e.ec c)
/-- The places of an operand tile that a pass reads: of A and of B as stored, and of the index tile of a sparse pass (R233 to R235,
R252). -/
def Req.readsOf (e : Req) : List (Nat × Word × Nat × List (Nat × Nat)) :=
  let (rs, cs) := e.band
  let ka := if e.op = 0xD7 then e.k / 2 else e.k
  let pairs (a b : List Nat) : List (Nat × Nat) := a.flatMap fun x => b.map fun y => (x, y)
  let x := if e.ta then pairs (List.range ka) rs else pairs rs (List.range ka)
  let y := if e.tb then pairs cs (List.range e.k) else pairs (List.range e.k) cs
  [(e.a, e.sa, if e.ta then e.m else ka, if cs.isEmpty then [] else x), (e.b, e.sb, if e.tb then e.k else e.nn, if rs.isEmpty then [] else y)] ++
    (if e.op = 0xD7 then [(e.c, BitVec.ofNat 32 10, e.k / 4, if cs.isEmpty then [] else pairs rs (List.range (e.k / 4)))] else [])
/-- The failure of a request before it runs. -/
def Group.reqFailure (g : Group) (e : Req) (reads : List Nat) : Option Fail :=
  match e.readsOf.findSome? fun x => (g.tile x.1).failure x.2.1 x.2.2.1 x.2.2.2 with
  | some f => some f
  | none => if reads.isEmpty then none else g.accFailure ((e.slots).headD 0) reads
/-- Words of a slot were written: their errors are gone; a failed writer marks the slot (R245, R314). One that replaced every word without
reading clears the mark (log 115, DESIGN CHOICE). -/
def Group.wroteAcc (g : Group) (slot : Nat) (els : List Nat) (failed reads : Bool) : Group :=
  { g with
    accBad := g.accBad.filter fun b => !(b.1 == slot && els.contains b.2)
    accFail := if failed then (if g.accFail.contains slot then g.accFail else g.accFail ++ [slot])
      else if !reads && decide (els.length = 4096) then g.accFail.filter (· != slot) else g.accFail }

/-- The elements of the slot that a pass computes (R234). -/
def Req.elements (e : Req) : List Nat :=
  (List.range e.m).flatMap fun r => if e.q.contains (r / 16) && edge e.er r then
    (List.range e.nn).filterMap fun c => if edge e.ec c then some (64 * r + c) else none else []
/-- An element of an operand under its scale (R26, R27, R234). -/
def tileElem (t : Tile) (slot : Word) (x cols r c : Nat) : Num :=
  if slotScale slot = 1 then scaled ((slotFormat slot).decode (t.code cols (slotFormat slot).width r c)) x
  else t.value slot cols r c
/-- Element B(k, c) as read. -/
def Req.elemB (e : Req) (y : Tile) (k c : Nat) : Num :=
  if e.tb then tileElem y e.sb e.xb e.k c k else tileElem y e.sb e.xb e.nn k c
/-- The stored A element at (r, k), or the expanded one of a sparse pass (R235). -/
def Req.elemA (e : Req) (x z : Tile) (r k : Nat) : Num :=
  if e.op = 0xD7 then
    let g := k / 4
    let code := z.code (e.k / 4) 4 r g
    let st (j : Nat) : Num := tileElem x e.sa 127 (e.k / 2) r j
    let lo := code % 4
    let hi := code / 4
    if k % 4 = lo ∧ k % 4 = hi then (addNum 0 (st (2 * g)) (st (2 * g + 1))).1
    else if k % 4 = lo then st (2 * g)
    else if k % 4 = hi then st (2 * g + 1)
    else .fin false 0 0
  else if e.ta then tileElem x e.sa e.xa e.m k r else tileElem x e.sa e.xa e.k r k
/-- The exact sum of a chunk's products (R36): a NaN it yields sets NV. -/
def chunkSum (ps : List Num) : Num × Flags :=
  let t := match ps with
    | [] => .fin false 0 0
    | p :: r => r.foldl (fun a b => (addNum 0 a b).1) p
  if t.isNaN then (.nan false, flagNV) else (t, 0)
/-- The integer value of a number with no fraction. -/
def Num.int : Num → Int
  | .fin neg m e => let v : Int := ((m <<< e.toNat : Nat) : Int); if neg then -v else v
  | _ => 0
/-- One chunk added to an element: one rounding, or one clamp (R36, R37). -/
def addChunk (int8 : Bool) (acc : Nat) (ps : List Num) : Nat × Flags :=
  if int8 then
    let (v, cl) := clampInt 32 true (signedOf 32 acc + (ps.map Num.int).sum)
    (v, flagIf cl flagACCSAT)
  else
    let (t, f) := chunkSum ps
    let (v, g) := finish .fp32 0 (addNum 0 (Fmt.fp32.decode acc) t)
    (v, f ||| g)
/-- The result of one element of an uncounted pass (R234). -/
def Req.element (e : Req) (x y z : Tile) (old r c : Nat) : Nat × Flags :=
  let d := min (chunkDepth (slotFormat e.sa)) (chunkDepth (slotFormat e.sb)) * (if e.op = 0xD7 then 2 else 1)
  (List.range ((e.k + d - 1) / d)).foldl (fun acc j =>
    let ps := (List.range (min d (e.k - d * j))).map fun t => (mulNum (e.elemA x z r (d * j + t)) (e.elemB y (d * j + t) c)).1
    let (v, f) := addChunk (slotFormat e.sa == .int8) acc.1 ps
    (v, acc.2 ||| f)) (if e.opx = 1 then 0 else old, 0)
/-- An uncounted pass: what it makes of its slot, its flags and its failure (R234, R245). -/
def Group.runPass (g : Group) (e : Req) : Acc × Flags × Option Fail :=
  let els := e.elements
  let acc := g.acc e.d
  match g.reqFailure e (if e.opx = 1 then [] else els) with
  | some f => (els.foldl (fun a k => a.put k 0) acc, 0, some f)
  | none =>
    let (a, fl) := els.foldl (fun (st : Acc × Flags) k =>
      let (v, f) := e.element (g.tile e.a) (g.tile e.b) (g.tile e.c) (acc.word k) (k / 64) (k % 64)
      (st.1.put k v, st.2 ||| f)) (acc, 0)
    (a, fl, none)

/-- The work of a request ends with its flags and its failure (R43, R245). -/
def State.endReq (s : State) (e : Req) (fail : Option Fail) (fl : Flags) : State :=
  s.modGroup e.gid fun g => e.n.foldl (fun g n => g.workDone 2 n fail (if fail.isSome then 0 else fl)) g
/-- Changes a request of a quad. -/
def State.modReq (s : State) (qd id : Nat) (f : Req → Req) : State :=
  s.modQuad qd fun x => { x with table := x.table.map fun e => if e.id = id then f e else e }
/-- The elements (i, j) that MDRN drains, with their slot words (R236). -/
def Req.drained (e : Req) : List (Nat × Nat × Nat) :=
  let o := e.word.toNat
  (List.range e.m).flatMap fun i => (List.range e.nn).filterMap fun j =>
    let r := o % 64 + i
    let c := bitsOf o 21 16 + j
    if edge e.er r && edge e.ec c then some (i, j, 64 * r + c) else none
/-- One element narrowed into the tile (R236). Under SR a floating format rounds stochastically whatever the source (R33; log 103,
DEDUCED). -/
def Req.narrowed (e : Req) (k w : Nat) : Nat × Flags :=
  let i32 := e.opx / 2 == 1
  let x : Num := if i32 then Num.ofInt (signedOf 32 w) else Fmt.fp32.decode w
  let y := if slotScale e.sa = 1 then (if e.xa = 255 then (match x with | .nan sg => .nan sg | _ => .nan false) else match x with
    | .fin n m ex => .fin n m (ex + 127 - (e.xa : Int)) | v => v) else x
  let (v, f) := narrowTo e.sa 0 y (rngh w k % 2 ^ 16)
  (v, if i32 && (slotFormat e.sa).isInt && !y.isNaN && f &&& flagNV != 0 then (f &&& ~~~flagNV) ||| flagISAT else f)
/-- Puts an element code into a tile of a captured shape. -/
def Tile.putCode (t : Tile) (cols w r c v : Nat) : Tile :=
  { t with data := BitVec.ofNat 65536 (putBits t.data.toNat (8 * r * rowBytes cols w + c * w) w v) }
/-- Clears the padding bits of a row (R208). -/
def Tile.clearPad (t : Tile) (cols w r : Nat) : Tile :=
  { t with data := BitVec.ofNat 65536 (putBits t.data.toNat (8 * r * rowBytes cols w + cols * w) (8 * rowBytes cols w - cols * w) 0) }
/-- Whether every bit of a tile word is an element that MDRN writes or padding of a row it writes (R236, R314). -/
def Req.covers (e : Req) (w k : Nat) : Bool :=
  let row := 8 * rowBytes e.nn w
  (List.range 32).all fun b =>
    let i := (32 * k + b) / row
    let j := (32 * k + b) % row / w
    e.drained.any fun x => x.1 == i && (x.2.1 == j || decide (e.nn ≤ j))
/-- MDRN as it runs (R236, R245). -/
def State.runMdrn (s : State) (e : Req) : State :=
  let g := s.group e.gid
  let acc := g.acc e.a
  let els := e.drained
  let w := (slotFormat e.sa).width
  let fail := g.accFailure e.a (els.map fun x => x.2.2)
  let res := els.map fun x => (x, if fail.isSome then (0, 0) else e.narrowed x.2.2 (acc.word x.2.2))
  let t1 := res.foldl (fun (t : Tile) x => t.putCode e.nn w x.1.1 x.1.2.1 x.2.1) (g.tile e.d)
  let t2 := ((els.map fun x => x.1).dedup).foldl (fun (t : Tile) r => t.clearPad e.nn w r) t1
  let t3 : Tile := { t2 with
    failed := fail.isSome || (t2.failed && decide (els.length ≠ e.m * e.nn))
    bad := t2.bad.filter fun k => !e.covers w k }
  let g1 := g.setTile e.d t3
  let g2 : Group := if e.opx % 2 = 1 && fail.isNone then
      { g1 with accs := g1.accs.set e.a (els.foldl (fun (a : Acc) x => a.put x.2.2 0) acc) }
    else g1
  (s.setGroup e.gid g2).endReq e fail (res.foldl (fun f x => f ||| x.2.2) 0)
/-- The unmasked elements of a slot. -/
def Req.unmasked (e : Req) : List Nat :=
  (List.range 4096).filter fun k => edge e.er (k / 64) && edge e.ec (k % 64)
/-- MACZ as it runs (R238). -/
def State.runMacz (s : State) (e : Req) : State :=
  (s.modGroup e.gid fun g =>
    ({ g with accs := g.accs.set e.d (e.unmasked.foldl (fun (a : Acc) k => a.put k 0) (g.acc e.d)) } : Group).wroteAcc
      e.d e.unmasked false false).endReq e none 0
/-- MDRNA reads its slot; the data leaves for the target's quad (R237). -/
def State.sendMdrna (s : State) (e : Req) : State :=
  let g := s.group e.gid
  match g.accFailure e.a e.unmasked with
  | some f => s.endReq e (some f) 0
  | none => { s with drains := s.drains ++ [{ e with data := g.acc e.a }] }
/-- The data of an MDRNA arrives: refused, waiting for an entry, or accepted (R237, R239). Requests of its own group that wait for the MDRNA,
which rule 2 of R240 has wait, are none that its arrival waits for (log 114, DESIGN CHOICE). -/
def State.acceptMdrna (s : State) (e : Req) : Option State :=
  let v := e.word.toNat
  let blk := (s.group e.gid).blk
  let s0 : State := { s with drains := s.drains.filter fun x => x.id != e.id }
  let refuse : State := s0.endReq e (some { reason := 0x02, side := 5, addr := 0 }) 0
  match s.memberGid blk (v % 2 ^ 11) with
  | none => some refuse
  | some gid =>
    let g := s.group gid
    if bitsOf v 18 16 ≥ g.budC then some refuse
    else if (s.quad (quadOf g.core)).table.length ≥ 64 then none
    else
      let (id, s1) := s0.newId
      let later := ((s.quad (quadOf g.core)).table.filter fun f => f.id == e.id || f.before.contains e.id).map (·.id)
      let s2 := s1.addReq (quadOf g.core) { e with
        id := id, op := 0x100, core := g.core, prio := e.prio, q := [], d := bitsOf v 18 16, peer := e.gid, gid := gid, tl := [], before := [],
        rd := [], held := false, since := none, aged := false, granted := false, n := e.n }
      some (s2.modReq (quadOf g.core) id fun x => { x with before := x.before.filter fun k => !later.contains k })
/-- What an arrived MDRNA makes of its target slot, with its flags, or why it fails (R237, R245). -/
def Group.addArrival (g : Group) (e : Req) : Except Fail (Acc × Flags) :=
  let acc := g.acc e.d
  match g.accFailure e.d e.unmasked with
  | some f => .error f
  | none => .ok (e.unmasked.foldl (fun (st : Acc × Flags) k =>
      let (v, f) := if e.opx / 2 = 1 then
          let (v, cl) := clampInt 32 true (signedOf 32 (acc.word k) + signedOf 32 (e.data.word k))
          (v, flagIf cl flagACCSAT)
        else finish .fp32 0 (addNum 0 (Fmt.fp32.decode (acc.word k)) (Fmt.fp32.decode (e.data.word k)))
      (st.1.put k v, st.2 ||| f)) (acc, 0))
/-- The arrivals that still stand in a table when their target group retires: what each would add is settled, in their
order, against the slots the group leaves (R98, R237). -/
def State.orphanArrivals (s : State) (gid : Nat) : State :=
  let add (acc : Group × List Req) (e : Req) : Group × List Req :=
    if e.op = 0x100 ∧ e.gid = gid then match acc.1.addArrival e with
      | .error f => (acc.1, acc.2 ++ [{ e with gid := orphanGid, failed := some f }])
      | .ok (a, fl) => ({ acc.1 with accs := acc.1.accs.set e.d a }, acc.2 ++ [{ e with gid := orphanGid, flags := fl }])
    else (acc.1, acc.2 ++ [e])
  let qd := quadOf (s.group gid).core
  s.modQuad qd fun q => { q with table := (q.table.foldl add (s.group gid, [])).2 }
/-- The elements that an MDRNA has sent are cleared in its source (R237). -/
def Group.clearSent (g : Group) (e : Req) : Group :=
  if e.opx % 2 = 1 then { g with accs := g.accs.set e.a (e.unmasked.foldl (fun (a : Acc) k => a.put k 0) (g.acc e.a)) } else g
/-- An arrived MDRNA is added to the target slot; its flags and failure go to the issuing group, whose slot is cleared only where it
has not failed (R237, R245). -/
def State.runArrival (s : State) (e : Req) : State :=
  let back (s : State) (fail : Option Fail) (fl : Flags) : State :=
    (if fail.isSome then s else s.modGroup e.peer fun g => g.clearSent e).endReq { e with gid := e.peer } fail fl
  if e.gid = orphanGid then back s e.failed e.flags
  else match (s.group e.gid).addArrival e with
    | .error f => back s (some f) 0
    | .ok (a, fl) => back (s.modGroup e.gid fun g => { g with accs := g.accs.set e.d a }) none fl

/-- EMSK: issues in the split in focus. -/
def execEmsk (f : W64F) (s : State) := issue (insW64 0xD5 f) emskEff s
/-- MMA: issues in the split in focus. -/
def execMma (f : W64F) (s : State) := issue (insW64 0xD6 f) mmaEff s
/-- MMAS: issues in the split in focus. -/
def execMmas (f : W64F) (s : State) := issue (insW64 0xD7 f) mmasEff s
/-- MDRN: issues in the split in focus. -/
def execMdrn (f : W64F) (s : State) := issue (insW64 0xDB f) mdrnEff s
/-- MDRNA: issues in the split in focus. -/
def execMdrna (f : W64F) (s : State) := issue (insW64 0xDC f) mdrnaEff s
/-- MACZ: issues in the split in focus. -/
def execMacz (f : W64F) (s : State) := issue (insW64 0xDD f) maczEff s

end Sys2Proof.Machine
end

