-- ==== Sys2Proof/Machine/Counted.lean ====
section
/-! DEFINITION. Counted arithmetic: counter planes, MCNT, MQCH, MMRG, and the scale table with SCTRD and SCTADV (R246 to
R264). -/

namespace Sys2Proof.Machine

/-- The magnitudes of the product codes (R246): E2M1 in units of 1/4, INT4. -/
def codeVals (int4 : Bool) : List Nat :=
  if int4 then [1, 2, 3, 4, 5, 6, 7, 8, 9, 10, 12, 14, 15, 16, 18, 20, 21, 24, 25, 28, 30, 32, 35, 36, 40, 42, 48, 49, 56, 64]
  else [1, 2, 3, 4, 6, 8, 9, 12, 16, 18, 24, 32, 36, 48, 64, 72, 96, 144]
/-- CODE of a product magnitude (R246). -/
def codeOf (int4 : Bool) (v : Nat) : Nat := (codeVals int4).findIdx (· == v)
/-- The exact integer of an element in the units of R246: halves for E2M1. -/
def countElem (int4 : Bool) (code : Nat) : Int :=
  if int4 then signedOf 4 code
  else match Fmt.e2m1.decode code with
    | .fin neg m e => let v : Int := ((m <<< (e + 1).toNat : Nat) : Int); if neg then -v else v
    | _ => 0
/-- Plane k of a quad. -/
def Quad.plane (x : Quad) (k : Nat) : Plane := x.planes.getD k {}
/-- Changes plane k of a quad. -/
def State.modPlane (s : State) (qd k : Nat) (f : Plane → Plane) : State :=
  s.modQuad qd fun x => { x with planes := x.planes.set k (f (x.plane k)) }
/-- A plane of a quad. -/
def State.plane (s : State) (qd k : Nat) : Plane := (s.quad qd).plane k
/-- DEPTH of a band (R247). -/
def Plane.dep (p : Plane) (q : Nat) : Nat := p.depth.getD q 0
/-- Whether a window is open (R247). -/
def Plane.opened (p : Plane) : Bool := p.depth.any (· != 0)
/-- Whether some band of a set is in an open window. -/
def Plane.openedIn (p : Plane) (q : List Nat) : Bool := q.any fun k => p.dep k != 0
/-- Clears the record of a plane (R248). The requests already under way on the plane find its counters and FAIL as they are: those a
release clears go when the request that made it runs (log 135, DEDUCED). -/
def Plane.release (p : Plane) : Plane := { ({} : Plane) with cnt := p.cnt, bad := p.bad, fail := p.fail }
/-- Releases a plane that no window and no transfer uses (R248). -/
def Plane.tryRelease (p : Plane) : Plane := if !p.opened && !p.xfer then p.release else p
/-- Whether a plane makes an instruction of a group wait (R248). -/
def Plane.blocks (p : Plane) (gid : Nat) : Bool := p.xfer || (match p.owner with | some o => o != gid | none => false)
/-- Counter n of a cell, by its key 32 × cell + n. -/
def Plane.count (p : Plane) (cell n : Nat) : Int := p.cnt.getD (32 * cell + n) 0
/-- Clears the counters of cells. -/
def Plane.clear (p : Plane) (cells : List Nat) : Plane :=
  { p with cnt := p.cnt.filter fun e => !cells.contains (e.1 / 32), bad := p.bad.filter fun w => !cells.contains (w / 8) }
/-- The cells of bands. -/
def bandCells (q : List Nat) : List Nat := (List.range 4096).filter fun k => q.contains (k / 1024)
/-- Whether a band of a set has FAIL set. -/
def Plane.failedIn (p : Plane) (q : List Nat) : Bool := q.any fun k => p.fail.getD k false
/-- Sets FAIL of bands (R260). -/
def Plane.setFail (p : Plane) (q : List Nat) (v : Bool) : Plane := { p with fail := p.fail.mapIdx fun k x => if q.contains k then v else x }
/-- A request that released a plane as it issued has run there: every FAIL of it goes (R248). -/
def Plane.released (p : Plane) (e : Req) (k : Nat) : Plane := if e.rel.contains k then p.setFail [0, 1, 2, 3] false else p
/-- The planes of a list of numbered records that R248 releases. -/
def releasing (ps : List (Nat × Plane)) : List Nat := (ps.filter fun x => !x.2.opened && !x.2.xfer).map Prod.fst
/-- A word of the plane that fails its check, among cells (R314). -/
def Plane.badIn (p : Plane) (cells : List Nat) : Bool := p.bad.any fun w => cells.contains (w / 8)

/-- MCNT (R251): its checks come in the order listed. -/
def mcntEff : Iss → State → Eff := fun i s =>
  if i.exec = 0 then .done s else
  let g := s.group i.gid
  let x := g.tile i.ins.a
  let y := g.tile i.ins.b
  let sa := s.fmtSlot i.gid i.ins.sa
  let sb := s.fmtSlot i.gid i.ins.sb
  let (m, ka, kb, n) := opShapes i.ins.ta i.ins.tb x y
  let blk := slotScale sa == 2
  let qd := quadOf i.core
  let p := s.plane qd i.ins.d
  let int4 := slotFormat sa == .int4
  let q := i.quarters
  if !x.shaped || !y.shaped then .trap (i.fault .illegalOperand) s
  else if i.ins.sa ≠ x.slot ∨ i.ins.sb ≠ y.slot then .trap (i.fault .illegalOperand) s
  else if !slotOk sa || !slotOk sb then .trap (i.fault .formatSlot) s
  else if ka ≠ kb ∨ m > 64 ∨ n > 64 then .trap (i.fault .illegalOperand) s
  else if slotFormat sa ≠ slotFormat sb ∨ (slotFormat sa ≠ .e2m1 ∧ slotFormat sa ≠ .int4) ∨ blk ≠ (slotScale sb == 2) then
    .trap (i.fault .formatSlot) s
  else if blk && decide (i.ins.c ≥ g.budC) then .trap (i.fault .illegalOperand) s
  else if !blk && i.ins.c != 0 then .trap (i.fault .illegalOpcode) s
  else if p.blocks i.gid then .wait s
  else if p.opened && (p.fmt != int4.toNat || p.mode != blk.toNat || p.tsa != (slotScale sa == 1) || p.tsb != (slotScale sb == 1)) then
    .trap (i.fault .illegalOperand) s
  else match if blk then none else q.find? (fun k => decide (p.dep k + ka > 127)) with
    | some k => .trap (i.trap .countDepth (BitVec.ofNat 64 (p.dep k + ka))) s
    | none =>
      if s.mxFull i then .wait s
      else
        let p1 : Plane := { p with
          owner := some i.gid, fmt := int4.toNat, mode := blk.toNat, tsa := slotScale sa == 1, tsb := slotScale sb == 1
          depth := if blk then p.depth else p.depth.mapIdx fun k d => if q.contains k then d + ka else d }
        .done ((s.modPlane qd i.ins.d fun _ => p1).enterReq i { s.request i with sa := sa, sb := sb, m := m, k := ka, nn := n })
/-- MQCH (R250, R254). -/
def mqchEff : Iss → State → Eff := fun i s =>
  if i.exec = 0 then .done s else
  let qd := quadOf i.core
  let p := s.plane qd i.ins.a
  let per := p.tsa || p.tsb
  let q := i.quarters
  if !per && i.ins.b != 0 then .trap (i.fault .illegalOpcode) s
  else if p.owner ≠ some i.gid then .trap (i.fault .illegalOperand) s
  else if per && !i.ins.operandOk (s.bounds i) kgp i.ins.b then .trap (i.fault .illegalOperand) s
  else match if per then s.badAmong i [i.ins.b, i.ins.b + 1] else none with
    | some t => .trap t s
    | none =>
      if s.mxFull i then .wait s
      else
        let (xa, xb) := s.scaleBytes i i.ins.b p.tsa p.tsb
        let e : Req := { s.request i with
          xa := xa, xb := xb, k := p.fmt, d0 := (List.range 4).map fun k => if q.contains k then p.dep k else 0 }
        let p1 : Plane := { p with depth := p.depth.mapIdx fun k d => if q.contains k then 0 else d }
        .done ((s.modPlane qd i.ins.a fun _ => p1.tryRelease).enterReq i { e with rel := releasing [(i.ins.a, p1)] })
/-- What the checks of a merge find between the destination's record and a source record (R255): a fault and its TADDR. -/
def mergeFault (d a : Plane) (q : List Nat) : Option (Cause × Option Nat) :=
  if a.openedIn q && d.opened && (d.fmt != a.fmt || d.mode != a.mode || d.tsa != a.tsa || d.tsb != a.tsb) then some (.illegalOperand, none)
  else if d.mode = 1 ∨ a.mode = 1 then some (.illegalOperand, none)
  else (q.find? fun k => decide (d.dep k + a.dep k > 127)).map fun k => (.countDepth, some (d.dep k + a.dep k))
/-- The records after a merge issues (R255): the destination, owned and with the source's fields, and the source (log 27, DEDUCED). -/
def mergeRecords (gid : Nat) (d a : Plane) (q : List Nat) : Plane × Plane :=
  let d1 : Plane := { d with
    owner := some gid, fmt := a.fmt, mode := a.mode, tsa := a.tsa, tsb := a.tsb
    depth := d.depth.mapIdx fun k v => if q.contains k then v + a.dep k else v }
  (d1, { a with depth := a.depth.mapIdx fun k v => if q.contains k then 0 else v })
/-- The trap of a failed merge check. -/
def Iss.mergeTrap (i : Iss) (f : Cause × Option Nat) : Trap :=
  match f.2 with | some v => i.trap f.1 (BitVec.ofNat 64 v) | none => i.fault f.1
/-- MMRG OPX 0 (R255). -/
def mmrgEff : Iss → State → Eff := fun i s =>
  if i.exec = 0 then .done s else
  let qd := quadOf i.core
  let d := s.plane qd i.ins.d
  let a := s.plane qd i.ins.a
  let q := i.quarters
  if i.ins.a = i.ins.d then .trap (i.fault .illegalOperand) s
  else if d.blocks i.gid || a.blocks i.gid then .wait s
  else match mergeFault d a q with
    | some f => .trap (i.mergeTrap f) s
    | none =>
      if s.mxFull i then .wait s
      else
        let (d1, a1) := mergeRecords i.gid d a q
        .done (((s.modPlane qd i.ins.d fun _ => d1.tryRelease).modPlane qd i.ins.a fun _ => a1.tryRelease).enterReq i
          { s.request i with rel := releasing [(i.ins.d, d1), (i.ins.a, a1)] })
/-- MMRG OPX 1 (R256, R257): the record of the source plane is read and changed in one step; a request stands at each
end. -/
def mmrgPeerEff : Iss → State → Eff := fun i s =>
  if i.exec = 0 then .done s else
  let g := s.group i.gid
  let v := ((s.regs i).x i.ins.b 0).toNat
  let idx := v % 2 ^ 11
  let qd := quadOf i.core
  let d := s.plane qd i.ins.d
  let q := i.quarters
  let away := (s.ctx g.ctx).savedGroups.any fun x => x.2.blk == g.blk && x.2.index == idx
  if bitsOf v 31 17 ≠ 0 ∨ bitsOf v 15 11 ≠ 0 ∨ idx ≥ (s.block g.blk).ngroups ∨ idx = g.index then .trap (i.fault .illegalOperand) s
  else match s.memberGid g.blk idx with
    | none => if away then .wait s else .trap (i.fault .illegalOperand) s
    | some sg =>
      if d.blocks i.gid then .wait s
      else
        let sq := quadOf (s.group sg).core
        let sp := bitsOf v 16 16
        let a := s.plane sq sp
        if a.blocks sg then .trap (i.fault .illegalOperand) s
        else match mergeFault d a q with
          | some f => .trap (i.mergeTrap f) s
          | none =>
            if s.mxFull i || decide ((s.quad sq).table.length ≥ 64) then .wait s
            else
              let (d1, a1) := mergeRecords i.gid d a q
              let s1 := (s.modPlane qd i.ins.d fun _ => d1.tryRelease).modPlane sq sp fun p =>
                if qd = sq ∧ i.ins.d = sp then { d1 with xfer := true } else { a1 with owner := p.owner, xfer := true }
              let (id, s2) := s1.newId
              let (n, s3) := s2.countOp i.gid 2 (fun o => o)
              let e : Req := { s.request i with id := id, n := [n], arrived := false, word := BitVec.ofNat 32 v, rel := releasing [(i.ins.d, d1)] }
              let (sid, s4) := (s3.addReq qd e).newId
              .done (s4.addReq sq { e with id := sid, op := 0x101, core := (s.group sg).core, a := sp, opx := 1, n := [], arrived := true, peer := id, rel := [] })

/-- An element code of an operand as read (R252). -/
def Req.codeA (e : Req) (x : Tile) (r k : Nat) : Nat := if e.ta then x.code e.m 4 k r else x.code e.k 4 r k
/-- Element B(k, c) as read. -/
def Req.codeB (e : Req) (y : Tile) (k c : Nat) : Nat := if e.tb then y.code e.k 4 c k else y.code e.nn 4 k c
/-- The strikes of a cell over a K range, added to its counters (R252). -/
def Req.strikes (e : Req) (x y : Tile) (r c k0 k1 : Nat) (cs : List Int) : List Int :=
  let int4 := slotFormat e.sa == .int4
  (List.range (k1 - k0)).foldl (fun cs t =>
    let p := countElem int4 (e.codeA x r (k0 + t)) * countElem int4 (e.codeB y (k0 + t) c)
    if p = 0 then cs
    else
      let n := codeOf int4 p.natAbs
      cs.set n (cs.getD n 0 + (if p < 0 then -1 else 1))) cs
/-- The sum of a cell's counts (R253). -/
def quenchSum (int4 : Bool) (cs : List Int) : Int :=
  (List.zipWith (fun (a : Int) (b : Nat) => a * (b : Int)) cs (codeVals int4)).sum
/-- QUENCH of one cell into an element (R253). -/
def quench (int4 : Bool) (cs : List Int) (xa xb old : Nat) : Nat × Flags :=
  let t := quenchSum int4 cs
  if int4 then let (v, cl) := clampInt 32 true (signedOf 32 old + t); (v, flagIf cl flagACCSAT)
  else if xa = 255 ∨ xb = 255 then (Fmt.fp32.nanBits, flagNV)
  else if t = 0 then (old, 0)
  else finish .fp32 0 (addNum 0 (Fmt.fp32.decode old) (.fin (decide (t < 0)) t.natAbs ((xa : Int) + (xb : Int) - 256)))
/-- The counters of a cell. -/
def Plane.counts (p : Plane) (cell : Nat) : List Int := (List.range 32).map fun n => p.count cell n
/-- Replaces the counters of a cell; a zero is not kept. -/
def Plane.setCounts (p : Plane) (cell : Nat) (cs : List Int) : Plane :=
  { p with cnt := (p.cnt.filter fun e => e.1 / 32 != cell) ++
      ((cs.mapIdx fun n v => (32 * cell + n, v)).filter fun e => e.2 != 0) }
/-- The scale of the block that holds A(r, k), and of B(k, c) (R26, R252). -/
def Req.scales (e : Req) (x y : Tile) (r k c : Nat) : Nat × Nat :=
  (if e.ta then x.scale e.m k r else x.scale e.k r k, if e.tb then y.scale e.k c k else y.scale e.nn k c)
/-- A block-scaled cell: struck and quenched a block of K at a time (R252). -/
def Req.blockCell (e : Req) (x y : Tile) (old r c : Nat) : Nat × Flags :=
  (List.range ((e.k + 31) / 32)).foldl (fun acc j =>
    let cs := e.strikes x y r c (32 * j) (min e.k (32 * j + 32)) (List.replicate 32 0)
    let (xa, xb) := e.scales x y r (32 * j) c
    let (v, f) := quench (slotFormat e.sa == .int4) cs xa xb acc.1
    (v, acc.2 ||| f)) (old, 0)
/-- An MCNT pass: its plane, its slot, its flags and its failure (R252, R260). -/
def Group.runCount (g : Group) (p : Plane) (e : Req) : Plane × Acc × Flags × Option Fail :=
  let els := e.elements
  let blk := slotScale e.sa == 2
  let acc := g.acc e.c
  let fail := match g.reqFailure e (if blk then els else []) with
    | some f => some f
    | none => if p.badIn els then some { reason := 0x08, side := 4, addr := 0 } else none
  match fail with
  | some f => ((p.clear (bandCells e.q)).setFail e.q true, if blk then els.foldl (fun (a : Acc) k => a.put k 0) acc else acc, 0, some f)
  | none =>
    let x := g.tile e.a
    let y := g.tile e.b
    if blk then
      let (a, fl) := els.foldl (fun (st : Acc × Flags) k =>
        let (v, f) := e.blockCell x y (acc.word k) (k / 64) (k % 64)
        (st.1.put k v, st.2 ||| f)) (acc, 0)
      (p, a, fl, none)
    else (els.foldl (fun (p : Plane) k => p.setCounts k (e.strikes x y (k / 64) (k % 64) 0 e.k (p.counts k))) p, acc, 0, none)
/-- MQCH as it runs (R254, R260). Under a scale byte of 0xFF, QUENCH makes every element of a band with a window NaN, those of rows beyond M
too (log 116, DEDUCED). FAIL of any band of Q fails it, one without a window among them (log 129, DESIGN CHOICE). -/
def State.runMqch (s : State) (e : Req) : State :=
  let qd := quadOf e.core
  let p := s.plane qd e.a
  let g := s.group e.gid
  let q := (List.range 4).filter fun k => e.d0.getD k 0 != 0
  let els := (bandCells q).filter fun k => edge e.er (k / 64) && edge e.ec (k % 64)
  let acc := g.acc e.d
  let fail : Option Fail :=
    if p.failedIn e.q then some { reason := 0x15, side := 4, addr := 0 }
    else if p.badIn (bandCells q) then some { reason := 0x08, side := 4, addr := 0 }
    else g.accFailure e.d els
  let (a, fl) := match fail with
    | some _ => (els.foldl (fun (a : Acc) k => a.put k 0) acc, (0 : Flags))
    | none => els.foldl (fun (st : Acc × Flags) k =>
        let (v, f) := quench (e.k == 1) (p.counts k) e.xa e.xb (acc.word k)
        (st.1.put k v, st.2 ||| f)) (acc, 0)
  let s1 := s.modPlane qd e.a fun p => ((p.clear (bandCells q)).setFail e.q false).released e e.a
  (s1.modGroup e.gid fun g => ({ g with accs := g.accs.set e.d a } : Group).wroteAcc e.d els fail.isSome true).endReq e fail fl
/-- Counters added into the bands of a plane, or the bands zeroed and marked (R255, R260). -/
def Plane.merge (p : Plane) (q : List Nat) (add : Tbl Int) (fail : Bool) : Plane :=
  if fail then (p.clear (bandCells q)).setFail q true
  else { p with cnt := add.foldl (fun t e => t.set e.1 (t.getD e.1 0 + e.2)) p.cnt }
/-- MMRG as it runs: the source's bands, or what a peer sent (R255, R257, R260). -/
def State.runMmrg (s : State) (e : Req) : State :=
  let qd := quadOf e.core
  let cells := bandCells e.q
  let d := s.plane qd e.d
  if e.opx = 1 then
    let fail : Option Fail := match e.failed with
      | some f => some f
      | none => if d.failedIn e.q then some { reason := 0x15, side := 4, addr := 0 }
        else if d.badIn cells then some { reason := 0x08, side := 4, addr := 0 } else none
    (s.modPlane qd e.d fun p => (p.merge e.q e.cnts fail.isSome).released e e.d).endReq e fail 0
  else
    let a := s.plane qd e.a
    let fail : Option Fail :=
      if a.failedIn e.q || d.failedIn e.q then some { reason := 0x15, side := 4, addr := 0 }
      else if a.badIn cells || d.badIn cells then some { reason := 0x08, side := 4, addr := 0 } else none
    let add := a.cnt.filter fun x => cells.contains (x.1 / 32)
    let s1 := s.modPlane qd e.a fun p => ((p.clear cells).setFail e.q false).released e e.a
    (s1.modPlane qd e.d fun p => (p.merge e.q add fail.isSome).released e e.d).endReq e fail 0
/-- Whether requests of a table name a plane of their quad. -/
def Quad.names (x : Quad) (k : Nat) (f : Req → Bool) : Bool := x.table.any fun e => e.planes.contains k && f e
/-- The source side of a merge has read a plane: it is released where R248 allows, and FAIL goes but for the bands that requests still
under way there name. -/
def Quad.transferred (x : Quad) (k : Nat) (q : List Nat) : Plane :=
  let p : Plane := { ((x.plane k).clear (bandCells q)).setFail q false with xfer := false }
  if p.opened then p
  else p.release.setFail ((List.range 4).filter fun b => !x.names k fun e => e.q.contains b) false
/-- The source side of a peer merge runs: its bands are read, zeroed and sent, or the transfer is refused (R257, R260). -/
def State.transfer (s : State) (sq : Nat) (e : Req) : State :=
  let s0 := s.modQuad sq fun x => { x with table := x.table.filter fun y => y.id != e.id }
  let back (s : State) (cnts : Tbl Int) (fail : Option Fail) : State :=
    { s with quads := s.quads.map fun q => (q.1, { q.2 with table := q.2.table.map fun (y : Req) =>
        if y.id = e.peer then { y with arrived := true, cnts := cnts, failed := fail } else y }) }
  match s.memberGid (s.group e.gid).blk (e.word.toNat % 2 ^ 11) with
  | none =>
    let others := (s0.quad sq).table.any fun f => f.op == 0x101 && f.a == e.a
    let s1 := if others || !(s0.plane sq e.a).xfer then s0 else s0.modPlane sq e.a fun p => ({ p with xfer := false } : Plane).tryRelease
    back s1 [] (some { reason := 0x02, side := 5, addr := 0 })
  | some _ =>
    let p := s.plane sq e.a
    let cells := bandCells e.q
    let fail : Option Fail :=
      if p.failedIn e.q then some { reason := 0x15, side := 4, addr := 0 }
      else if p.badIn cells then some { reason := 0x08, side := 4, addr := 0 } else none
    let s1 := s0.modPlane sq e.a fun _ => (s0.quad sq).transferred e.a e.q
    back s1 (p.cnt.filter fun x => cells.contains (x.1 / 32)) fail
/-- The planes of a group that goes are cleared and released (R248, R259); counters that requests of other groups, older on the plane, still
have to quench stay theirs. -/
def State.freePlanes (s : State) (gid : Nat) : State :=
  let free (x : Quad) (k : Nat) (p : Plane) : Plane :=
    if p.owner ≠ some gid then p else if x.names k fun e => e.gid != gid && e.op != 0x101 then p.release else {}
  { s with quads := s.quads.map fun q => (q.1, { q.2 with planes := q.2.planes.mapIdx (free q.2) }) }
/-- The planes of a quad once the requests of some groups have left its table (R247, R352): counters that the first request on a plane had
to quench go with it, and XFER with the last transfer. -/
def Quad.dropped (x : Quad) (mine : Nat → Bool) : Quad :=
  let left := x.table.filter fun e => !mine e.owner
  let fix (k : Nat) (p : Plane) : Plane :=
    let first := match x.table.find? fun e => e.planes.contains k with | some e => mine e.owner | none => false
    let p1 : Plane := if first then { p with cnt := [], bad := [], fail := ({} : Plane).fail } else p
    if p.owner.isNone then { p1 with xfer := p1.xfer && left.any fun e => e.op == 0x101 && e.a == k } else p1
  { x with table := left, planes := x.planes.mapIdx fix }

/-- The maximum of a scale-table entry (R263). -/
def Scale.top (t : Scale) (idx : Nat) : Nat := (List.range 12).foldl (fun m k => max m (t.pos.getD (12 * idx + k) 0).toNat) 0
/-- Whether a SCTRD or SCTADV must wait for recordings: those of its own group, and those of stores of other groups of the context that
stand behind an armed MST, as such a store may have happened before it (R264; log 104, DEDUCED). -/
def State.recordsWait (s : State) (i : Iss) : Bool :=
  (s.group i.gid).recording ||
    s.groups.any fun p => p.2.ctx == (s.group i.gid).ctx && p.2.tl.any fun o => !o.after.isEmpty
/-- SCTRD (R263). -/
def sctrdEff : Iss → State → Eff := fun i s =>
  if i.exec = 0 then .done s
  else if s.recordsWait i then .wait s
  else withLoadRoom (fun i s =>
    let v := ((s.ctx (s.group i.gid).ctx).scale).top (((s.regs i).x i.ins.a 0).toNat % 256)
    let (seq, s1) := s.newUniLoad i i.ins.d 1 0 4
    .done (s1.returnWords i.gid seq [(i.ins.d, [BitVec.ofNat 32 v])])) i s
/-- The table advanced to a step (R263). -/
def Scale.advance (t : Scale) (st : Word) : Scale :=
  if st.toNat ≤ t.tstep.toNat then t
  else
    let once (t : Scale) : Scale := let c := (t.cur + 1) % 12; { t with cur := c, pos := t.pos.filter fun e => e.1 % 12 != c }
    { (List.range (min (st.toNat - t.tstep.toNat) 12)).foldl (fun t _ => once t) t with tstep := st }
/-- SCTADV OPX 0 (R263). -/
def sctadvEff : Iss → State → Eff := fun i s =>
  if i.exec = 0 then .done s
  else if s.recordsWait i then .wait s
  else .done (s.modCtx (s.group i.gid).ctx fun c => { c with scale := c.scale.advance ((s.regs i).x i.ins.a 0) })
/-- SCTADV OPX 1 (R263). -/
def sctadvAmaxEff : Iss → State → Eff := fun i s =>
  if i.exec = 0 then .done s
  else .done (s.modGroup i.gid fun g => { g with amxEn := true, amxIdx := ((s.regs i).x i.ins.a 0).toNat % 256 })
/-- SCTADV OPX 2 (R263). -/
def sctadvOffEff : Iss → State → Eff := fun i s =>
  if i.exec = 0 then .done s else .done (s.modGroup i.gid fun g => { g with amxEn := false })

/-- MCNT: issues in the split in focus. -/
def execMcnt (f : W64F) (s : State) := issue (insW64 0xD8 f) mcntEff s
/-- MQCH: issues in the split in focus. -/
def execMqch (f : W64F) (s : State) := issue (insW64 0xD9 f) mqchEff s
/-- MMRG: issues in the split in focus. -/
def execMmrg (f : W64F) (s : State) := issue (insW64 0xDA f) mmrgEff s
/-- MMRG.peer: issues in the split in focus. -/
def execMmrgPeer (f : W64F) (s : State) := issue (insW64 0xDA f) mmrgPeerEff s
/-- SCTRD: issues in the split in focus. -/
def execSctrd (f : W64F) (s : State) := issue (insW64 0xDE f) sctrdEff s
/-- SCTADV: issues in the split in focus. -/
def execSctadv (f : W64F) (s : State) := issue (insW64 0xDF f) sctadvEff s
/-- SCTADV.amax: issues in the split in focus. -/
def execSctadvAmax (f : W64F) (s : State) := issue (insW64 0xDF f) sctadvAmaxEff s
/-- SCTADV.off: issues in the split in focus. -/
def execSctadvOff (f : W64F) (s : State) := issue (insW64 0xDF f) sctadvOffEff s

end Sys2Proof.Machine
end

