-- ==== Sys2Proof/Machine/Engines.lean ====
section
/-! DEFINITION. The Tongs copy engines: BCPY and BFILL, and the chunks of an operation (R303 to R310). -/

namespace Sys2Proof.Machine

/-- An operation past its chunk. -/
def TongsOp.advance (o : TongsOp) : TongsOp :=
  let (r, j) := o.place
  { o with next := if j + 1 < o.rowChunks r then o.next + 1 else (r + 1) * 2 ^ 23 }
/-- Whether every chunk has been performed. -/
def TongsOp.ended (o : TongsOp) : Bool := decide (o.place.1 ≥ o.rows)
/-- The cost of one side of a chunk: the place its first byte translates to now decides it (R310, log 12, DEDUCED). -/
def State.sideCost (s : State) (die ctx : Nat) (spad : Bool) (n : Need) (va : Nat) : Nat :=
  if spad then 6 else match s.translateDie die ctx n va with
    | .ok pa => if inScm pa then 40 else if pkgOf pa ≠ s.pkg then 24 else 6
    | .error _ => 6
/-- The cost in grains of the chunks an operation has left (R310). -/
def State.tongsCost (s : State) (die ctx : Nat) (o : TongsOp) : Nat :=
  (List.range o.rows).foldl (fun t r => (List.range (o.rowChunks r)).foldl (fun t j =>
    if r * 2 ^ 23 + j < o.next then t
    else
      let x := (o.chunk r j).1
      t + max (if o.fill then 6 else s.sideCost die ctx o.ssp .read (sideAddr o.ssp (o.srcRow r + x)))
        (s.sideCost die ctx o.dsp .write (sideAddr o.dsp (o.dstRow r + x)))) t) 0
/-- The key of a Tongs queue: an engine and a context (R303). -/
def tongsKey (engine ctx : Nat) : Nat := engine * 64 + ctx
/-- The engine of a core's quad (R303). -/
def engineOf (core : Nat) : Nat := quadOf core % 32 % 16
/-- The estimate (R176, R310). -/
def State.estimate (s : State) (die engine : Nat) (ctx : Nat) (o : TongsOp) : Nat :=
  (s.die die).tongs.foldl (fun t q => if q.1 / 64 = engine then q.2.ops.foldl (fun t p => t + s.tongsCost die (q.1 % 64) p) t else t)
    (Config.tongsBase + s.tongsCost die ctx o)
/-- The lowest byte of any row at or above 2^56 (R306). -/
def highByte (rows : List Nat) (xlen : Nat) : Option Nat :=
  (rows.filter fun a => decide (a + xlen > 2 ^ 56)).foldl (fun m a => match m with
    | none => some (max a (2 ^ 56)) | some b => some (min b (max a (2 ^ 56)))) none
/-- The first failing address among scratchpad rows (R211, R306). -/
def Block.rowsExtent (b : Block) (rows : List Nat) (xlen : Nat) : Option Nat := rows.findSome? fun a => b.extentAddr a xlen
/-- The operation a BCPY or BFILL describes (R304, R305). -/
def State.descriptor (s : State) (i : Iss) (fill : Bool) : TongsOp :=
  let r := s.regs i
  let w (k : Nat) : Nat := (r.x (i.ins.a + k) 0).toNat
  let dim := i.ins.m12 / 1024
  let pw := if fill then i.ins.m12 / 64 % 4 else 0
  let g := s.group i.gid
  { id := 0, gid := i.gid, n := 0, blk := g.blk, fill := fill, ssp := !fill && i.ins.f.m12.getLsbD 9, dsp := i.ins.f.m12.getLsbD 8
    src := w 0 + 2 ^ 32 * w 1, dst := w 2 + 2 ^ 32 * w 3, xlen := w 4, yc := w 5 % 2 ^ 16 + 1, zc := w 5 / 2 ^ 16 + 1
    sys := signedOf 32 (w 6), dys := signedOf 32 (w 7)
    szs := if dim = 2 then signedOf 32 (r.x i.ins.b 0).toNat else 0
    dzs := if dim = 2 then signedOf 32 (r.x (i.ins.b + 1) 0).toNat else 0
    pat := if fill then r.xs i.ins.c (if pw = 3 then 2 else 1) 0 else 0, pw := 2 ^ pw, step := g.step, epoch := g.epoch, deps := [] }
/-- The checks of R306 after the encoding checks, in their order. -/
def State.tongsCheck (s : State) (i : Iss) (o : TongsOp) : Option Trap :=
  let dim := i.ins.m12 / 1024
  let rowNums := List.range o.rows
  let srcs := rowNums.map o.srcRow
  let dsts := rowNums.map o.dstRow
  if o.xlen = 0 ∨ o.xlen > 2 ^ 30 ∨ (dim < 2 ∧ o.zc ≠ 1) ∨ (dim = 0 ∧ o.yc ≠ 1) ∨ (o.ssp = true ∧ o.src ≥ 2 ^ 32) ∨ (o.dsp = true ∧ o.dst ≥ 2 ^ 32) then
    some (i.fault .illegalOperand)
  else
    let high := match if o.fill || o.ssp then none else highByte srcs o.xlen with
      | some a => some a
      | none => if o.dsp then none else highByte dsts o.xlen
    match high with
    | some a => some (i.trap .pageProtection (BitVec.ofNat 64 a))
    | none =>
      let b := s.blockOf i
      let out := match if o.ssp then b.rowsExtent srcs o.xlen else none with
        | some a => some a
        | none => if o.dsp then b.rowsExtent dsts o.xlen else none
      out.map fun a => i.trap .extent (BitVec.ofNat 64 a)
/-- BCPY and BFILL (R176, R304 to R308): the promise returns as a load does. -/
def tongsIssue (fill : Bool) : Iss → State → Eff := fun i s =>
  let o := s.descriptor i fill
  let g := s.group i.gid
  let die := dieOf i.core
  let key := tongsKey (engineOf i.core) g.ctx
  match s.tongsCheck i o with
  | some t => .trap t s
  | none =>
    if s.counterFull i.gid 0 || decide (((s.die die).tongs.getD key {}).ops.length ≥ 128) then .wait s
    else
      let promise := (s.core i.core).time + s.estimate die (engineOf i.core) g.ctx o
      let sco := if (o.fill || o.ssp) && o.dsp then (s.block g.blk).span + 1 else 4
      let (rel, s1) := s.startRelease i.gid i.core i.active sco
      let (n, s2) := s1.countOp i.gid 0 fun e => { e with promise := some promise, engine := die * 16 + engineOf i.core }
      let (id, s3) := s2.newId
      let s4 := s3.modDie die fun d =>
        let q := d.tongs.getD key {}
        { d with tongs := d.tongs.set key { q with ops := q.ops ++ [{ o with id := id, n := n, deps := rel }] } }
      if i.ins.d = 288 then .done s4
      else
        let (seq, s5) := s4.newUniLoad i i.ins.d 1 0 4
        .done (s5.returnWords i.gid seq [(i.ins.d, [BitVec.ofNat 32 promise])])

/-- BCPY and BFILL: one that returns its promise needs room for a load (R160, R304). -/
def tongsEff (fill : Bool) : Iss → State → Eff := fun i s =>
  if i.ins.d = 288 then tongsIssue fill i s else withLoadRoom (tongsIssue fill) i s

/-- BCPY: issues in the split in focus. -/
def execBcpy (f : W64F) (s : State) := issue (insW64 0xE0 f) (tongsEff false) s
/-- BFILL: issues in the split in focus. -/
def execBfill (f : W64F) (s : State) := issue (insW64 0xE1 f) (tongsEff true) s

end Sys2Proof.Machine
end

