-- ==== Sys2Proof/Machine/FreezeOps.lean ====
section
/-! DEFINITION. The freeze directory, sealing and gathering, and FRZ, THAW and FRZQ (R317 to R327). -/

namespace Sys2Proof.Machine

/-- The packages of the pod that this one can be told to reach: named by RTAB and not failed (R389, R404). -/
def State.others (s : State) : List Nat :=
  ((s.rtab.filter fun p => p.2 != 0 && p.1 != s.pkg && !s.fabFail.contains p.1).map Prod.fst).dedup
/-- A freeze notice or gather leaves for other packages (R321, R322, R404). -/
def State.tellPackages (s : State) (page : Nat) (gather : Bool) (ps : List Nat) : State :=
  ps.foldl (fun s p =>
    let f := s.flitTo 0 ((homeDie (page * 2 ^ 17)).getD 0) (p * 2 ^ 42) 8 2 0 (if gather then 1 else 0) []
    s.sendFlit { f with paddr := page * 2 ^ 17 % 2 ^ 54 }) s
/-- A page enters SEALING: every die of the pod is told (R321). -/
def State.startSealing (s : State) (page : Nat) : State :=
  let ps := s.others
  (s.setDir page (some { count := 1, state := .sealing, hdie := [], pkf := 0, await := [0, 1, 2, 3] ++ ps.map (4 + ·), told := [] })).tellPackages
    page false ps
/-- A page enters THAWING: every holder is told (R322). -/
def State.startGather (s : State) (page : Nat) (e : DirEnt) : State :=
  let ps := s.others.filter fun p => e.pkf.getLsbD (p % 32)
  (s.setDir page (some { e with state := .thawing, await := e.hdie ++ ps.map (4 + ·), told := [] })).tellPackages page true ps
/-- The THAWs that wait for a page, by group and number. -/
def State.thawsOf (s : State) (page : Nat) : List (Nat × Nat) :=
  s.groups.flatMap fun p => (p.2.ops.filter fun o => o.cls == 5 && o.thaw && !o.done && o.pages.contains page).map fun o => (p.1, o.n)
/-- The FRZ step on one page (R318): one that cancels the pending thaw of a page being sealed cuts off the THAWs that wait for it. -/
def State.frzStep (s : State) (page : Nat) : State :=
  match s.dirEnt page with
  | none => s.startSealing page
  | some e => s.setDir page (some { e with
      count := e.count + 1, cut := if e.count = 0 ∧ e.state = .sealing then e.cut ++ s.thawsOf page else e.cut })
/-- The THAW step on one page (R318). -/
def State.thawStep (s : State) (page : Nat) : State :=
  match s.dirEnt page with
  | none => s
  | some e =>
    let e1 := { e with count := e.count - 1 }
    if e1.count = 0 ∧ e.state = .sealed then s.startGather page e1 else s.setDir page (some e1)
/-- How often a page stands in a range before an address: a page that two addresses name is counted twice (log 107, DEDUCED). -/
def pageBefore (ps : List (Nat × Nat)) (p : Nat × Nat) : Nat := (ps.filter fun q => decide (q.1 < p.1) && q.2 == p.2).length
/-- COUNT of a page of this package; an OPEN one has 0 (R317). -/
def State.pageCount (s : State) (page : Nat) : Nat := match s.dirEnt page with | some e => e.count | none => 0
/-- Whether an OPEN page of a range finds no free entry in its home's directory (R317, R320). -/
def State.dirFull (s : State) (ps : List (Nat × Nat)) (p : Nat × Nat) : Bool :=
  match homeDie (p.2 * 2 ^ 17) with
  | none => false
  | some d =>
    let new (q : Nat × Nat) : Bool := q.2 / 2 ^ 25 == s.pkg && (s.dirEnt q.2).isNone && pageBefore ps q == 0 && homeDie (q.2 * 2 ^ 17) == some d
    new p && decide ((s.die d).dir.length + (ps.filter fun q => decide (q.1 < p.1) && new q).length ≥ 32768)
/-- The lowest page of a range, with its address, that makes the FRZ step fault, and its TADDR (R320). -/
def State.frzFault (s : State) (ps : List (Nat × Nat)) : Option Nat :=
  let nest (p : Nat × Nat) : Bool := if p.2 / 2 ^ 25 = s.pkg then decide (s.pageCount p.2 + pageBefore ps p ≥ 15) else Config.remoteFreeze p.2 s.fresh == 1
  let full (p : Nat × Nat) : Bool := if p.2 / 2 ^ 25 = s.pkg then s.dirFull ps p else Config.remoteFreeze p.2 s.fresh == 2
  match ps.find? nest with
  | some p => some p.1
  | none => (ps.find? full).map fun p => p.1 + 1
/-- The lowest page of a range that makes the THAW step fault (R320). -/
def State.thawFault (s : State) (ps : List (Nat × Nat)) : Option Nat :=
  (ps.find? fun p => if p.2 / 2 ^ 25 = s.pkg then decide (s.pageCount p.2 ≤ pageBefore ps p) else Config.remoteFreeze p.2 s.fresh == 1).map Prod.fst
/-- Whether a page lies in an enabled stepped region, which FRZ may not freeze (R368): that of another package is its home's to say (log 3,
DESIGN CHOICE). -/
def State.noFreeze (s : State) (pa : Nat) : Bool :=
  if pkgOf pa = s.pkg then (s.regionAt pa).isSome else Config.remoteFreeze (pageOf pa) s.fresh == 3
/-- The pages of a range, each with its address, or the first that fails (R320, R368). -/
def State.rangePages (s : State) (thaw : Bool) (core ctx va n : Nat) : Except (Nat × Cause) (List (Nat × Nat)) :=
  (List.range n).foldl (fun acc j => match acc with
    | .error e => .error e
    | .ok l =>
      let a := va + j * 2 ^ 17
      match s.translate core ctx .read a with
      | .error c => .error (a, c)
      | .ok pa =>
        if !s.reachable (pkgOf pa) then .error (a, .dataError)
        else if !thaw && s.noFreeze pa then .error (a, .pageProtection)
        else .ok (l ++ [(a, pageOf pa)])) (.ok [])
/-- FRZ and THAW (R319, R320, R321). -/
def freezeEff (thaw : Bool) : Iss → State → Eff := fun i s =>
  let r := s.regs i
  let va := r.xs i.ins.a 2 0
  let n := (r.x i.ins.b 0).toNat
  let g := s.group i.gid
  if va % 2 ^ 17 ≠ 0 then .trap (i.trap .misalign (BitVec.ofNat 64 va)) s
  else if n = 0 ∨ n > 4096 then .trap (i.fault .illegalOperand) s
  else if s.counterFull i.gid 5 then .wait s
  else match s.rangePages thaw i.core g.ctx va n with
    | .error (a, c) => s.unfinished i .read true false [(0, a, c)]
    | .ok ps =>
      match s.releaseDone { i with exec := BitVec.allOnes 32 } 5 with
      | (false, s1) => .wait s1
      | (true, s1) =>
        match if thaw then s1.thawFault ps else s1.frzFault ps with
        | some a => .trap (i.trap .freezeNest (BitVec.ofNat 64 a)) s1
        | none =>
          let here := (ps.filter fun p => p.2 / 2 ^ 25 == s1.pkg).map Prod.snd
          let away := (ps.filter fun p => p.2 / 2 ^ 25 != s1.pkg).map Prod.snd
          let s2 := here.foldl (fun s p => if thaw then s.thawStep p else s.frzStep p) s1
          let mine := here.filter fun p => match s2.dirEnt p with
            | some e => if thaw then e.count == 0 && s1.pageCount p != 0 else e.state != .sealed
            | none => false
          let (k, s3) := s2.countOp i.gid 5 fun o => { o with thaw := thaw, pages := mine ++ away }
          .done (if (mine ++ away).isEmpty then s3.endOp i.gid 5 k none else s3)
/-- A directory entry as FRZQ reads it (R323). -/
def DirEnt.bits (e : DirEnt) : Nat :=
  e.count + (match e.state with | .sealing => 1 | .sealed => 2 | .thawing => 3) * 16
    + e.hdie.foldl (fun m d => if (m / 2 ^ (12 + d)) % 2 = 1 then m else m + 2 ^ (12 + d)) 0 + e.pkf.toNat * 2 ^ 16
/-- FRZQ (R323): a relaxed strong read of the entry, after the acquires of its lanes that are under way (R273). -/
def frzqEff : Iss → State → Eff := withLoadRoom fun i s =>
  let va := (s.regs i).xs i.ins.a 2 0
  match s.laneAccess i.core (s.group i.gid).ctx (s.group i.gid).step.toNat .read va with
  | .error c => s.unfinished i .read true false [(0, va, c)]
  | .ok pa =>
    if !(s.depsOf i.gid i.active pa 0 false).isEmpty then .wait s
    else
      let (free, s1) := s.draw
      let v := if pkgOf pa = s.pkg then (match s.dirEnt (pageOf pa) with | some e => e.bits | none => 0)
        else free % 2 ^ 6 + free / 2 ^ 12 % 2 ^ 36 * 2 ^ 12
      let (seq, s2) := (if pkgOf pa = s.pkg then s else s1).newUniLoad i i.ins.d 2 va 5
      .done (s2.returnWords i.gid seq [(i.ins.d, [BitVec.ofNat 32 v, BitVec.ofNat 32 (v / 2 ^ 32)])])

/-- A page is finished with for the FRZ or THAW operations that wait for it (R321, R322); as sealing ends, of the THAWs only for those that a
freeze has cut off (R318). The cores take the reports at their next cycle boundaries (R172). -/
def State.pageDone (s : State) (page : Nat) (thaws : Bool) (cut : List (Nat × Nat)) : State :=
  let hit (gid : Nat) (o : EngOp) : Bool := o.cls == 5 && !o.done && o.pages.contains page && (thaws || !o.thaw || cut.contains (gid, o.n))
  let drop (gid : Nat) (o : EngOp) : EngOp := if hit gid o then
      let ps := o.pages.filter (· != page)
      { o with pages := ps, work := o.work || ps.isEmpty }
    else o
  let report (g : Group) : Group := if (s.core g.core).running then g else g.complete 5
  { s with groups := s.groups.map fun p =>
      if p.2.ops.any (hit p.1) then (p.1, report { p.2 with ops := p.2.ops.map (drop p.1) }) else p }
/-- A die adds a page to its filter; what it has translated before has an older name (R321). -/
def State.addFilter (s : State) (die page : Nat) : State :=
  let (now, s1) := s.newId
  s1.modDie die fun d => { d with filter := (d.filter.filter fun f => f.1 != page) ++ [(page, now)] }
/-- Whether every write that a die translated to a page before it was added to its filter has been performed (R321). -/
def State.quiet (s : State) (die page : Nat) : Bool :=
  match (s.die die).filter.find? (fun f => f.1 == page) with
  | none => false
  | some (_, stamp) =>
    let old (core pa id : Nat) : Bool := dieOf core == die && pageOf pa == page && decide (id < stamp)
    !(s.accs.any fun a => !a.done && (match a.kind with | .write => true | .atom _ _ => true | .red _ _ => true | _ => false) && old a.core a.pa a.id)
      && !(s.redos.any fun m => old m.core m.pa m.id) && !(s.sigs.any fun m => dieOf m.core == die && pageOf m.pa == page && decide (m.id < stamp))
/-- A die removes its frozen copies of a page; a fill still on its way will not be kept as one (R322). -/
def State.dropFrozen (s : State) (die page : Nat) : State :=
  let s1 := s.modDie die fun d => { d with near := d.near.filter fun l => l.1 / 2048 != page }
  let keep (l : Nat × L1Line) : Option (Nat × L1Line) :=
    if l.1 / 2048 ≠ page then some l
    else if l.2.frozen || l.2.valid == 0 then none
    else some (l.1, { l.2 with fill := [] })
  { s1 with cores := s1.cores.map fun c => if dieOf c.1 = die then (c.1, { c.2 with l1 := c.2.l1.filterMap keep }) else c }
/-- A page is OPEN again: this package's dies drop it from their freeze filters (R322). -/
def State.dropFilter (s : State) (page : Nat) : State :=
  { s with dies := s.dies.map fun d => (d.1, { d.2 with filter := d.2.filter.filter fun f => f.1 != page }) }

/-- FRZ: issues in the split in focus. -/
def execFrz (f : W64F) (s : State) := issue (insW64 0xE2 f) (freezeEff false) s
/-- THAW: issues in the split in focus. -/
def execThaw (f : W64F) (s : State) := issue (insW64 0xE3 f) (freezeEff true) s
/-- FRZQ: issues in the split in focus. -/
def execFrzq (f : W64F) (s : State) := issue (insW64 0xE4 f) frzqEff s

end Sys2Proof.Machine
end

