-- ==== Sys2Proof/Machine/Persist.lean ====
section
/-! DEFINITION. Persistence: PBAR, PFLUSH, the step instructions and SNAPREQ (R363 to R375), and the completion of operations
that outlive their group's residence (R175, R349). -/

namespace Sys2Proof.Machine

/-- A KIND 6 record of a failed operation (R175). -/
def failRec (w2 : Dword) (pc : CodeAddr) (w6 : Dword) (o : EngOp) (f : Fail) : FRec :=
  { words := [recWord0 6 (if o.cls = 0 then 2 else if o.snap then 3 else 8) 0, f.addr, w2, 0, 0, pc.setWidth 64, w6, BitVec.ofNat 64 (f.info o.cls)],
    origin := .none }
/-- The work of an operation of a retired group ends. -/
def Ghost.workDone (x : Ghost) (cls : Cls) (n : Nat) (fail : Option Fail) : Ghost :=
  { x with ops := x.ops.map fun (o : EngOp) => if o.cls = cls ∧ o.n = n then { o with work := true, fail := fail <|> o.fail } else o }
/-- What of a retired group's operations of a class has completed: the oldest whose work has ended, in issue order (R173, R175). -/
def Ghost.complete (x : Ghost) (cls : Cls) : List EngOp := (x.ops.filter fun o => o.cls == cls).takeWhile (·.work)
/-- The work of an operation of a retired group ends: what completes with it leaves, and its failures are recorded in the order of
completion (R175). -/
def State.endGhost (s : State) (ctx gid : Nat) (cls : Cls) (n : Nat) (fail : Option Fail) : State :=
  match (s.ctx ctx).ghosts.find? (fun x => x.gid == gid) with
  | none => s
  | some x0 =>
    let x := x0.workDone cls n fail
    let out := x.complete cls
    let left := x.ops.filter fun o => !out.contains o
    let s1 := s.modCtx ctx fun c => { c with ghosts := (c.ghosts.filter fun y => y.gid != gid) ++ (if left.isEmpty then [] else [{ x with ops := left }]) }
    out.foldl (fun s o => match o.fail with
      | some f => s.logRecord ctx (failRec x.word2 x.pc x.word6 o f)
      | none => s) s1
/-- A CL or PS operation ends, wherever its group now is: resident, saved with its context, or retired (R98, R175, R349). -/
def State.finishOp (s : State) (ctx gid : Nat) (cls : Cls) (n : Nat) (fail : Option Fail) : State :=
  if gid < ghostBase then s.endOp gid cls n fail
  else if (s.ctx ctx).savedGroups.any fun x => x.1 == gid then
    s.modCtx ctx fun c => { c with savedGroups := c.savedGroups.map fun (x : Nat × Group) =>
      if x.1 = gid then (x.1, (x.2.workDone cls n fail 0).complete cls) else x }
  else s.endGhost ctx gid cls n fail
/-- The writes of a group that are under way know it by another name from now on. -/
def State.renameWrites (s : State) (old new : Nat) : State :=
  let nm (g : Nat) : Nat := if g = old then new else g
  let marks (ms : List Mark) : List Mark := ms.map fun m => { m with gid := nm m.gid }
  { s with
    accs := s.accs.map fun a => { a with gid := nm a.gid, marks := marks a.marks }
    cores := s.cores.map fun c => (c.1, { c.2 with l1 := c.2.l1.map fun l => (l.1, { l.2 with marks := marks l.2.marks }) }) }
/-- The operations that outlive residence know a group by another name from now on. -/
def State.renameOps (s : State) (old new : Nat) : State :=
  let nm (g : Nat) : Nat := if g = old then new else g
  let s := s.renameWrites old new
  { s with
    ctxs := s.ctxs.map fun c => (c.1, { c.2 with psq := c.2.psq.map fun (p : PsOp) => { p with gid := nm p.gid } })
    dies := s.dies.map fun d => (d.1, { d.2 with snaps := d.2.snaps.map fun (n : Snap) => { n with gid := nm n.gid } })
    colls := s.colls.map fun (c : Coll) => { c with members := c.members.map fun (m : Member) => { m with gid := nm m.gid } }
    sigs := s.sigs.map fun (m : SigAdd) => { m with gid := nm m.gid } }

/-- PBAR (R363): the issuing L1 is written back; writes issued later are younger. -/
def pbarEff : Iss → State → Eff := fun i s =>
  .done ((s.wbAll (s.l1Of i.core)).modGroup i.gid fun g => { g with epoch := g.epoch + 1 })
/-- A PS operation is counted and queued after a release of its scope (R282, R364, R370, R371). -/
def State.queuePs (s : State) (i : Iss) (kind st sco : Nat) : State :=
  let (rel, s1) := s.startRelease i.gid i.core i.active sco
  let (n, s2) := s1.countOp i.gid 4 id
  let (id, s3) := s2.newId
  let g := s3.group i.gid
  s3.modCtx g.ctx fun c => { c with psq := c.psq ++ [{ id := id, kind := kind, gid := i.gid, n := n, s := st, epoch := g.issuedOf 0, deps := rel }] }
/-- PFLUSH (R364). -/
def pflushEff : Iss → State → Eff := fun i s =>
  if s.counterFull i.gid 4 then .wait s else .done (s.queuePs i 0 0 7)
/-- STEPTAG (R369). -/
def steptagEff : Iss → State → Eff := fun i s =>
  let v := (s.regs i).x i.ins.a 0
  if v = BitVec.allOnes 32 then .trap (i.fault .illegalOperand) s
  else .done (s.modGroup i.gid fun g => { g with step := v })
/-- REC of a context (R365). -/
def Ctx.rec_ (c : Ctx) : Nat := bitsOf c.stepRec.toNat 53 6
/-- STEPCM (R370). -/
def stepcmEff : Iss → State → Eff := fun i s =>
  let v := ((s.regs i).x i.ins.a 0).toNat
  let c := s.ctx (s.group i.gid).ctx
  if c.rec_ = 0 ∨ (v ≠ c.stepC ∧ v ≠ c.stepC + 1) then .trap (i.trap .illegalOperand (BitVec.ofNat 64 v)) s
  else if s.counterFull i.gid 4 then .wait s
  else .done (s.queuePs i 1 v 7)
/-- STEPAB (R371), of the scope of an engine operation for which none is stated, pkg (R282). -/
def stepabEff : Iss → State → Eff := fun i s =>
  let v := ((s.regs i).x i.ins.a 0).toNat
  let c := s.ctx (s.group i.gid).ctx
  if c.rec_ = 0 ∨ v ≠ c.stepC + 1 then .trap (i.trap .illegalOperand (BitVec.ofNat 64 v)) s
  else if s.counterFull i.gid 4 then .wait s
  else .done (s.queuePs i 2 v 4)
/-- SNAPREQ (R373). -/
def snapreqEff : Iss → State → Eff := fun i s =>
  let r := s.regs i
  let w (k : Nat) : Nat := (r.x (i.ins.a + k) 0).toNat
  let ctx := (s.group i.gid).ctx
  let rgn := w 0 % 16
  let dst := w 2 + 2 ^ 32 * w 3
  let reg := s.region ctx rgn
  let die := (homeDie reg.pa0).getD 0
  if !reg.en || decide (w 0 ≥ 16) then .trap (i.fault .illegalOperand) s
  else if dst % 64 ≠ 0 then .trap (i.trap .misalign (BitVec.ofNat 64 dst)) s
  else if (s.die die).snaps.any (fun n => n.ctx == ctx && n.rgn == rgn) || s.counterFull i.gid 4 then .wait s
  else if w 1 ≠ (s.ctx ctx).stepC then .trap (i.trap .illegalOperand (BitVec.ofNat 64 (w 1))) s
  else
    let (rel, s1) := s.startRelease i.gid i.core i.active 5
    let (n, s2) := s1.countOp i.gid 4 fun o => { o with snap := true }
    let (id, s3) := s2.newId
    .done (s3.modDie die fun d => { d with snaps := d.snaps ++ [{
      id := id, gid := i.gid, n := n, ctx := ctx, rgn := rgn, step := w 1, dst := dst, copied := [], deps := rel }] })

/-- Whether what a PS operation waits for has happened: the accesses before its release, and the entry into a WBQ of the group's older
writes to SCM, whatever lanes made them (R363, R364, R370). -/
def State.psReady (s : State) (p : PsOp) : Bool :=
  !p.deps.any s.pendingId && (p.kind == 2 || !s.unentered p.gid p.id (fun _ id => decide (id < p.id)) fun _ n => decide (n < p.epoch))
/-- The step operation of a context that is applied next: the first in order of arrival (R370). -/
def Ctx.stepHead (c : Ctx) : Option PsOp := c.psq.find? fun p => p.kind != 0
/-- A PS operation leaves its queue and ends. -/
def State.endPs (s : State) (ctx : Nat) (p : PsOp) : State :=
  (s.modCtx ctx fun c => { c with psq := c.psq.filter fun x => x.id != p.id }).finishOp ctx p.gid 4 p.n none
/-- Every die's copy of C (R370). -/
def State.setStep (s : State) (ctx v : Nat) : State :=
  let s1 := s.modCtx ctx fun c => { c with stepC := v }
  (List.range 4).foldl (fun s d => s.modDie d fun x => { x with cOf := x.cOf.set ctx v }) s1
/-- The step record's first bytes written, once its home has room (R365, R370). -/
def State.writeRec (s : State) (ctx v : Nat) : Option State :=
  let pa := s.pkg * 2 ^ 42 + (s.ctx ctx).rec_ * 64 % 2 ^ 42
  if s.wbqRoom pa then some (s.homeBytes pa (bytesOf 4 v)) else none
/-- The tag cells a sweep makes absent: versions that a test picks (R371, R372). -/
def State.sweepCells (s : State) (ctx r : Nat) (hit : Nat → Bool) : List Host.Cell :=
  let reg := s.region ctx r
  (List.range reg.lines).flatMap fun l =>
    let (t0, t1) := s.tags ctx r l
    let cell (t off : Nat) : List Host.Cell := if hit t && t != 2 ^ 32 - 1 then
        (bytesOf 4 (2 ^ 32 - 1)).mapIdx fun i b => (reg.tags + 8 * l + off + i, b) else []
    cell t0 0 ++ cell t1 4

/-- PBAR: issues in the split in focus. -/
def execPbar (f : W64F) (s : State) := issue (insW64 0xE5 f) pbarEff s
/-- PFLUSH: issues in the split in focus. -/
def execPflush (f : W64F) (s : State) := issue (insW64 0xE6 f) pflushEff s
/-- STEPTAG: issues in the split in focus. -/
def execSteptag (f : W64F) (s : State) := issue (insW64 0xE7 f) steptagEff s
/-- STEPCM: issues in the split in focus. -/
def execStepcm (f : W64F) (s : State) := issue (insW64 0xE8 f) stepcmEff s
/-- STEPAB: issues in the split in focus. -/
def execStepab (f : W64F) (s : State) := issue (insW64 0xE9 f) stepabEff s
/-- SNAPREQ: issues in the split in focus. -/
def execSnapreq (f : W64F) (s : State) := issue (insW64 0xEA f) snapreqEff s

end Sys2Proof.Machine
end

