-- ==== Sys2Proof/Machine/Fabric.lean ====
section
/-! DEFINITION. Pod scope: COLL, SIGADD and SIGWAIT, and the collectives they form (R41, R394 to R402). -/

namespace Sys2Proof.Machine

/-- The 32-bit word at an offset of a record. -/
def wordAt (bs : List Byte) (off : Nat) : Nat := ofBytes ((bs.drop off).take 4)
/-- The members of a communicator record: N, KEY and the table, or none where it breaks a rule (R395, R397). -/
def commRecord (bs : List Byte) (pkg member : Nat) : Option (Nat × List (Nat × Nat)) :=
  let n := wordAt bs 0
  let es := (List.range n).map fun m => wordAt bs (64 + 4 * m)
  let resBad := ((bs.take 64).drop 8).any (· != 0) || es.any fun e => e % 2 ^ 11 != 0
  let rising := (es.zip es.tail).all fun p => decide (p.1 / 2 ^ 11 < p.2 / 2 ^ 11)
  if resBad || !rising || decide (member ≥ n) || (es.getD member 0) / 2 ^ 20 != pkg then none
  else some (wordAt bs 4, es.map fun e => (e / 2 ^ 20, e / 2 ^ 11 % 2 ^ 9))
/-- Members complete as failed: the one whose access failed with that, the others refused (R399). -/
def State.failMembers (s : State) (ms : List Member) (idx : Nat) (f : Fail) : State :=
  ms.foldl (fun s m => s.finishOp m.ctx m.gid 3 m.n (some (if m.idx = idx then f else { reason := 2, side := 5, addr := 0 }))) s
/-- The failure of a member none of whose accesses failed. -/
def otherFail : Fail := { reason := 2, side := 5, addr := 0 }
/-- The collective of an identity. -/
def State.collOf (s : State) (job key seq : Nat) : Option Coll := s.colls.find? fun c => c.job == job && c.key == key && c.seq == seq
/-- Changes a collective. -/
def State.modColl (s : State) (c : Coll) (f : Coll → Coll) : State :=
  { s with colls := s.colls.map fun x => if x.job = c.job ∧ x.key = c.key ∧ x.seq = c.seq then f x else x }
/-- A collective fails here: it is kept, and its members complete (R399, R412). -/
def State.failHere (s : State) (c : Coll) (idx : Nat) (f : Fail) : State :=
  (s.modColl c fun x => { x with failed := true, members := [] }).failMembers c.members idx f
/-- The other packages of a collective, so far as this one knows them. -/
def Coll.others (c : Coll) (pkg : Nat) : List Nat := ((c.table.map Prod.fst ++ c.partials.map Prod.fst ++ c.ready.map Prod.snd).filter (· != pkg)).dedup
/-- Whether a member has contributed, here or on another package (R399). -/
def Coll.has (c : Coll) (idx : Nat) : Bool := c.members.any (fun x => x.idx == idx) || c.told idx
/-- Whether two contributions are alike in N, OP, TY, ROP and COUNT (R399). -/
def Coll.agrees (c d : Coll) : Bool := c.n == d.n && c.op == d.op && c.ty == d.ty && c.rop == d.rop && c.count == d.count
/-- A collective flit: AUX holds KEY and TAG holds SEQ; the payload holds a word offset, JOB, what it is (0 data, 1 failure, 2 that the DST
writes of the package are performed, 3 that the member with that offset as index has contributed), N, then OP, TY, ROP and COUNT in one word, and up to 50 words (R387, log 15, DESIGN CHOICE). -/
def State.collFlit (s : State) (c : Coll) (dst kind off : Nat) (ws : List Word) : Flit :=
  { s.flitTo 0 0 (dst * 2 ^ 42) 0x0A 3 c.seq (BitVec.ofNat 32 c.key)
      (bytesOf 8 off ++ bytesOf 4 c.job ++ bytesOf 4 kind ++ bytesOf 4 c.n ++
        bytesOf 4 (c.op * 2 ^ 29 + c.ty * 2 ^ 28 + c.rop * 2 ^ 27 + c.count) ++ ws.flatMap fun w => bytesOf 4 w.toNat) with dpkg := dst, ddie := 0 }
/-- The other packages of a collective are told something of it. -/
def State.tellColl (s : State) (c : Coll) (kind off : Nat) : State := (c.others s.pkg).foldl (fun s p => s.sendFlit (s.collFlit c p kind off [])) s
/-- A collective fails, and the other packages of it are told (R399, R412). -/
def State.failColl (s : State) (c : Coll) (idx : Nat) (f : Fail) : State := (s.failHere c idx f).tellColl c 1 0
/-- A contribution joins its collective, of which the other packages are told, or fails it; to one that has failed it comes as failed (R398,
R399, R412). -/
def State.contribute (s : State) (c0 : Coll) (m : Member) : State :=
  match s.colls.find? (fun c => c.job == c0.job && c.key == c0.key && c.seq == c0.seq) with
  | none => ({ s with colls := s.colls ++ [{ c0 with members := [m] }] } : State).tellColl c0 3 m.idx
  | some c =>
    if c.failed then s.failMembers [m] m.idx otherFail
    else if c.has m.idx || !c.agrees c0 then
      s.failColl { c0 with members := c.members ++ [m], partials := c.partials, ready := c.ready } m.idx otherFail
    else (s.modColl c fun x => { c0 with members := x.members ++ [m], partials := x.partials, ready := x.ready, ended := x.ended }).tellColl c0 3 m.idx
/-- COLL (R396, R397). -/
def collEff : Iss → State → Eff := fun i s =>
  let r := s.regs i
  let w (k : Nat) : Nat := (r.x (i.ins.a + k) 0).toNat
  let d (k : Nat) : Nat := w k + 2 ^ 32 * w (k + 1)
  let g := s.group i.gid
  let comm := d 0
  let count := w 3
  let mis := [comm, d 4, d 6].mapIdx (fun k a => (k, a)) |>.find? fun x => if x.1 = 0 then x.2 % 64 != 0 else x.2 % 4 != 0
  if count = 0 ∨ count > 2 ^ 26 then .trap (i.fault .illegalOperand) s
  else match mis with
    | some (_, a) => .trap (i.trap .misalign (BitVec.ofNat 64 a)) s
    | none => match s.fetchRecord i comm 1 with
      | .fault a c => s.recordFault i a c
      | .wait s1 => .wait s1
      | .bytes _ head =>
        let n := wordAt head 0
        if n = 0 ∨ n > 65536 then .trap (i.fault .illegalOperand) (s.dropKept (.lane i.gid i.slot))
        else match s.fetchRecord i comm (1 + (4 * n + 63) / 64) with
          | .fault a c => s.recordFault i a c
          | .wait s1 => .wait s1
          | .bytes pas bs =>
            let s0 := s.linesRead (.lane i.gid i.slot) i.core pas
            match commRecord bs s.pkg (w 2 % 2 ^ 16) with
            | none => .trap (i.fault .illegalOperand) s0
            | some (key, table) =>
              if s.counterFull i.gid 3 then .wait s0
              else
                let (rel, s1) := s0.startRelease i.gid i.core i.active 5
                let (k, s2) := s1.countOp i.gid 3 id
                let c : Coll :=
                  { job := (s.ctx g.ctx).pjob, key := key, seq := w 2 / 2 ^ 16, op := i.ins.m12 / 1024, ty := i.ins.m12 / 512 % 2
                    rop := i.ins.m12 / 256 % 2, count := count, table := table, members := [], partials := [], n := table.length }
                let m : Member :=
                  { idx := w 2 % 2 ^ 16, pkg := s.pkg, gid := i.gid, n := k, ctx := g.ctx, src := d 4, dst := d 6, deps := rel, data := none }
                .done (s2.contribute c m)

/-- SIGADD (R400, R401). -/
def sigaddEff : Iss → State → Eff := fun i s =>
  let r := s.regs i
  let va := r.xs i.ins.a 2 0
  let g := s.group i.gid
  if va % 8 ≠ 0 then .trap (i.trap .misalign (BitVec.ofNat 64 va)) s
  else match s.laneAccess i.core g.ctx g.step.toNat .atomic va with
    | .error c => s.unfinished i .atomic true false [(0, va, c)]
    | .ok pa =>
      if s.counterFull i.gid 3 then .wait s
      else
        let (rel, s1) := s.startRelease i.gid i.core i.active 5
        let (n, s2) := s1.countOp i.gid 3 (fun o => o)
        let (id, s3) := s2.newId
        let m : SigAdd :=
          { id := id, gid := i.gid, n := n, ctx := g.ctx, va := BitVec.ofNat 64 va, pa := pa, val := r.xs i.ins.b 2 0, step := g.step.toNat
            deps := rel, core := i.core, epoch := g.epoch }
        .done { s3 with sigs := s3.sigs ++ [m] }
/-- What a SIGWAIT finds (R402): its fault, the value that satisfies it, or nothing yet. Dirty bytes of the issuing L1 go
home first, as for a home load. -/
inductive SigTest where
  | fault (va : Nat) (c : Cause)
  | misalign (va : Nat)
  | value (v : Nat)
  | wait (s : State)
/-- One test of a SIGWAIT (R402): a read at home, of another package's word by an RD. -/
def State.sigTest (s : State) (i : Iss) : SigTest :=
  let r := s.regs i
  let va := r.xs i.ins.a 2 0
  let g := s.group i.gid
  let o := Origin.lane i.gid i.slot
  if va % 8 ≠ 0 then .misalign va
  else match s.laneAccess i.core g.ctx g.step.toNat .read va with
    | .error c => .fault va c
    | .ok pa => match s.linesReady o i.core g.ctx g.step.toNat [pa] with
      | some s1 => .wait s1
      | none => match s.lineBytes o pa 8 g.step.toNat with
        | .error c => .fault va c
        | .ok bs => if ofBytes bs ≥ r.xs i.ins.b 2 0 then .value (ofBytes bs) else .wait (s.linesRead o i.core [pa])
/-- SIGWAIT at issue (R400, R402). -/
def sigwaitIssue : Iss → State → Eff := fun i s =>
  match s.sigTest i with
  | .misalign va => .trap (i.trap .misalign (BitVec.ofNat 64 va)) s
  | .fault va c => s.recordFault i va c
  | .wait s1 => .wait s1
  | .value v =>
    let s1 := ((s.linesRead (.lane i.gid i.slot) i.core (match s.lineAddrs i ((s.regs i).xs i.ins.a 2 0) 1 with | .ok l => l | .error _ => []))).acquire i.core 5 1
    if i.ins.d = 288 then .done s1
    else
      let (seq, s2) := s1.newUniLoad i i.ins.d 2 0 5
      .done (s2.returnWords i.gid seq [(i.ins.d, [BitVec.ofNat 32 v, BitVec.ofNat 32 (v / 2 ^ 32)])])

/-- SIGWAIT: one that returns its value needs room for a load (R160, R402). -/
def sigwaitEff : Iss → State → Eff := fun i s => if i.ins.d = 288 then sigwaitIssue i s else withLoadRoom sigwaitIssue i s

/-- COLL: issues in the split in focus. -/
def execColl (f : W64F) (s : State) := issue (insW64 0xEB f) collEff s
/-- SIGADD: issues in the split in focus. -/
def execSigadd (f : W64F) (s : State) := issue (insW64 0xEC f) sigaddEff s
/-- SIGWAIT: issues in the split in focus. -/
def execSigwait (f : W64F) (s : State) := issue (insW64 0xED f) sigwaitEff s

end Sys2Proof.Machine
end

