-- ==== Sys2Proof/Machine/Issue.lean ====
section
/-! DEFINITION. Instruction fetch, readiness of runs, the choice of a run, issue slots and the core's cycle (R71, R153 to
R172). -/

namespace Sys2Proof.Machine

/-- What a fetch at a split's program counter gives (R71, R158). -/
inductive Fetched where
  | words (w : Words)
  | absent
  | lost (c : Cause) (addr : CodeAddr)
deriving DecidableEq, Repr

/-- One byte of code: absent from the instruction cache, lost, or there. -/
def Core.codeByte (c : Core) (ctx : Nat) (a : CodeAddr) : Option (Except Cause Byte) :=
  match c.icache.find? (fun l => l.ctx == ctx && l.line == a.toNat / 64) with
  | none => none
  | some l => match l.bytes with
    | none => some (.error l.cause)
    | some bs => some (.ok (bs.getD (a.toNat % 64) 0))
/-- The bytes from an address as far as they are needed: the first that is absent or lost stops the fetch. -/
def Core.codeBytes (c : Core) (ctx : Nat) (a : CodeAddr) : Nat → Except Fetched (List Byte)
  | 0 => .ok []
  | n + 1 => match c.codeByte ctx a with
    | none => .error .absent
    | some (.error e) => .error (.lost e a)
    | some (.ok b) => match Core.codeBytes c ctx (a + 1) n with
      | .error f => .error f
      | .ok l => .ok (b :: l)
/-- Fetches one instruction (R45, R71). -/
def Core.fetch (c : Core) (ctx : Nat) (pc : CodeAddr) : Fetched :=
  match c.codeBytes ctx pc 1 with
  | .error f => f
  | .ok bs => match c.codeBytes ctx pc (lengthOf (bs.headD 0)) with
    | .error f => f
    | .ok bs => match readWords bs with
      | .ok (w, _) => .words w
      | .error _ => .absent
/-- The instruction a slot would issue next. -/
def State.fetchAt (s : State) (gid slot : Nat) : Fetched :=
  let g := s.group gid
  (s.core g.core).fetch g.ctx (g.slot slot).spc
/-- Whether the instruction of a word ends a run (R156). -/
def Ins.endsRun (i : Ins) : Bool := i.f.e.toNat == 1 || (decide (0x80 ≤ i.op) && decide (i.op < 0x8C))
/-- The instructions of a run from an address on, at most `n`; none while a byte of it is absent (R157, R165). A lost
instruction ends it. -/
def Core.runFrom (c : Core) (ctx : Nat) (pc : CodeAddr) : Nat → Option (List Ins)
  | 0 => some []
  | n + 1 => match c.fetch ctx pc with
    | .absent => none
    | .lost _ _ => some []
    | .words w =>
      let i := insOfWords w
      if i.endsRun || (opInfo i.op).isNone then some [i]
      else (Core.runFrom c ctx (pc + BitVec.ofNat 56 i.len) n).map (i :: ·)
/-- The run a slot would begin. -/
def State.runAt (s : State) (gid slot : Nat) : Option (List Ins) :=
  let g := s.group gid
  (s.core g.core).runFrom g.ctx (g.slot slot).spc 24
/-- The timing class of an operation (R67). -/
def Ins.cls (i : Ins) : Nat := match opInfo i.op with | some o => o.cls | none => 0
/-- Whether an operation issues on port B (R67). -/
def Ins.onB (i : Ins) : Bool := match opInfo i.op with | some o => o.portB | none => true
/-- The class of a run (R165). -/
def runClass (l : List Ins) : Nat := l.foldl (fun m i => max m i.cls) 0

/-- What may make the first instruction of a run wait, by operation (R145, R146, R157, R160, R173, R174, R177, R187, R215,
R220, R239, R248, R264, R268, R296, R303, R341, R373, R402). -/
def waitingEff (op m12 : Nat) : Option (Iss → State → Eff) :=
  match op with
  | 0x90 => some ldEff | 0x92 => some ldsEff | 0x94 => some ldfeEff | 0x95 => some stfeEff
  | 0x97 => some atomEff | 0x98 => some atomsEff | 0x9B => some fenceEff | 0x9E => some gldEff
  | 0xC0 => some waitEff | 0xC1 => some (if m12 / 512 = 1 then sleeptPromEff else sleeptEff) | 0xC3 => some regclmEff
  | 0xCE => some tlbinvEff | 0xC5 => some barEff | 0xC6 => some dqpushEff | 0xC8 => some dqstealEff | 0xC9 => some lnchEff
  | 0xD0 => some (tileMoveEff false) | 0xD1 => some (tileMoveEff true) | 0xD3 => some (tileFileEff 2) | 0xD4 => some (tileFileEff 3)
  | 0xD6 => some mmaEff | 0xD7 => some mmasEff | 0xD8 => some mcntEff | 0xD9 => some mqchEff
  | 0xDA => some (if m12 % 4 = 1 then mmrgPeerEff else mmrgEff) | 0xDB => some mdrnEff | 0xDC => some mdrnaEff | 0xDD => some maczEff
  | 0xDE => some sctrdEff | 0xDF => some (match m12 % 4 with | 0 => sctadvEff | 1 => sctadvAmaxEff | _ => sctadvOffEff)
  | 0xE0 => some (tongsEff false) | 0xE1 => some (tongsEff true) | 0xE2 => some (freezeEff false) | 0xE3 => some (freezeEff true)
  | 0xE4 => some frzqEff | 0xE6 => some pflushEff | 0xE8 => some stepcmEff | 0xE9 => some stepabEff | 0xEA => some snapreqEff
  | 0xEB => some collEff | 0xEC => some sigaddEff | 0xED => some sigwaitEff
  | _ => none
/-- Whether an instruction whose loads are committed would issue now as the first of a run, and what testing it starts (R157). -/
def State.readyTest (s : State) (i : Iss) : Bool × State :=
  match i.ins.check (s.bounds i) with
  | some _ => (true, s)
  | none => match s.badSource i with
    | some _ => (true, s)
    | none => match waitingEff i.ins.op i.ins.m12 with
      | none => (true, s)
      | some eff => match eff i s with
        | .wait s1 => (false, s1)
        | _ => (true, s)
/-- Whether an instruction would issue now as the first of a run, and what testing it starts (R157). A settle point that waits for
something else once its loads have returned commits them first (R159). -/
def State.firstTest (s : State) (i : Iss) : Bool × State :=
  if !s.unsettled i then s.readyTest i
  else if !(s.group i.gid).settleReady i.handler i.active then (false, s)
  else match s.settle i with
    | (_, some _) => (true, s)
    | (s1, none) => match s1.readyTest i with
      | (true, _) => (true, s)
      | (false, s2) => (false, s2)
/-- The run a partition issues belongs to this slot. -/
def State.issuing (s : State) (gid slot : Nat) : Bool :=
  match (s.part (s.group gid).core (s.group gid).part).run with
  | some r => r.gid == gid && r.slot == slot
  | none => false
/-- Whether a slot may begin a run at all: its split is bound and active, is neither suspended, pending, waiting at a join
nor awaiting REDO answers, nothing clamps its group, its context is active, and the first code of its block is here (R86, R157, R158, R193,
R286, R302, R348, R351). -/
def State.mayRun (s : State) (gid slot : Nat) : Bool :=
  let g := s.group gid
  let x := g.slot slot
  x.valid && x.amask != 0 && (x.mode == .running || x.mode == .handler) && x.redo.isEmpty && x.redoAt.isNone
    && !g.waitsAtJoin slot && !s.groupClamped gid && (s.ctx g.ctx).state == .active && !(s.core g.core).preload.any fun p => p.1 == g.blk
/-- A split some of whose lanes have had their barrier arrival refused traps before it issues anything (R403). -/
def State.refuseSplit (s : State) (gid slot : Nat) : Option State :=
  let x := (s.group gid).slot slot
  match x.amask.lanes.findSome? fun l => ((s.group gid).lane l).refused with
  | none => none
  | some cnt =>
    let raw : Word := match s.fetchAt gid slot with | .words w => w.first32 | _ => 0
    some ((s.modGroup gid fun g => g.modLanes x.amask fun _ l => { l with refused := none }).raise gid slot
      { cause := .illegalOperand, pc := x.spc, addr := BitVec.ofNat 64 cnt, lanes := x.amask, info := raw, rpl := false })
/-- Whether an instruction that waits stalls its split (R86, R402): its own condition does not hold, or it has come to another core's bank
and is performed there once it does (R202). A wait for a settle, for room among the loads, for a release or for the order of accesses is
no stall (R160, R162). -/
def State.stalls (s : State) (i : Iss) : Bool :=
  !s.unsettled i && (match i.ins.op with
    | 0x94 => decide (s.loadCount i < 32) && s.feStalls i
    | 0x95 => s.feStalls i
    | 0xED => decide (s.loadCount i < 32)
    | op => op == 0xC0 || op == 0xC1 || op == 0xC3)
/-- Whether the words that let the LDFE or STFE of a ready run proceed have changed since (R145, R206). -/
def State.feLost (s : State) (gid slot : Nat) : Bool :=
  match s.fetchAt gid slot with
  | .words w =>
    let i := s.issAt gid slot (insOfWords w)
    [0x94, 0x95].contains i.ins.op && !s.feDone i && s.stalls i
  | _ => false
/-- Tests whether the next run of a slot is ready: sets the cycle since which it is, or how long its split has been
stalled (R81, R86, R157, R164). A ready run stays ready, but for a LDFE or STFE whose words have changed. A split of a clamped group stands
where it is: stalled, if it was (R206). -/
def State.testReady (s : State) (gid slot : Nat) : State :=
  let g := s.group gid
  let cyc := (s.core g.core).cyc
  let set (s : State) (f : Slot → Slot) : State := s.modGroup gid fun g => g.modSlot slot f
  let now := (s.core g.core).readyFrom
  let no (x : Slot) : Slot := { x with readyAt := none, stallAt := none, nstall := 0, asleep := false, retest := false }
  let yes (x : Slot) : Slot := { no x with readyAt := some (x.readyAt.getD now) }
  if s.issuing gid slot then s
  else if s.groupClamped gid && s.feLost gid slot then set s fun x => { x with readyAt := none, stallAt := some (x.stallAt.getD cyc) }
  else if s.groupClamped gid && (g.slot slot).stallAt.isSome then s
  else if !s.mayRun gid slot then set s no
  else if !(g.slot slot).retest && !s.feLost gid slot && (match (g.slot slot).readyAt with | some c => decide (c < now) | none => false) then s
  else match s.refuseSplit gid slot with
  | some s1 => set s1 no
  | none => match s.runAt gid slot with
    | none => set s no
    | some [] => set s yes
    | some (i :: _) =>
      let (ok, s1) := s.firstTest (s.issAt gid slot i)
      if ok then set s1 yes
      else if s1.stalls (s1.issAt gid slot i) then set s1 fun x =>
        { no x with
          stallAt := some (x.stallAt.getD cyc), nstall := min 4096 (cyc - x.stallAt.getD cyc), asleep := i.op == 0xC1
          stallNo := if x.stallAt.isSome then x.stallNo else if (s.core g.core).running then (s.core g.core).began else s.fresh }
      else set s1 no
/-- Tests every slot of a group. -/
def State.testGroup (s : State) (gid : Nat) : State := (List.range 4).foldl (fun s k => s.testReady gid k) s
/-- Tests every slot of a core, at the start of a cycle. -/
def State.testCore (s : State) (core : Nat) : State := (s.residents core).foldl (fun s gid => s.testGroup gid) s

/-- H as the cycle began (R165). -/
def Core.heldClass (c : Core) : Nat := c.held.foldl (fun m h => if c.cyc ≤ h.2 then max m h.1 else m) 0
/-- H of the cycle, with what has issued in it (R167). -/
def Core.cycleClass (c : Core) : Nat := (c.held ++ c.taken).foldl (fun m h => if c.cyc ≤ h.2 then max m h.1 else m) 0
/-- Whether nothing is held (R168). -/
def Core.nothingHeld (c : Core) : Bool := (c.held ++ c.taken).all fun h => decide (h.2 < c.cyc)
/-- The length in grains of a cycle of class H at a level (R5). -/
def grains (level h : Nat) : Nat :=
  (([[8, 10, 13, 16], [6, 8, 10, 13], [5, 6, 8, 10], [4, 5, 6, 8]] : List (List Nat)).getD level []).getD h 4
/-- The runs of a partition that were ready as the cycle began (R164): group, slot, position, the cycle since which it is ready, whether it
yielded. -/
def State.readyRuns (s : State) (core part : Nat) : List (Nat × Nat × Nat × Nat × Bool) :=
  s.groups.flatMap fun p => if p.1 / 96 = core ∧ p.2.part = part then
      (List.range 4).filterMap fun k =>
        let x := p.2.slot k
        match x.readyAt with
        | some c => if x.valid && decide (c ≤ (s.core core).cyc) && s.mayRun p.1 k then some (p.1, k, p.2.pos, c, x.youngest) else none
        | none => none
    else []
/-- The eligible run of greatest age, ties to the lower position and then the lower slot; one that yielded is the youngest of
those ready when its next run became ready (R99, R164, R165). -/
def State.chooseRun (s : State) (core part : Nat) : Option (Nat × Nat) :=
  let c := s.core core
  let rs := s.readyRuns core part
  let low (r : Nat × Nat × Nat × Nat × Bool) : Bool := decide (runClass ((s.runAt r.1 r.2.1).getD []) ≤ c.heldClass)
  let ok := if c.issctl.getLsbD 0 = false then rs
    else if rs.any low then rs.filter fun r => low r || decide (c.cyc - r.2.2.2.1 ≥ 256) else rs
  let before (r t : Nat × Nat × Nat × Nat × Bool) : Bool :=
    if r.2.2.2.1 ≠ t.2.2.2.1 then decide (r.2.2.2.1 < t.2.2.2.1)
    else if r.2.2.2.2 ≠ t.2.2.2.2 then t.2.2.2.2
    else if r.2.2.1 ≠ t.2.2.1 then decide (r.2.2.1 < t.2.2.1) else decide (r.2.1 < t.2.1)
  (ok.foldl (fun (acc : Option (Nat × Nat × Nat × Nat × Bool)) r => match acc with
    | none => some r | some b => if before r b then some r else some b) none).map fun r => (r.1, r.2.1)
/-- Whether the first instruction of a slot's run can issue now (R164). -/
def State.canBegin (s : State) (gid slot : Nat) : Bool :=
  match s.fetchAt gid slot with
  | .absent => false
  | .lost _ _ => true
  | .words w => (s.firstTest (s.issAt gid slot (insOfWords w))).1
/-- The run a partition with none begins now, in its turn (R164). -/
def State.selection (s : State) (core part : Nat) : Option (Nat × Nat) :=
  if (s.part core part).run.isSome || decide (part + 1 < (s.core core).phase) then none
  else match s.chooseRun core part with
    | none => none
    | some (gid, slot) => if s.canBegin gid slot then some (gid, slot) else none

/-- The keys of lane predicates, uniform predicates and FPSTAT in a scoreboard: 300 + code, and 330. -/
def predKeys (l : List Nat) : List Nat := (l.filter fun n => n != 7 && decide (n < 12)).map (300 + ·)
/-- The predicates an instruction reads (R56, R93, R111, R115, R127 to R137, R191). -/
def Ins.predReads (i : Ins) : List Nat :=
  predKeys ((if i.f.g.toNat = 7 then [] else [i.f.g.toNat]) ++ match i.op with
    | 0x06 => [i.c] | 0x07 => [i.c] | 0x1F => if i.opx = 0 then [] else [i.d] | 0x38 => if i.opx = 0 then [] else [i.d]
    | 0x4F => if i.opx = 0 then [] else [i.d] | 0x64 => [i.c] | 0x65 => [i.a, i.b]
    | 0x66 => if i.opx = 0 then [0, 1, 2, 3, 4, 5, 6, 8, 9, 10, 11] else []
    | 0x73 => [i.a] | 0x74 => [i.a] | 0x80 => [i.a] | 0x81 => [i.a] | 0x82 => [i.a] | 0x83 => [i.a]
    | 0xB9 => if i.opx = 0 then [] else [i.d] | 0xBA => [i.c] | _ => [])
/-- The predicates an instruction writes. -/
def Ins.predWrites (i : Ins) : List Nat :=
  predKeys (match i.op with
    | 0x06 => [i.c] | 0x07 => [i.c] | 0x1F => [i.d] | 0x38 => [i.d] | 0x4F => [i.d] | 0x65 => [i.d]
    | 0x66 => if i.opx = 1 then [0, 1, 2, 3, 4, 5, 6] else [] | 0x70 => if i.c = 288 then [] else [i.c] | 0x73 => [i.d]
    | 0xB9 => [i.d] | 0xF4 => [i.mod7 % 8] | 0xF5 => [8 + i.mod7 % 4] | _ => [])
/-- Whether an instruction writes FPSTAT: one that may raise a flag, or clears them (R43, R44, R113, R121, R135). -/
def Ins.writesFpstat (i : Ins) : Bool :=
  (decide (0x30 ≤ i.op) && decide (i.op ≤ 0x51) && i.op != 0x39) || [0x60, 0x61, 0x62, 0xBE, 0xBF].contains i.op
    || ((i.op == 0x71 || i.op == 0x72) && (i.ty == 6 || i.ty == 9))
    || ((decide (i.op < 0x30) || (decide (0xB0 ≤ i.op) && decide (i.op < 0xBE))) && i.sat)
    || (i.op == 0xF2 && i.mod7.testBit 0) || (i.op == 0x68 && i.opx == 1)
/-- The keys an instruction reads (R155). -/
def Ins.readKeys (i : Ins) : List Nat :=
  i.srcs ++ (if i.op = 0xD6 ∧ 128 ≤ i.c ∧ i.c < 288 then [i.c, i.c + 1] else [])
    ++ (if i.op = 0xD9 ∧ 128 ≤ i.b ∧ i.b < 288 then [i.b, i.b + 1] else [])
    ++ i.predReads ++ (if i.op = 0x68 ∧ i.a = 20 then [330] else [])
/-- A register-targeted load: its result commits at a settle point (R140, R155, R160). -/
def Ins.isLoad (i : Ins) : Bool := [0x90, 0x92, 0x94, 0x97, 0x98, 0x9E, 0xC8, 0xDE, 0xE0, 0xE1, 0xE4, 0xED].contains i.op
/-- The keys an instruction writes (R155): a load's destination, which a settle point commits, is none (log 99, DEDUCED). -/
def Ins.writeKeys (i : Ins) : List Nat :=
  (if i.isLoad then [] else i.dsts) ++ i.predWrites ++ (if i.writesFpstat then [330] else [])
/-- Whether a key belongs to a slot rather than to its group (R155). -/
def slotKey (k : Nat) : Bool := decide (k < 128) || (decide (300 ≤ k) && decide (k < 307))
/-- A key as a scoreboard holds it: the handler bank's apart from the group's; FPSTAT is the group's for a handler too (R130, R193). -/
def keyOf (handler : Bool) (k : Nat) : Nat := if handler && k != 330 then 1000 + k else k
/-- Whether an instruction's operands are readable in a cycle (R155). -/
def State.readable (s : State) (i : Iss) (cyc : Nat) : Bool :=
  let g := s.group i.gid
  i.ins.readKeys.all fun k => ((if slotKey k then (g.slot i.slot).sb else g.sb).all fun e => e.1 != keyOf i.handler k || decide (e.2 ≤ cyc))

/-- Whether the next instruction of a run can issue in this cycle: in a new slot, or as a pair (R153, R154, R155). -/
def State.slotFor (s : State) (r : Run) (i : Iss) : Bool :=
  let cyc := (s.core i.core).cyc
  let onB := i.ins.onB
  let pair := r.at_ == some cyc && (if onB then !r.portB else !r.portA) && r.portA != r.portB
    && !(i.ins.readKeys.any r.writes.contains)
  s.readable i cyc && (pair || decide (cyc ≥ r.next))
/-- The hold of a class (R155). -/
def holdOf : Nat → Nat
  | 0 => 4 | 1 => 6 | 2 => 8 | _ => 12
/-- A run once an instruction of it has issued in a cycle (R153 to R156). -/
def Run.after (r : Run) (i : Ins) (cyc : Nat) : Run :=
  let r1 : Run := if r.at_ = some cyc then { r with portA := r.portA || !i.onB, portB := r.portB || i.onB }
    else { r with at_ := some cyc, portA := !i.onB, portB := i.onB, writes := i.writeKeys }
  { r1 with count := r.count + 1, next := cyc + r.passc, ended := r.ended || decide (r.count + 1 ≥ 24) }
/-- Drops the entries of a scoreboard whose results are readable, and adds the new: an earlier result of the same register that takes
longer stays (R155). -/
def boardWith (sb : List (Nat × Nat)) (keys : List Nat) (cyc until_ : Nat) : List (Nat × Nat) :=
  (sb.filter fun e => decide (e.2 > cyc) && !(keys.contains e.1 && decide (e.2 ≤ until_))) ++ keys.map fun k => (k, until_)
/-- What issuing an instruction leaves behind in its run, its scoreboards and its core's class set (R155, R156). An
instruction before which the run was cut has not issued; TRAP, ERET and BKPT have, and a REDO whose answers are awaited. -/
def State.accountIssue (s : State) (i : Iss) : State :=
  match (s.part i.core i.part).run with
  | none => s
  | some r =>
    let sent := i.ins.op == 0x9A && ((s.group i.gid).slot i.slot).redo != []
    if r.gid ≠ i.gid ∨ r.slot ≠ i.slot ∨ (r.cut = true ∧ [0xCA, 0xCB, 0xCF].contains i.ins.op = false ∧ sent = false) then s
    else
      let cyc := (s.core i.core).cyc
      let h := holdOf i.ins.cls
      let till := cyc + h + r.passc - 1
      let ks := if i.handler then i.ins.writeKeys.filter (· != 330) else i.ins.writeKeys
      let s1 := s.modCore i.core fun c =>
        { c.modPart i.part (fun p => { p with run := some (r.after i.ins cyc) }) with taken := c.taken ++ [(i.ins.cls, till - 1)] }
      s1.modGroup i.gid fun g =>
        ({ g with sb := boardWith g.sb ((ks.filter fun k => !slotKey k).map (keyOf i.handler)) cyc till } : Group).modSlot i.slot fun x =>
          if x.valid then { x with sb := boardWith x.sb ((ks.filter slotKey).map (keyOf i.handler)) cyc till } else x

/-- The start of the next cycle (R167, R168, R172): CYC and TIME count, the level of the core follows, what engines have reported is taken,
and its runs are tested. -/
def State.tick (s : State) (core : Nat) : State :=
  let c := s.core core
  let c1 : Core := { c with
    cyc := (c.cyc + 1) % 2 ^ 64, time := (c.time + grains c.level c.cycleClass) % 2 ^ 64
    held := (c.held ++ c.taken).filter fun h => decide (c.cyc < h.2), taken := [], began := s.fresh + 1, phase := 0, lastSrc := 0, lastThief := 0 }
  let s1 := (s.setCore core c1).sample core
  (s1.modCore core fun c => { c with level := s1.levelOf core }).testCore core

/-- A fetch that could not be completed, as the split would issue (R71, R297): one KIND 1 record for a page that is not
present. TINFO holds the first 32 bits as far as they were fetched (R70), and bits that were never fetched above them (log 13, DESIGN
CHOICE). -/
def State.fetchTrap (s : State) (gid slot : Nat) (c : Cause) (addr : CodeAddr) : State :=
  let x := (s.group gid).slot slot
  let (free, s1) := s.draw
  let a : Dword := if c = .dataError then x.spc.setWidth 64 else addr.setWidth 64
  let s2 := if c = .pageNotPresent then
      s1.logRecord (s.group gid).ctx (s.laneRecord gid slot x.spc 1 1 3 addr.toNat x.amask)
    else s1
  let s3 := s2.modCore (s.group gid).core fun k => { k with icache := k.icache.filter fun l => l.bytes.isSome || l.line != addr.toNat / 64 }
  let got (n : Nat) := (s.core (s.group gid).core).codeBytes (s.group gid).ctx x.spc n
  let raw : Word := match got 4, got 2 with
    | .ok bs, _ => BitVec.ofNat 32 (ofBytes bs)
    | .error _, .ok bs => BitVec.ofNat 32 (ofBytes bs + 2 ^ 16 * free)
    | .error _, .error _ => BitVec.ofNat 32 free
  s3.raise gid slot { cause := c, pc := x.spc, addr := a, lanes := x.amask, info := raw, rpl := false }
/-- An instruction whose op8 is reserved (R69, R70). -/
def State.reservedTrap (s : State) (gid slot : Nat) (w : Words) : State :=
  let x := (s.group gid).slot slot
  s.raise gid slot { cause := .illegalOpcode, pc := x.spc, addr := x.spc.setWidth 64, lanes := x.amask, info := w.first32, rpl := false }

/-- Whether a partition's run has reached its boundary (R84, R156, R157). -/
def State.atBoundary (s : State) (core part : Nat) : Bool :=
  match (s.part core part).run with
  | some r => r.ended && decide ((s.core core).cyc ≥ r.next)
  | none => false
/-- Whether a sleep is over (R177). -/
def State.wakes (s : State) (gid slot : Nat) : Bool :=
  let x := (s.group gid).slot slot
  x.valid && x.asleep && s.mayRun gid slot && (match s.fetchAt gid slot with
    | .words w => (insOfWords w).op == 0xC1 && s.sleepReady (s.issAt gid slot (insOfWords w))
    | _ => false)
/-- Whether a settle point of a slot can commit (R159, R160): it is what the slot's run issues next, and its loads have returned. -/
def State.commits (s : State) (gid slot : Nat) : Bool :=
  let g := s.group gid
  s.mayRun gid slot && (match (s.part g.core g.part).run with | some r => r.gid == gid && r.slot == slot && !r.ended | none => false) &&
    (match s.fetchAt gid slot with
     | .words w =>
       let i := s.issAt gid slot (insOfWords w)
       s.unsettled i && g.settleReady i.handler i.active
     | _ => false)
/-- Whether a slot rotates (R86). -/
def State.rotates (s : State) (gid slot : Nat) (stall : Bool) : Bool :=
  let g := s.group gid
  let x := g.slot slot
  x.valid && !x.pinned && g.hasParked && !s.issuing gid slot && (if stall then decide (x.nstall ≥ 4096) else decide (x.nrun ≥ 256))
/-- A join record whose age has run out (R87). -/
def State.timedOut (s : State) (gid : Nat) : Option Nat :=
  let g := s.group gid
  (g.joins.find? fun j => decide (j.age (s.core g.core).cyc ≥ 4096)).map (·.id)

end Sys2Proof.Machine
end

