-- ==== Sys2Proof/Machine/Barriers.lean ====
section
/-! DEFINITION. Barriers: what completes them, their arrivals at package and pod scope, and their release (R215 to R217,
R403, R412). -/

namespace Sys2Proof.Machine

/-- The lanes of a group that wait at a barrier. -/
def Group.waiting (g : Group) (lvl id : Nat) : Mask :=
  Mask.ofFn fun l => (g.lane l).lst == .barrier && (match (g.lane l).bar with | some b => b.lvl == lvl && b.id == id | none => false)
/-- The same barrier: level, number, and at pod scope the package that holds it (R216, R403). -/
def BarWait.same (a b : BarWait) : Bool := a.lvl == b.lvl && a.id == b.id && a.desc / 2 ^ 20 == b.desc / 2 ^ 20
/-- The lanes of a group that wait at the barrier of one of them. -/
def Group.waitingAt (g : Group) (b : BarWait) : Mask :=
  Mask.ofFn fun l => (g.lane l).lst == .barrier && (match (g.lane l).bar with | some x => x.same b | none => false)
/-- The lanes of a group that wait under the name of an arrival. -/
def Group.arrivedAs (g : Group) (who : Nat) : Mask :=
  Mask.ofFn fun l => match (g.lane l).bar with | some b => b.mark == who + 1 | none => false
/-- Waiting lanes become bindable parked lanes after their BAR, and the splits settle (R86 to R88, R216). `busy` is the slot of a run
under way. -/
def Group.releaseBar (g : Group) (m : Mask) (cyc : Nat) (busy : Option Nat) : Group :=
  if m = 0 then g else
  let go (_ : Nat) (l : Lane) : Lane := { l with lst := .parked, lpc := l.lpc + 8, passed := 0, parkedAt := g.stamp, bar := none }
  (g.modLanes m go).settled none busy cyc
/-- The waiting lanes of a refused arrival become bindable parked lanes at their BAR (R403). -/
def Group.refuseBar (g : Group) (m : Mask) (cnt cyc : Nat) (busy : Option Nat) : Group :=
  if m = 0 then g else
  let go (_ : Nat) (l : Lane) : Lane := { l with lst := .parked, passed := 0, parkedAt := g.stamp, bar := none, refused := some cnt }
  (g.modLanes m go).settled none busy cyc
/-- The slot of a group whose run is under way. -/
def State.busySlot (s : State) (gid : Nat) : Option Nat := (List.range 4).find? (s.issuing gid)
/-- Lanes of a group are released from a barrier, with the acquire its level makes (R216, R217). -/
def State.releaseGroup (s : State) (gid lvl : Nat) (m : Mask) : State :=
  let core := (s.group gid).core
  (((s.modGroup gid fun g => g.releaseBar m (s.core core).cyc (s.busySlot gid)).purgeClaims (s.group gid).blk).acquire core lvl 1).testGroup gid
/-- A group's arrival is refused. -/
def State.refuseGroup (s : State) (gid cnt : Nat) (m : Mask) : State :=
  ((s.modGroup gid fun g => g.refuseBar m cnt (s.core g.core).cyc (s.busySlot gid)).purgeClaims (s.group gid).blk).testGroup gid

/-- The participants of a barrier of levels 1 to 3: the block's groups on a core, quad or die (R216). -/
def State.participants (s : State) (blk lvl unit : Nat) : List Nat :=
  (s.block blk).groups.filter fun gid =>
    let c := (s.group gid).core
    (match lvl with | 1 => c | 2 => quadOf c | _ => dieOf c) == unit
/-- Whether a barrier of levels 1 to 3 is complete (R216). -/
def State.barDone (s : State) (blk lvl id unit : Nat) : Bool :=
  let gs := s.participants blk lvl unit
  gs.any (fun gid => (s.group gid).waiting lvl id != 0)
    && gs.all fun gid => (s.group gid).liveLanes &&& ~~~((s.group gid).waiting lvl id) == 0

/-- A barrier flit: the payload holds JOB, CNT, ID, what it is (0 arrival, 1 release, 2 refusal) and the arrival's name at the
package it comes from (R387, log 14, DESIGN CHOICE). -/
def State.barFlit (s : State) (dst ctx job id cnt kind who : Nat) : Flit :=
  { s.flitTo ctx 0 (dst * 2 ^ 42) 0x0B 3 who 0 (bytesOf 4 job ++ bytesOf 4 cnt ++ bytesOf 4 id ++ bytesOf 4 kind ++ bytesOf 8 who) with
    dpkg := dst, ddie := 0 }
/-- The same use of a barrier. -/
def BarUse.same (u : BarUse) (lvl owner id : Nat) : Bool := u.lvl == lvl && u.owner == owner && u.id == id
/-- The answer to an arrival of this package reaches its group, resident or saved with its context (R349, R403). -/
def State.barHere (s : State) (lvl cnt kind who : Nat) : State :=
  match s.groups.find? fun p => p.2.arrivedAs who != 0 with
  | some p => if kind = 1 then s.releaseGroup p.1 lvl (p.2.arrivedAs who) else s.refuseGroup p.1 cnt (p.2.arrivedAs who)
  | none =>
    let go (g : Group) : Group := if kind = 1 then g.releaseBar (g.arrivedAs who) 0 none else g.refuseBar (g.arrivedAs who) cnt 0 none
    { s with ctxs := s.ctxs.map fun c => (c.1, { c.2 with savedGroups := c.2.savedGroups.map fun (x : Nat × Group) => (x.1, go x.2) }) }
/-- The answer to an arrival, at its own package or to another. -/
def State.barAnswer (s : State) (lvl job id cnt kind : Nat) (who : Nat × Nat) : State :=
  if who.1 = s.pkg then s.barHere lvl cnt kind who.2 else s.sendFlit (s.barFlit who.1 0 job id cnt kind who.2)
/-- Whether all groups of a use have arrived. -/
def BarUse.full (u : BarUse) : Bool := decide (u.arrived.length ≥ u.cnt)
/-- Whether a use of a barrier has begun and still lacks a group. -/
def State.barOpen (s : State) (lvl owner id : Nat) : Bool := s.bars.any fun u => u.same lvl owner id && !u.full
/-- A change of the first element that passes a test. -/
def modFirst {α : Type} (p : α → Bool) (f : α → α) : List α → List α
  | [] => []
  | x :: xs => if p x then f x :: xs else x :: modFirst p f xs
/-- An arrival counts where its barrier is held: the first of a use sets CNT, one that differs is refused; one past CNT is the first of the
next use (R403). -/
def State.barCount (s : State) (lvl owner id cnt : Nat) (who : Nat × Nat) : State :=
  match s.bars.find? (fun u => u.same lvl owner id && !u.full) with
  | none => { s with bars := s.bars ++ [{ lvl := lvl, owner := owner, id := id, cnt := cnt, arrived := [who] }] }
  | some u =>
    if u.cnt ≠ cnt then s.barAnswer lvl owner id cnt 2 who
    else { s with bars := modFirst (fun x => x.same lvl owner id && !x.full) (fun x => { x with arrived := x.arrived ++ [who] }) s.bars }
/-- An arrival of another package counts in a use that lacks a group, or is held (R412). -/
def State.barJoin (s : State) (job id cnt : Nat) (who : Nat × Nat) : State :=
  if s.barOpen 5 job id then s.barCount 5 job id cnt who
  else { s with barHeld := s.barHeld ++ [{ lvl := 5, owner := job, id := id, cnt := cnt, arrived := [who] }] }
/-- An arrival at pod scope reaches HPKG: one from another package is held until a group of this package has arrived
there in its use, and then counts (R403, R412). -/
def State.barPod (s : State) (job id cnt : Nat) (who : Nat × Nat) : State :=
  if who.1 = s.pkg then
    let held := s.barHeld.filter fun u => u.same 5 job id
    let s1 := ({ s with barHeld := s.barHeld.filter fun u => !u.same 5 job id } : State).barCount 5 job id cnt who
    held.foldl (fun s u => u.arrived.foldl (fun s w => s.barJoin job id u.cnt w) s) s1
  else s.barJoin job id cnt who
/-- Whether a group has already arrived at a use of a barrier, so far as this package can tell. -/
def Group.barSent (g : Group) : Bool := g.lanes.any fun l => match l.bar with | some b => decide (4 ≤ b.lvl) && b.mark != 0 | none => false
/-- A group arrives at a barrier of level 4 or 5 once every lane it has not exited waits there (R403); its CNT is that of its lowest lane (log
130, DESIGN CHOICE). -/
def State.barArrive (s : State) (gid : Nat) : State :=
  let g := s.group gid
  match g.liveLanes.lowest.bind fun l => (g.lane l).bar with
  | none => s
  | some b =>
    if b.lvl < 4 ∨ g.barSent = true ∨ g.liveLanes &&& ~~~(g.waitingAt b) ≠ 0 then s
    else
      let (who, s0) := s.newId
      let mark (_ : Nat) (l : Lane) : Lane := { l with bar := l.bar.map fun (x : BarWait) => { x with mark := who + 1 } }
      let s1 := s0.modGroup gid fun g => g.modLanes g.liveLanes mark
      let cnt := b.desc % 2 ^ 20
      let hpkg := b.desc / 2 ^ 20
      let job := (s.ctx g.ctx).pjob
      if b.lvl = 4 then s1.barCount 4 g.ctx b.id cnt (s.pkg, who)
      else if hpkg = s.pkg then s1.barPod job b.id cnt (s.pkg, who)
      else s1.sendFlit (s1.barFlit hpkg g.ctx job b.id cnt 0 who)
/-- The uses that are complete: CNT groups have arrived (R403). -/
def State.barFull (s : State) (lvl owner id : Nat) : Bool :=
  s.bars.any fun u => u.same lvl owner id && u.full
/-- Completes the oldest complete use of a barrier of level 4 or 5: every group that arrived in it is released (R403). -/
def State.barFinish (s : State) (lvl owner id : Nat) : State :=
  match s.bars.find? (fun u => u.same lvl owner id && u.full) with
  | none => s
  | some u =>
    let s1 : State := { s with bars := s.bars.eraseP fun x => x.same lvl owner id && x.full }
    u.arrived.foldl (fun s w => s.barAnswer lvl owner id u.cnt 1 w) s1

end Sys2Proof.Machine
end

