-- ==== Sys2Proof/Machine/CoreEvents.lean ====
section
/-! DEFINITION. The events of a core: runs, splits, fetches, loads, traps, sleep and clock, register claims, orphans,
retirement, and the tile path. -/

namespace Sys2Proof.Machine

/-- A partition begins a run in its turn of the cycle (R153, R164, R171). -/
def State.beginRun (s : State) (core part gid slot : Nat) : State :=
  let r : Run := { gid := gid, slot := slot, next := (s.core core).cyc, passc := s.passOf (quadOf core) }
  ((s.atTurn core part).modPart core part fun p => { p with run := some r }).modGroup gid fun g =>
    g.modSlot slot fun x => { x with readyAt := none, youngest := false }
/-- RUN_SELECT (R164, R165). -/
def execRunSelect (core part : Nat) (s : State) : Host.Outcome State Fault Refusal :=
  match s.selection core part with
  | none => .refused (.notEnabled "RUN_SELECT")
  | some (gid, slot) => .next (s.beginRun core part gid slot)
/-- The boundary of a run (R84 to R88): the splits are re-formed, withdrawn claims leave their queue, and a group that has
come to a barrier of level 4 or 5 arrives. -/
def State.endOfRun (s : State) (core part : Nat) (r : Run) : State :=
  let cyc := (s.core core).cyc
  let s1 := s.modPart core part fun p => { p with run := none }
  let s2 := s1.modGroup r.gid fun g => g.reform r.slot (g.slot r.slot).youngest (decide (r.count ≠ 0)) cyc
  ((s2.purgeClaims (s.group r.gid).blk).barArrive r.gid).testGroup r.gid
/-- RUN_BOUNDARY (R84). -/
def execRunBoundary (core part : Nat) (s : State) : Host.Outcome State Fault Refusal :=
  match (s.part core part).run with
  | none => .refused (.notEnabled "RUN_BOUNDARY")
  | some r => event "RUN_BOUNDARY" (s.atBoundary core part) (s.endOfRun core part r)
/-- A join record is dropped: splits that waited there go on, its held lanes become bindable parked lanes, splits that wait
at other joins free their slots for them, and free slots bind (R86 to R88). -/
def Group.timeoutJoin (g : Group) (j cyc : Nat) (busy : Option Nat) : Group := (g.dropJoin j).settled none busy cyc
/-- JOIN_TIMEOUT (R87). -/
def execJoinTimeout (gid j : Nat) (s : State) : Host.Outcome State Fault Refusal :=
  let g := s.group gid
  let cyc := (s.core g.core).cyc
  event "JOIN_TIMEOUT" (g.joins.any fun x => x.id == j && decide (x.age cyc ≥ 4096))
    (((s.modGroup gid fun g => g.timeoutJoin j cyc (s.busySlot gid)).purgeClaims g.blk).testGroup gid)
/-- A slot rotates: its lanes are parked where the split stands, and the slot binds another address (R86, R88). -/
def State.rotate (s : State) (gid slot : Nat) : State :=
  let g := s.group gid
  let x := g.slot slot
  let cyc := (s.core g.core).cyc
  ((s.modGroup gid fun g => ((g.vacate slot false).bindParked slot (some x.spc) cyc).settled none (s.busySlot gid) cyc).purgeClaims g.blk).testGroup gid
/-- RUN_ROTATION (R86). -/
def execRunRotation (gid slot : Nat) (s : State) : Host.Outcome State Fault Refusal :=
  event "RUN_ROTATION" (s.rotates gid slot false) (s.rotate gid slot)
/-- STALL_ROTATION (R86). -/
def execStallRotation (gid slot : Nat) (s : State) : Host.Outcome State Fault Refusal :=
  event "STALL_ROTATION" (s.rotates gid slot true) (s.rotate gid slot)

/-- The first line of code that a run from an address lacks (R157, R158). -/
def Core.lackingFrom (c : Core) (ctx : Nat) (pc : CodeAddr) : Nat → Option Nat
  | 0 => none
  | n + 1 => match c.fetch ctx pc with
    | .absent => if (c.codeByte ctx pc).isNone then some (pc.toNat / 64)
        else ((List.range 8).find? fun k => (c.codeByte ctx (pc + BitVec.ofNat 56 k)).isNone).map fun k => (pc + BitVec.ofNat 56 k).toNat / 64
    | .lost _ _ => none
    | .words w =>
      let i := insOfWords w
      if i.endsRun || (opInfo i.op).isNone then none else Core.lackingFrom c ctx (pc + BitVec.ofNat 56 i.len) n
/-- Whether some split of a context's groups on a core lacks a line. -/
def State.lacks (s : State) (core ctx line : Nat) : Bool :=
  (s.residents core).any fun gid => (s.group gid).ctx == ctx && (List.range 4).any fun k =>
    let x := (s.group gid).slot k
    x.valid && (s.core core).lackingFrom ctx x.spc 24 == some line
/-- A line of code as a fetch finds it (R71, R297). -/
def State.codeLine (s : State) (core ctx line : Nat) : ILine :=
  match s.translate core ctx .fetch (64 * line) with
  | .error c => { ctx := ctx, line := line, bytes := none, cause := c }
  | .ok pa =>
    match s.lineBytes (.fetch core ctx line) pa 64 0 with
    | .error c => { ctx := ctx, line := line, bytes := none, cause := c }
    | .ok bs => { ctx := ctx, line := line, bytes := some bs, cause := .dataError }
/-- A line enters an instruction cache of 1,024 lines; the one that has been there longest leaves a full one (R1, R158; log 95, DESIGN
CHOICE). -/
def State.fillCode (s : State) (core : Nat) (l : ILine) : State :=
  s.modCore core fun c =>
    let rest := c.icache.filter fun x => !(x.ctx == l.ctx && x.line == l.line)
    { c with icache := (if rest.length < 1024 then rest else rest.tail) ++ [l] }
/-- The physical line of a line of code, where it translates. -/
def State.codePa (s : State) (core ctx line : Nat) : List Nat :=
  match s.translate core ctx .fetch (64 * line) with | .ok pa => [pa] | .error _ => []
/-- Whether a block placed on a core still needs a line of its first code there (R158). -/
def State.preloads (s : State) (core ctx line : Nat) : Bool := (s.core core).preload.any fun p => p.2 == line && (s.block p.1).ctx == ctx
/-- A line of a block's first code is here, or cannot be had before a split would issue it (R71, R158). -/
def State.preloaded (s : State) (core ctx line : Nat) : State :=
  s.modCore core fun c => { c with preload := c.preload.filter fun p => !(p.2 == line && (s.block p.1).ctx == ctx) }
/-- A line of code is fetched: one of another package leaves as a request first (R158, R391); lost data is found, in it or in a table
(R314). One that cannot be had and that no split lacks yet stays absent. -/
def State.fetchLine (s : State) (core ctx line : Nat) : State :=
  let o := Origin.fetch core ctx line
  let pas := s.codePa core ctx line
  match s.needLines o core ctx 0 pas with
  | some s1 => s1
  | none =>
    let l := s.codeLine core ctx line
    let s1 := if l.bytes.isNone && !s.lacks core ctx line then s else s.fillCode core l
    let s2 := if pas.isEmpty then s1.walkFound ctx (64 * line) else s1.foundAll ctx pas
    ((s2.dropKept o).preloaded core ctx line).testCore core
/-- Whether a line of code has been asked for and has not come yet. -/
def State.asked (s : State) (core ctx line : Nat) : Bool := s.accs.any fun a => a.keep == .fetch core ctx line
/-- INSTRUCTION_FETCH_FILL (R158, R372): `line` is an address in the line. -/
def execInstructionFetchFill (core ctx : Nat) (line : CodeAddr) (s : State) : Host.Outcome State Fault Refusal :=
  let n := line.toNat / 64
  event "INSTRUCTION_FETCH_FILL" ((s.lacks core ctx n || s.preloads core ctx n) && !s.asked core ctx n && !(s.codePa core ctx n).any s.sweeping)
    (s.fetchLine core ctx (line.toNat / 64))

/-- LOAD_RETURN (R98, R159, R313). -/
def execLoadReturn (id : Nat) (s : State) : Host.Outcome State Fault Refusal :=
  match s.accs.find? fun a => a.id == id && a.done with
  | none => .refused (.notEnabled "LOAD_RETURN")
  | some a =>
    let s1 : State := { s with accs := s.accs.filter fun x => x.id != id }
    .next (match a.load with
      | none => s1
      | some seq => (s1.returnLoad a.gid seq (if a.failed then a.apps.map fun p => (p.1, []) else a.result) a.failed).dropExited a.gid a.load)
/-- A settle point commits what it waits for (R159 to R161). -/
def State.commitAt (s : State) (gid slot : Nat) (w : Words) : State :=
  match s.settle (s.issAt gid slot (insOfWords w)) with
  | (s1, none) => s1.testReady gid slot
  | (s1, some t) => s1.raise gid slot t
/-- SETTLE_COMMIT (R159). -/
def execSettleCommit (gid slot : Nat) (s : State) : Host.Outcome State Fault Refusal :=
  match s.fetchAt gid slot with
  | .words w => event "SETTLE_COMMIT" (s.commits gid slot) (s.commitAt gid slot w)
  | _ => .refused (.notEnabled "SETTLE_COMMIT")

/-- Whether a pending trap can enter the bank of a partition (R193). -/
def State.entryDue (s : State) (core part : Nat) : Bool :=
  let p := s.part core part
  p.owner.isNone && (match p.trapq.find? (fun q => !(s.group q.1).trapBusy && !s.groupClamped q.1) with
    | some q => (s.group q.1).pend.any fun t => t.1 == q.2
    | none => false)
/-- TRAP_ENTRY (R193). -/
def execTrapEntry (core part : Nat) (s : State) : Host.Outcome State Fault Refusal :=
  event "TRAP_ENTRY" (s.entryDue core part) (s.enterPending core part)
/-- A split wakes: its run is ready (R157, R177). -/
def State.wake (s : State) (gid slot : Nat) : State :=
  s.modGroup gid fun g => g.modSlot slot fun x =>
    { x with asleep := false, stallAt := none, nstall := 0, readyAt := some (s.core g.core).readyFrom }
/-- SLEEPT_WAKE (R177). -/
def execSleeptWake (gid slot : Nat) (s : State) : Host.Outcome State Fault Refusal :=
  event "SLEEPT_WAKE" (s.wakes gid slot) (s.wake gid slot)
/-- Whether every bound split of every resident group of a core sleeps (R168). -/
def State.allAsleep (s : State) (core : Nat) : Bool :=
  (s.residents core).all fun gid => (List.range 4).all fun k => !((s.group gid).slot k).valid || ((s.group gid).slot k).asleep
/-- Whether a core stops its clock (R168). -/
def State.mayStop (s : State) (core : Nat) : Bool :=
  (s.core core).running && ((s.residents core).isEmpty || (s.allAsleep core && (s.core core).nothingHeld))
/-- TIME counts while the clock stands still (R168). -/
def State.passTime (s : State) (core n : Nat) : State := s.modCore core fun c => { c with time := (c.time + n) % 2 ^ 64 }
/-- Whether a stopped core has reason to run: a split that does not sleep, or one that wakes. -/
def State.wakeCondition (s : State) (core : Nat) : Bool :=
  (s.residents core).any fun gid => (List.range 4).any fun k =>
    ((s.group gid).slot k).valid && (!((s.group gid).slot k).asleep || s.wakes gid k)
/-- Whether a sleep is over because its time has come (R177). -/
def State.timeUp (s : State) (gid slot : Nat) : Bool :=
  s.wakes gid slot && (match s.fetchAt gid slot with
    | .words w =>
      let i := s.issAt gid slot (insOfWords w)
      i.ins.m12 / 512 == 0 || ((s.sleepOp i).bind (s.group gid).bcOp).isSome
    | _ => false)
/-- Whether the time that a sleep on a core waits for has come (R168, R177). -/
def State.anyTimeUp (s : State) (core : Nat) : Bool := (s.residents core).any fun gid => (List.range 4).any (s.timeUp gid)
/-- Whether a core restarts `n` grains after it stopped: in the grain before, a wake condition has arisen, and the time of none had come
before that (R168). -/
def State.restartsAt (s : State) (core n : Nat) : Bool :=
  decide (0 < n) && (s.passTime core (n - 1)).wakeCondition core && (decide (n = 1) || !(s.passTime core (n - 2)).anyTimeUp core)
/-- CLOCK_RESTART (R168, R169): `n` grains have passed. -/
def execClockRestart (core n : Nat) (s : State) : Host.Outcome State Fault Refusal :=
  let s1 := s.passTime core n
  event "CLOCK_RESTART" (s.on && !(s.core core).running && (s.quad (quadOf core)).gate == .on && s.restartsAt core n)
    ((s1.modCore core fun c => { c with
      running := true, level := s1.levelOf core, began := s.fresh + 1, phase := 0, lastSrc := 0, lastThief := 0 }).testCore core)
/-- LEVEL_RAISE_SETTLED (R169): the limits that hold now bound the raise. -/
def execLevelRaiseSettled (dom : Nat) (s : State) : Host.Outcome State Fault Refusal :=
  let p := s.power
  match p.raising.getD dom none with
  | none => .refused (.notEnabled "LEVEL_RAISE_SETTLED")
  | some g => .next { s with power := { p with domLevel := p.domLevel.set dom (min g (s.granted dom)), raising := p.raising.set dom none } }

/-- The claim at the head of a block's queue is served (R187). -/
def State.serveClaim (s : State) (blk : Nat) (c : Claim) : State :=
  ((s.modBlock blk fun b => { b with pool := b.pool - c.n, claims := b.claims.tail }).modGroup c.gid fun g =>
    ({ g with cap := g.cap + c.n } : Group).modSlot c.slot fun x => { x with claim := .served }).testReady c.gid c.slot
/-- REGCLM_CLAIM_SERVED (R187). -/
def execRegclmClaimServed (blk : Nat) (s : State) : Host.Outcome State Fault Refusal :=
  match (s.block blk).claims with
  | [] => .refused (.notEnabled "REGCLM_CLAIM_SERVED")
  | c :: _ => event "REGCLM_CLAIM_SERVED" (decide (c.n ≤ (s.block blk).pool)) (s.serveClaim blk c)
/-- Whether a slot stands stalled at one of some operations, its condition not holding now: a LDFE or STFE that has been done, or whose
words let it proceed, is stalled no more (R202, R206). -/
def State.stalledIn (s : State) (gid slot : Nat) (ops : List Nat) : Bool :=
  let x := (s.group gid).slot slot
  x.valid && x.mode == .running && x.stallAt.isSome && !x.fedone && (match s.fetchAt gid slot with
    | .words w =>
      let i := s.issAt gid slot (insOfWords w)
      ops.contains i.ins.op && s.stalls i && (!([0x94, 0x95].contains i.ins.op) || s.feBlocked i)
    | _ => false)
/-- Whether every lane a group has not exited is in a split stalled in one of some operations, or waits at a barrier where
that counts. -/
def State.stuckIn (s : State) (gid : Nat) (ops : List Nat) (bar : Bool) : Bool :=
  let g := s.group gid
  g.liveLanes.lanes.all fun l => ((g.lane l).lst == .barrier && bar) ||
    ((g.lane l).lst == .bound && (List.range 4).any fun k => (g.slot k).amask.getLsbD l && s.stalledIn gid k ops)
/-- Whether a group takes part in a deadlock over registers (R188). -/
def State.poolBlocked (s : State) (gid : Nat) : Bool :=
  let g := s.group gid
  g.slots.all (fun x => x.mode == .running) && g.pend.isEmpty && s.stuckIn gid [0xC3, 0x94, 0x95] true
/-- Whether a block is deadlocked over registers: its first claim cannot be served, and every group is blocked (R187, R188). -/
def State.poolDead (s : State) (blk : Nat) : Bool :=
  let b := s.block blk
  b.isLocal && (match b.claims with | c :: _ => decide (b.pool < c.n) | [] => false) && b.groups.all s.poolBlocked
/-- Every split waiting in REGCLM traps (R188), in increasing position and slot (R223). -/
def State.breakPool (s : State) (blk : Nat) : State :=
  let cs := sortBy (fun (c : Claim) => 4 * c.gid + c.slot) (s.block blk).claims
  let s1 := s.modBlock blk fun b => { b with claims := [] }
  cs.foldl (fun s c =>
    let x := (s.group c.gid).slot c.slot
    let raw : Word := match s.fetchAt c.gid c.slot with | .words w => w.first32 | _ => 0
    (s.modGroup c.gid fun g => g.modSlot c.slot fun x => { x with claim := .none, stallAt := none, nstall := 0 }).raise c.gid c.slot
      { cause := .regpoolDeadlock, pc := x.spc, addr := BitVec.ofNat 64 c.n, lanes := x.amask, info := raw, rpl := false }) s1
/-- Whether a group may still fill the block's allocation (R206). -/
def State.filler (s : State) (gid : Nat) : Bool :=
  let g := s.group gid
  !s.groupClamped gid && (g.slots.any (fun x => x.mode != .running) || !s.stuckIn gid [0x94, 0x95] false)
/-- The splits of a block stalled in LDFE or STFE. -/
def State.orphans (s : State) (blk : Nat) : List (Nat × Nat) :=
  (s.block blk).groups.flatMap fun gid => ((List.range 4).filter fun k => s.stalledIn gid k [0x94, 0x95]).map fun k => (gid, k)
/-- Whether a block's stalled splits have nobody left to fill a word for them (R206). -/
def State.orphaned (s : State) (blk : Nat) : Bool :=
  !(s.orphans blk).isEmpty && !(s.block blk).groups.any s.filler
/-- The trap of an orphaned split (R206). -/
def State.orphanTrap (s : State) (gid slot : Nat) : State :=
  match s.fetchAt gid slot with
  | .words w =>
    let i := s.issAt gid slot (insOfWords w)
    let a := ((i.addrs ((s.regs i).saddr i)).map Prod.snd).headD 0
    (s.modGroup gid fun g => g.modSlot slot fun x => { x with stallAt := none, nstall := 0 }).raise gid slot
      { i.trap .emptyOrphan (BitVec.ofNat 64 a) with lanes := i.exec }
  | _ => s
/-- Every split of an orphaned block that is stalled in LDFE or STFE traps (R206), in increasing position and slot (R223). -/
def State.breakOrphans (s : State) (blk : Nat) : State :=
  (sortBy (fun x => 4 * x.1 + x.2) (s.orphans blk)).foldl (fun s x => s.orphanTrap x.1 x.2) s

/-- Whether an exited group may retire: its BC, TL, MX and FZ operations have completed, and no run of it is left (R98). -/
def State.retires (s : State) (gid : Nat) : Bool :=
  let g := s.group gid
  (s.groups.get? gid).isSome && g.liveLanes == 0 && [0, 1, 2, 5].all (fun c => g.counter c == 0)
    && (match (s.part g.core g.part).run with | some r => r.gid != gid | none => true)
/-- Whether a group has memory accesses under way, or dirty bytes in an L1. -/
def State.owes (s : State) (gid : Nat) : Bool :=
  s.accs.any (fun a => a.gid == gid || a.marks.any fun m => m.gid == gid)
    || s.cores.any (fun c => c.2.l1.any fun l => l.2.marks.any fun m => m.gid == gid)
    || s.kept.any fun a => match a.keep with | .lane g _ => g == gid | _ => false
/-- What a group's loads would still bring is discarded (R98): an access not yet performed is performed all the same. -/
def State.dropReturns (s : State) (gid : Nat) : State :=
  let mine (o : Origin) : Bool := match o with | .lane g _ => g == gid | _ => false
  { s with
    accs := (s.accs.filter fun a => !(a.gid == gid && a.done)).map fun a =>
      if a.gid = gid then { a with load := none } else if mine a.keep then { a with keep := .none } else a
    spads := s.spads.map fun m => if m.gid = gid then { m with load := none } else m
    kept := s.kept.filter fun a => !mine a.keep }
/-- What a group leaves behind goes on under another name, so that a later group at its place is not taken for it (R98, R363): its memory
accesses, its dirty bytes, which leave its L1 now with all that the L1 holds (R335), and under its context its CL and PS operations
(R175, R349). An access of its grid waits for those write-backs. -/
def State.leaveGhost (s : State) (gid : Nat) (g : Group) : State :=
  let left := g.ops.filter fun o => (o.cls == 3 || o.cls == 4) && !o.done
  let s0 := (s.dropReturns gid).wbAll (s.l1Of g.core)
  let back := s0.allWbs (s.l1Of g.core)
  if left.isEmpty && !s.owes gid && back.isEmpty then s
  else
    let (n, s1) := s0.newId
    let pc : CodeAddr := (g.lane 0).lpc
    let wait : Access :=
      { id := n, kind := .relWait, gid := ghostBase + n, core := g.core, ctx := g.ctx, lanes := 0, pa := 0, va := 0, w := 0, apps := [], home := false
        sco := 0, sem := 0, last := false, load := none, deps := back, epoch := 0, step := none, grid := g.grid }
    let s2 := ({ s1 with accs := if back.isEmpty then s1.accs else s1.accs ++ [wait] } : State).renameOps gid (ghostBase + n)
    if left.isEmpty then s2
    else s2.modCtx g.ctx fun c => { c with ghosts := c.ghosts ++ [{
      gid := ghostBase + n, word2 := s.recWord2 gid 0, pc := pc, word6 := s.recWord6 gid, grid := g.grid, ops := left }] }
/-- A quad that has become idle begins to count its idle time (R345). -/
def State.markIdle (s : State) (qd : Nat) : State :=
  let x := s.quad qd
  let busy := s.groups.any (fun p => quadOf p.2.core == qd) || !x.table.isEmpty || x.planes.any fun p => p.owner.isSome
  if busy then s.setQuad qd { x with idleAt := none }
  else if x.idleAt.isSome then s else s.setQuad qd { x with idleAt := some (s.core (4 * qd)).time }
/-- A group's resources return (R98, R183, R199, R248). -/
def State.removeGroup (s : State) (gid : Nat) : State :=
  let g := s.group gid
  let b := s.block g.blk
  let rest := b.groups.filter (· != gid)
  let s1 := ((s.orphanArrivals gid).freePlanes gid).modPart g.core g.part fun p =>
    { p with owner := (match p.owner with | some o => if o.1 = gid then none else some o | none => none)
             trapq := p.trapq.filter fun q => q.1 != gid
             run := (match p.run with | some r => if r.gid = gid then none else some r | none => none) }
  let s2 : State := { s1 with groups := s1.groups.erase gid }
  let b1 : Block := { b with
    groups := rest, pool := if b.isLocal then b.pool + g.cap else b.pool, claims := b.claims.filter fun c => c.gid != gid }
  let s3 : State := if rest.isEmpty then { s2 with blocks := s2.blocks.erase g.blk, spads := s2.spads.filter fun m => m.blk != g.blk }
    else s2.setBlock g.blk b1
  let live (x : Grid) : Grid := { x with live := x.live - 1 }
  let s4 : State := { s3 with grids := s3.grids.map fun p => if p.1 = g.grid then (p.1, live p.2) else p }
  (s4.relevel (domOf g.core)).markIdle (quadOf g.core)
/-- A group retires (R98, R175, R183): what its engines have reported is taken, and failures no WAIT reported are recorded in the order the
operations completed. The last PC of the group is that of its lane 0 (log 100, DEDUCED); a Tongs operation's record names the engine that
ran it (R299). -/
def State.retire (s : State) (gid : Nat) : State :=
  let s := s.modGroup gid Group.sampled
  let g := s.group gid
  let pc : CodeAddr := (g.lane 0).lpc
  let s1 := g.ops.foldl (fun s o => match o.fail with
    | some f => if o.done then s.logRecord g.ctx
        (failRec (if o.cls = 0 then s.recWord2 gid 0 ||| BitVec.ofNat 64 o.engine else s.recWord2 gid 0) pc (s.recWord6 gid) o f) else s
    | none => s) s
  ((s1.leaveGhost gid g).removeGroup gid).enterPending g.core g.part
/-- GROUP_RETIRE (R98). -/
def execGroupRetire (gid : Nat) (s : State) : Host.Outcome State Fault Refusal :=
  event "GROUP_RETIRE" (s.retires gid) (s.retire gid)

end Sys2Proof.Machine
end

