-- ==== Sys2Proof/Machine/Cycle.lean ====
section
/-! DEFINITION. What a core whose clock runs does next of itself, how its cycle ends, and what arrives at it from other cores. -/

namespace Sys2Proof.Machine

/-- What a core does next of itself. -/
inductive Move where
  | boundary (part : Nat)
  | wake (gid slot : Nat)
  | commit (gid slot : Nat)
  | timeout (gid j : Nat)
  | rotate (gid slot : Nat) (stall : Bool)
  | select (part : Nat)
  | claim (blk : Nat)
  | deadlock (blk : Nat)
  | orphan (blk : Nat)
  | barrier (blk lvl id unit : Nat)
  | stop
  | entry (part : Nat)
  | run (part : Nat) (w : Words)
  | lost (part gid slot : Nat) (c : Cause) (addr : CodeAddr)
  | tick
deriving DecidableEq, Repr

/-- The events of a core that come about of themselves at the start of a cycle, before anything issues. -/
def State.dueEvent (s : State) (core : Nat) : Option Move :=
  if (s.core core).phase ≠ 0 then none else
  let gs := s.residents core
  let slots := gs.flatMap fun g => (List.range 4).map fun k => (g, k)
  match (List.range 12).find? (s.atBoundary core) with
  | some p => some (.boundary p)
  | none => match (List.range 12).find? (s.entryDue core) with
    | some p => some (.entry p)
    | none => match slots.find? fun x => s.wakes x.1 x.2 with
    | some x => some (.wake x.1 x.2)
    | none => match gs.find? fun g => (s.timedOut g).isSome with
      | some g => some (.timeout g ((s.timedOut g).getD 0))
      | none => match slots.find? fun x => s.rotates x.1 x.2 true with
        | some x => some (.rotate x.1 x.2 true)
        | none => (slots.find? fun x => s.rotates x.1 x.2 false).map fun x => .rotate x.1 x.2 false
/-- What a partition can do now, nothing once its turn in the cycle is over (R164): a settle point first commits what its run waits for
(R159, R160), and one whose run was cut before an instruction may choose another. -/
def State.partMove (s : State) (core part : Nat) : Option Move :=
  if part + 1 < (s.core core).phase then none else
  match (s.part core part).run with
  | none => (s.selection core part).map fun _ => .select part
  | some r =>
    if r.ended then if s.atBoundary core part then some (.boundary part) else none
    else match s.fetchAt r.gid r.slot with
      | .absent => none
      | .lost c a => some (.lost part r.gid r.slot c a)
      | .words w => if s.slotFor r (s.issAt r.gid r.slot (insOfWords w)) then
          some (if s.commits r.gid r.slot then .commit r.gid r.slot else .run part w) else none
/-- What the end of a cycle tests on a core: claims first, then deadlocks and orphans of the blocks that have groups on it,
the barriers of those blocks, and whether the clock stops (R168, R187, R188, R206, R216). -/
def State.endEvent (s : State) (core : Nat) : Option Move :=
  let bs := ((s.residents core).map fun g => (s.group g).blk).dedup
  let bars := bs.flatMap fun b => ((s.residents core).filter fun g => (s.group g).blk == b).flatMap fun g =>
    (s.group g).lanes.filterMap fun l => match l.bar with | some w => if w.lvl < 4 then some (b, w.lvl, w.id) else none | none => none
  let unit (lvl : Nat) : Nat := match lvl with | 1 => core | 2 => quadOf core | _ => dieOf core
  match bs.find? fun b => match (s.block b).claims with | c :: _ => decide (c.n ≤ (s.block b).pool) | [] => false with
  | some b => some (.claim b)
  | none => match bs.find? s.poolDead with
    | some b => some (.deadlock b)
    | none => match bs.find? s.orphaned with
      | some b => some (.orphan b)
      | none => match bars.dedup.find? fun x => s.barDone x.1 x.2.1 x.2.2 (unit x.2.1) with
        | some x => some (.barrier x.1 x.2.1 x.2.2 (unit x.2.1))
        | none => if s.mayStop core then some .stop else none
/-- The next move of a core whose clock runs: what is due, then issues in increasing partition index, then what the end of
the cycle finds, then the next cycle (R84, R153, R164, R167). -/
def State.nextMove (s : State) (core : Nat) : Move :=
  match s.dueEvent core with
  | some m => m
  | none => match (List.range 12).findSome? (s.partMove core) with
    | some m => m
    | none => (s.endEvent core).getD .tick

/-- Whether nothing is left that a core does of itself in this cycle before its end. -/
def State.issuesDone (s : State) (core : Nat) : Bool :=
  (s.dueEvent core).isNone && ((List.range 12).findSome? (s.partMove core)).isNone
/-- Whether a core is at the end of a cycle, or its clock stands. -/
def State.atEnd (s : State) (core : Nat) : Bool := !(s.core core).running || s.issuesDone core
/-- Whether some core on which a block has groups is at the end of a cycle (R188, R206). -/
def State.blockAtEnd (s : State) (blk : Nat) : Bool := (s.block blk).groups.any fun g => s.atEnd (s.group g).core
/-- The issues of a core's cycle are over: what is done now comes after them (R202). -/
def State.shutCore (s : State) (core : Nat) : State := s.modCore core fun c => { c with phase := if c.running then 13 else 0 }
/-- REGPOOL_DEADLOCK (R188). -/
def execRegpoolDeadlock (blk : Nat) (s : State) : Host.Outcome State Fault Refusal :=
  event "REGPOOL_DEADLOCK" (s.poolDead blk && s.blockAtEnd blk) (s.breakPool blk)
/-- EMPTY_ORPHAN (R206). -/
def execEmptyOrphan (blk : Nat) (s : State) : Host.Outcome State Fault Refusal :=
  event "EMPTY_ORPHAN" (s.orphaned blk && s.blockAtEnd blk) (s.breakOrphans blk)
/-- BARRIER_COMPLETE (R216, R403): `owner` is a block, a context or a job by level. A barrier of levels 1 to 3 completes at the end of a
cycle of a participant's core. -/
def execBarrierComplete (owner lvl id unit : Nat) (s : State) : Host.Outcome State Fault Refusal :=
  if 4 ≤ lvl then event "BARRIER_COMPLETE" (s.barFull lvl owner id) (s.barFinish lvl owner id)
  else event "BARRIER_COMPLETE"
    (decide (1 ≤ lvl) && s.barDone owner lvl id unit && (s.participants owner lvl unit).any fun gid => s.atEnd (s.group gid).core)
    ((s.participants owner lvl unit).foldl (fun s gid => s.releaseGroup gid lvl ((s.group gid).waiting lvl id)) s)

/-- The slots of a block stalled at a LDFE or STFE whose words now let it proceed (R145, R202). -/
def State.feDue (s : State) (blk core : Nat) : List (Nat × Nat) :=
  (s.block blk).groups.flatMap fun gid => ((List.range 4).filter fun k =>
    let x := (s.group gid).slot k
    x.stallAt.isSome && !x.fedone && s.mayRun gid k && (match s.fetchAt gid k with
      | .words w =>
        let i := s.issAt gid k (insOfWords w)
        [0x94, 0x95].contains i.ins.op && !s.unsettled i && !s.feBlocked i
          && (i.addrs ((s.regs i).saddr i)).any fun a => (s.block blk).coreOf a.2 == core
      | _ => false)).map fun k => (gid, k)
/-- Whether one stalled slot goes before another: the one stalled longer, then by core rank, partition, group and slot (R145). -/
def State.feBefore (s : State) (blk : Nat) (a b : Nat × Nat) : Bool :=
  let key (x : Nat × Nat) : List Nat :=
    let g := s.group x.1
    [(g.slot x.2).stallNo, (s.block blk).cores.findIdx (· == g.core), g.part, g.index, x.2]
  decide (key a < key b)
/-- The step of a stalled LDFE or STFE whose condition holds; its run has then only to issue, and its load counts from there (R145, R159,
R202). -/
def State.fePerform (s : State) (gid slot : Nat) : State :=
  let early (l : PLoad) : PLoad := if s.nextId ≤ l.seq then { l with early := true } else l
  let mark (s : State) : State := s.modGroup gid fun g =>
    ({ g with loads := g.loads.map early } : Group).modSlot slot fun x => { x with fedone := true }
  match s.fetchAt gid slot with
  | .words w =>
    let i := s.issAt gid slot (insOfWords w)
    if !s.mayRun gid slot || s.unsettled i || (i.ins.check (s.bounds i)).isSome || (s.badSource i).isSome then s
    else match (if i.ins.op = 0x94 then ldfeAt true i s else stfeAt true i s) with
      | .done s1 => mark s1
      | _ => s
  | _ => s
/-- What of the stalled operations of a block an access to a core's bank has let proceed is done, the longest stalled first; the
others are tested again after it (R145, R202). One that something else holds up stays (`tried`). -/
def State.feSettle (blk core : Nat) : Nat → List (Nat × Nat) → State → State
  | 0, _, s => s
  | n + 1, tried, s =>
    match ((s.feDue blk core).filter fun x => !tried.contains x).foldl (fun (acc : Option (Nat × Nat)) x => match acc with
      | none => some x | some b => if s.feBefore blk x b then some x else some b) none with
    | none => s
    | some x => State.feSettle blk core n (x :: tried) (s.fePerform x.1 x.2)
/-- The last step of a cycle at a core's banks (R202). -/
def State.feCycle (s : State) (core : Nat) : State :=
  (s.blocks.filter fun b => b.2.cores.contains core).foldl (fun s b => State.feSettle b.1 core (4 * b.2.groups.length) [] s) s
/-- The end of a cycle and the start of the next (R167, R202). -/
def State.cycleEnd (s : State) (core : Nat) : State := (s.feCycle core).tick core
/-- CLOCK_STOP (R168): the cycle ends, and no other follows it. -/
def execClockStop (core : Nat) (s : State) : Host.Outcome State Fault Refusal :=
  event "CLOCK_STOP" (s.mayStop core)
    (((s.feCycle core).modCore core fun c => { c with running := false, held := [], taken := [], phase := 0 }).sample core)

/-- Whether an access of another core can be performed at a core now: its own accesses of the cycle come first, and those that arrive
in one cycle come in increasing CORE index (R202, R220). A core whose clock stands performs it at once. -/
def State.mayArrive (s : State) (core src last : Nat) : Bool :=
  !(s.core core).running || (s.issuesDone core && decide (last ≤ src))
/-- An access of a core's has come to another's banks: the issues of that cycle are over, and no access of a lower core follows in it
(R202). -/
def State.arrived (s : State) (tgt src : Nat) : State := (s.shutCore tgt).modCore tgt fun c => { c with lastSrc := src }
/-- A LDFE or STFE comes to another core's bank: it is done if its words let it proceed, and else stands stalled there (R145, R202). One
whose split no longer waits for it is none. -/
def State.feArrive (s : State) (m : SpadMsg) : State :=
  let tgt := s.core (s.spadTarget m)
  if ((s.group m.gid).slot m.aop).fesent ≠ some m.id then s
  else
    let cyc := (s.core (s.group m.gid).core).cyc
    (s.modGroup m.gid fun g => g.modSlot m.aop fun x => { x with
      fesent := none, fearr := true, stallAt := some cyc, nstall := 0, stallNo := if tgt.running then tgt.began else s.fresh }).fePerform m.gid m.aop
/-- REMOTE_SCRATCHPAD_ACCESS (R202, R204): what precedes it has been performed, and messages of one core to another keep
their order. -/
def execRemoteScratchpadAccess (id : Nat) (s : State) : Host.Outcome State Fault Refusal :=
  match s.spads.find? fun m => m.id == id with
  | none => .refused (.notEnabled "REMOTE_SCRATCHPAD_ACCESS")
  | some m =>
    let tgt := s.spadTarget m
    let ahead := (s.spads.takeWhile fun x => x.id != id).any (s.onWay m.src tgt)
    let own := tgt == m.src
    let s0 := (({ s with spads := s.spads.filter fun x => x.id != id } : State).spadPerform m m.src).dropExited m.gid m.load
    let s1 := if m.kind = 4 then s0.feArrive m else s0
    let s2 := if own then s1 else s1.arrived tgt m.src
    event "REMOTE_SCRATCHPAD_ACCESS" (!m.deps.any s.pendingId && !ahead && (own || s.mayArrive tgt m.src (s.core tgt).lastSrc))
      (if (s.core tgt).running then s2 else s2.feCycle tgt)
/-- DQSTEAL_ARRIVAL (R219, R220): steals of one core at another keep their order. -/
def execDqstealArrival (id : Nat) (s : State) : Host.Outcome State Fault Refusal :=
  match s.steals.find? fun m => m.id == id with
  | none => .refused (.notEnabled "DQSTEAL_ARRIVAL")
  | some m =>
    let (e, s1) := ({ s with steals := s.steals.filter fun x => x.id != id } : State).stealAt m.tgt m.ctx
    let s2 := (s1.shutCore m.tgt).modCore m.tgt fun c => { c with lastThief := m.src }
    let ahead := (s.steals.takeWhile fun x => x.id != id).any fun x => x.src == m.src && x.tgt == m.tgt
    event "DQSTEAL_ARRIVAL" (s.mayArrive m.tgt m.src (s.core m.tgt).lastThief && !ahead) (s2.stealDone m.gid m.src m.load m.d m.c e)

/-- The cores at whose banks the next TL operation of a group acts (R211, R213). -/
def State.tlCores (s : State) (gid : Nat) : List Nat :=
  match (s.group gid).tl with
  | [] => []
  | op :: _ =>
    let b := s.block (s.group gid).blk
    if 2 ≤ op.kind then []
    else ((rowAddrs op.base op.pitch op.rows ++ if slotScale op.fmt = 2 then [op.plane] else []).map b.coreOf).dedup
/-- Whether a TL operation of a core can act at a core's banks now: after the accesses that the core's own partitions have issued in the
cycle, and at another's behind the accesses of its own core that are on their way there (R202, R204; log 113, DEDUCED). -/
def State.tlMay (s : State) (src tgt : Nat) : Bool :=
  if tgt = src then s.atEnd src else s.mayArrive tgt src (s.core tgt).lastSrc && !s.spads.any (s.onWay src tgt)
/-- TL_OPERATION (R213). -/
def execTlOperation (gid : Nat) (s : State) : Host.Outcome State Fault Refusal :=
  let src := (s.group gid).core
  let cs := s.tlCores gid
  event "TL_OPERATION" (s.tlReady gid && cs.all (s.tlMay src))
    (cs.foldl (fun s c => if c = src then s.shutCore c else s.arrived c src) (s.runTl gid))

/-- Whether a move belongs to the end of a cycle: nothing issues after it in that cycle. -/
def Move.ends : Move → Bool
  | .claim _ => true
  | .deadlock _ => true
  | .orphan _ => true
  | .barrier _ _ _ _ => true
  | _ => false
/-- The partition whose turn a move takes (R164). -/
def State.moves (s : State) : Move → Option Nat
  | .select p => some p
  | .run p _ => some p
  | .lost p _ _ _ _ => some p
  | .commit g _ => some (s.group g).part
  | _ => none
/-- The state in which a core makes a move: in a partition's turn, or with the issues of the cycle over. -/
def State.readied (s : State) (core : Nat) (m : Move) : State :=
  match s.moves m with
  | some p => s.atTurn core p
  | none => if m.ends then s.shutCore core else s
/-- Whether cores compete for what an operation takes: an entry of a launch queue, of a queue of the Tongs of a die, or a place or a plane of
the Anvil of a quad (R164, R341). -/
def competes (op a b : Nat) : Bool :=
  op == 0xC9 || ((op == 0xE0 || op == 0xE1) && dieOf a == dieOf b) || (decide (0xD6 ≤ op) && decide (op ≤ 0xDD) && quadOf a == quadOf b)
/-- The lowest core that goes before a move of a core: it competes for what the instruction takes, and its cycle has issues left (R164). -/
def State.rival (s : State) (core : Nat) : Move → Option Nat
  | .run _ w => (List.range core).find? fun a => competes (insOfWords w).op a core && !s.atEnd a
  | _ => none
/-- The row a move is; an issue, a lost fetch and the next cycle are none. -/
noncomputable def Move.row (core : Nat) : Move → Option Instr
  | .boundary p => some (.runBoundary core p)
  | .wake g k => some (.sleeptWake g k)
  | .commit g k => some (.settleCommit g k)
  | .timeout g j => some (.joinTimeout g j)
  | .rotate g k stall => some (if stall then .stallRotation g k else .runRotation g k)
  | .select p => some (.runSelect core p)
  | .claim b => some (.regclmClaimServed b)
  | .deadlock b => some (.regpoolDeadlock b)
  | .orphan b => some (.emptyOrphan b)
  | .barrier b l i u => some (.barrierComplete b l i u)
  | .stop => some (.clockStop core)
  | .entry p => some (.trapEntry core p)
  | .run _ _ => none
  | .lost _ _ _ _ _ => none
  | .tick => none

end Sys2Proof.Machine
end

