-- ==== Sys2Proof/Machine/AnvilEvents.lean ====
section
/-! DEFINITION. The events of a quad's reservation table, array and accumulator port (R237 to R245, R249 to R260). -/

namespace Sys2Proof.Machine

/-- FUSION_HOLD_END (R241). -/
def execFusionHoldEnd (quad req : Nat) (s : State) : Host.Outcome State Fault Refusal :=
  event "FUSION_HOLD_END" ((s.quad quad).table.any fun e => e.id == req && e.held)
    (s.modReq quad req fun e => { e with held := false })
/-- PRIORITY_AGING (R242). -/
def execPriorityAging (quad req : Nat) (s : State) : Host.Outcome State Fault Refusal :=
  event "PRIORITY_AGING" ((s.quad quad).table.any fun e => e.id == req && e.since.isSome && !e.aged && s.eligible e)
    (s.modReq quad req fun e => { e with aged := true })
/-- The array runs a pass (R234, R235, R252): its result stands in the request until it reaches the slot; counters are in
the plane at once. -/
def State.runArray (s : State) (quad : Nat) (e : Req) : State :=
  let g := s.group e.gid
  if e.op = 0xD8 then
    let (p1, a, fl, fail) := g.runCount (s.plane quad e.d) e
    (s.modPlane quad e.d fun _ => p1).modReq quad e.id fun x => { x with granted := true, data := a, flags := fl, failed := fail }
  else
    let (a, fl, fail) := g.runPass e
    s.modReq quad e.id fun x => { x with granted := true, data := a, flags := fl, failed := fail }
/-- ANVIL_PASS (R242). -/
def execAnvilPass (quad : Nat) (s : State) : Host.Outcome State Fault Refusal :=
  match s.granting quad true with
  | none => .refused (.notEnabled "ANVIL_PASS")
  | some e => .next (s.runArray quad e)
/-- Whether the work of a request's operations has still to be reported. -/
def State.working (s : State) (e : Req) : Bool := (s.group e.gid).ops.any fun o => o.cls == 2 && e.n.contains o.n && !o.done && !o.work
/-- A pass's results reach its slot, and its work ends (R234, R244, R245). -/
def State.passDone (s : State) (e : Req) : State :=
  let blk := slotScale e.sa == 2
  if e.op = 0xD8 ∧ blk = false then s.endReq e e.failed e.flags
  else
    let slot := if e.op = 0xD8 then e.c else e.d
    let reads := e.op == 0xD8 || e.opx == 0
    (s.modGroup e.gid fun g => ({ g with accs := g.accs.set slot e.data } : Group).wroteAcc slot e.elements e.failed.isSome reads).endReq
      e e.failed e.flags
/-- PASS_RESULT (R244). -/
def execPassResult (quad req : Nat) (s : State) : Host.Outcome State Fault Refusal :=
  match (s.quad quad).table.find? fun e => e.id == req && e.inArray && e.granted && s.working e with
  | none => .refused (.notEnabled "PASS_RESULT")
  | some e => .next (s.passDone e)
/-- A request leaves the table. -/
def State.dropReq (s : State) (quad id : Nat) : State :=
  s.modQuad quad fun x => { x with table := x.table.filter fun e => e.id != id }
/-- The accumulator port performs an operation (R236 to R238, R254, R255). -/
def State.runPort (s : State) (quad : Nat) (e : Req) : State :=
  let s1 := s.modReq quad e.id fun x => { x with granted := true }
  match e.op with
  | 0xDB => s1.runMdrn e
  | 0xDC => s1.sendMdrna e
  | 0xDD => s1.runMacz e
  | 0xD9 => s1.runMqch e
  | 0xDA => s1.runMmrg e
  | _ => (s1.runArrival e).dropReq quad e.id
/-- ACCUMULATOR_PORT_GRANT (R242). -/
def execAccumulatorPortGrant (quad : Nat) (s : State) : Host.Outcome State Fault Refusal :=
  match s.granting quad false with
  | none => .refused (.notEnabled "ACCUMULATOR_PORT_GRANT")
  | some e => .next (s.runPort quad e)
/-- MDRNA_ARRIVAL (R237, R239). -/
def execMdrnaArrival (id : Nat) (s : State) : Host.Outcome State Fault Refusal :=
  match (s.drains.find? fun e => e.id == id).bind s.acceptMdrna with
  | none => .refused (.notEnabled "MDRNA_ARRIVAL")
  | some s1 => .next s1
/-- PEER_MERGE_TRANSFER (R257). -/
def execPeerMergeTransfer (quad req : Nat) (s : State) : Host.Outcome State Fault Refusal :=
  match (s.quad quad).table.find? fun e => e.id == req && e.op == 0x101 && s.eligible e with
  | none => .refused (.notEnabled "PEER_MERGE_TRANSFER")
  | some e => .next (s.transfer quad e)
/-- What completes with the oldest MX operation of a group: what it fused with, and with that every older operation of the group (R241,
R243; log 28, DEDUCED). -/
def Group.mxBatch (g : Group) (o : EngOp) : List EngOp :=
  let last (b : Nat) (x : EngOp) : Nat := (x.n :: x.mate).foldl max b
  let open_ := g.ops.filter fun x => x.cls == 2 && !x.done && !x.due
  let reach := (List.range open_.length).foldl (fun b _ => (open_.filter fun x => decide (x.n ≤ b)).foldl last b) (last 0 o)
  open_.filter fun x => decide (x.n ≤ reach)
/-- The oldest MX operation that the Anvil has not reported. -/
def Group.nextMx (g : Group) : Option EngOp := ({ g with ops := g.ops.filter fun o => !o.due } : Group).oldest 2
/-- MX operations of a group are reported in issue order, and the core takes the report at its next cycle boundary (R172, R243); finished
requests leave the table (R241). -/
def State.reportMx (s : State) (gid : Nat) (os : List EngOp) : State :=
  let told (o : EngOp) : EngOp := if o.cls = 2 ∧ os.any (·.n == o.n) = true then { o with due := true } else o
  let s0 := s.modGroup gid fun g => { g with ops := g.ops.map told }
  let s1 := if (s.core (s.group gid).core).running then s0 else s0.modGroup gid Group.sampled
  let left := (s1.group gid).ops.filter fun o => o.cls == 2 && !o.done && !o.due
  let keep (e : Req) : Bool := e.gid != gid || decide (e.op ≥ 0x100) || e.n.any fun n => left.any fun o => o.n == n
  let qd := quadOf (s.group gid).core
  (s1.modQuad qd fun x => { x with table := x.table.filter keep }).markIdle qd
/-- MX_COMPLETE (R43, R243). -/
def execMxComplete (gid : Nat) (s : State) : Host.Outcome State Fault Refusal :=
  match (s.group gid).nextMx with
  | some o =>
    let os := (s.group gid).mxBatch o
    event "MX_COMPLETE" (os.all fun x => x.work) (s.reportMx gid os)
  | none => .refused (.notEnabled "MX_COMPLETE")

end Sys2Proof.Machine
end

