-- ==== Sys2Proof/Machine/MemEvents.lean ====
section
/-! DEFINITION. The events of translation, caches and home: walks, accesses, evictions, ordered reductions, fault records and
their answers, soft errors and scrubs (R265 to R302, R312 to R316, R324 to R326, R357). -/

namespace Sys2Proof.Machine

/-- A translation enters a TLB of a size; the oldest leaves (R294). -/
def tlbPut (n : Nat) (t : List TlbEnt) (e : TlbEnt) : List TlbEnt := (e :: t).take n
/-- Whether no TLB that serves a core holds a translation (R294). -/
def State.tlbMiss (s : State) (core ctx va : Nat) : Bool :=
  ((s.core core).utlb ++ (s.quad (quadOf core)).qtlb ++ (s.die (dieOf core)).dtlb).all fun e => !e.hits (s.ctx ctx).asid va
/-- Whether a translation gives some access a physical address: its address is below 2^56, and the leaf permits something (R290, R293). -/
def TlbEnt.serves (e : TlbEnt) (va : Nat) : Bool := decide (va < 2 ^ 56) && (e.rd || e.w || e.x)
/-- A walk completes: TLBs hold only translations whose outcome is an address (R294). -/
def State.fillTlbs (s : State) (core ctx va : Nat) : State :=
  match s.walk ctx va with
  | .error _ => s
  | .ok e => if e.serves va = false then s else (((s.modCore core fun c => { c with utlb := tlbPut 48 c.utlb e }).modQuad (quadOf core) fun q =>
      { q with qtlb := tlbPut 1024 q.qtlb e }).modDie (dieOf core) fun d => { d with dtlb := tlbPut 16384 d.dtlb e })
/-- PAGE_WALK (R294). -/
def execPageWalk (core ctx : Nat) (va : Dword) (s : State) : Host.Outcome State Fault Refusal :=
  event "PAGE_WALK" (s.on && decide (core < 512) && (s.ctx ctx).valid && s.tlbMiss core ctx va.toNat) (s.fillTlbs core ctx va.toNat)
/-- Whether an access has come to its home and only a full WBQ, persist order, a protected version or a sweep keeps it from
being performed (R357, R363, R368, R372). -/
def State.heldAtHome (s : State) (a : Access) : Bool :=
  let l1 := s.l1Of a.core
  pkgOf a.pa == s.pkg && !a.done && !a.sent && !a.deps.any s.pendingId && !s.lineBad a.pa && (s.performNow a).isNone &&
    (match a.kind with
     | .wb => true
     | .write => a.home && (s.wbs l1 (lineOf a.pa)).isEmpty
     | .atom _ _ => (s.l1Line l1 (lineOf a.pa)).dirty == 0 && (s.wbs l1 (lineOf a.pa)).isEmpty
     | .red _ _ => (s.l1Line l1 (lineOf a.pa)).dirty == 0 && (s.wbs l1 (lineOf a.pa)).isEmpty
     | _ => false)
/-- An access that waits at its home slice. -/
def State.waitAtHome (s : State) (id : Nat) : State :=
  { s with accs := s.accs.map fun x => if x.id = id then { x with waiting := true } else x }
/-- HOME_ACCESS (R141, R147, R266, R268, R270): an access is performed, once what precedes it has been; a write that its
home cannot take waits there (R357). -/
def execHomeAccess (id : Nat) (s : State) : Host.Outcome State Fault Refusal :=
  match s.accs.find? fun a => a.id == id && !a.waiting with
  | none => .refused (.notEnabled "HOME_ACCESS")
  | some a => match s.performNow a with
    | some s1 => .next s1
    | none => event "HOME_ACCESS" (s.heldAtHome a) (s.waitAtHome id)
/-- L1_EVICTION (R267): dirty bytes leave for home and the line goes. -/
def execL1Eviction (core line : Nat) (s : State) : Host.Outcome State Fault Refusal :=
  event "L1_EVICTION" ((s.core core).l1.get? line).isSome ((s.wbLine core line).setL1 core line {})
/-- NEAR_BUFFER_EVICTION (R326). -/
def execNearBufferEviction (die line : Nat) (s : State) : Host.Outcome State Fault Refusal :=
  event "NEAR_BUFFER_EVICTION" ((s.die die).near.get? line).isSome (s.modDie die fun d => { d with near := d.near.erase line })

/-- How a contribution is answered (R286): accepted, refused by its slot, or taken by no home, with the cause (R390, R405). -/
inductive RedoReply where
  | taken | refused | lost (c : Cause)
deriving DecidableEq, Repr
/-- The code by which another package answers a contribution (R393; log 16, DESIGN CHOICE). -/
def RedoReply.code : RedoReply → Nat
  | .taken => 0 | .refused => Cause.illegalOperand.code | .lost c => c.code
/-- The answer a code means. -/
def RedoReply.ofCode (c : Nat) : RedoReply :=
  if c = 0 then .taken else if c = Cause.illegalOperand.code then .refused else .lost ((Cause.ofCode c).getD .dataError)
/-- The answer to a contribution reaches its lane (R286). -/
def State.redoAnswer (s : State) (m : RedoMsg) (r : RedoReply) : State :=
  let s1 : State := { s with redos := s.redos.filter fun x => x.id != m.id }
  let note (x : Slot) : Slot := match r with
    | .taken => { x with taken := true }
    | .refused => { x with refused := x.refused ++ [(m.lane, m.va.toNat)] }
    | .lost c => { x with lost := x.lost ++ [(m.lane, m.va.toNat, c)] }
  (s1.modGroup m.gid fun g => g.modSlot m.slot fun x => note { x with redo := x.redo.filter (· != m.id) }).redoAnswered m.gid m.slot
/-- The combined value of a complete set, in index order (R286). -/
def RedoSlot.total (r : RedoSlot) : Nat :=
  (List.range (r.n - 1)).foldl (fun v k => atomOp r.aop r.aty v (r.vals.getD (k + 1) 0)) (r.vals.getD 0 0)
/-- A complete set is applied at home: discarded and logged where its page is frozen (R287, R324, R325) or its line has an
error (R314); none while a write there must wait. -/
def State.redoApply (s : State) (r : RedoSlot) : Option State :=
  let rec_ (kind src acc : Nat) : FRec :=
    { words := [recWord0 kind src acc, BitVec.ofNat 64 r.addr, s.recWord2Ctx r.ctx 0, 0, 0, 0, 0, 0], origin := .none }
  let st := match s.stepped r.addr with | some (c, _) => s.stepOf ((homeDie r.addr).getD 0) c + 1 | none => 0
  let w := atyBytes r.aty
  let pas := s.readPas r.addr st ++ s.writePas r.addr w st
  if s.pageState (pageOf r.addr) ≠ 0 then some (s.logRecord r.ctx (rec_ 2 4 1))
  else if s.sweeping r.addr then none
  else if s.anyBad pas then some ((s.foundAll r.ctx pas).logRecord r.ctx (rec_ 4 4 2))
  else if !s.wbqRoom r.addr then none
  else
    let new := atomOp r.aop r.aty (ofBytes (s.homeRead r.addr w st)) r.total
    (s.writeCells r.addr st (bytesOf w new)).map s.homeCells
/-- A contribution reaches its slot (R286): how it is answered, and the state; none while the application must wait. -/
def State.redoTake (s : State) (ctx pa aop aty n idx val sco rslot : Nat) : Option (RedoReply × State) :=
  if s.coded pa then some (.lost .pageProtection, s) else
  match homeDie pa with
  | none => some (.lost .dataError, s)
  | some d =>
    let fresh : RedoSlot := { ctx := ctx, addr := pa, aop := aop, aty := aty, n := n, vals := [], sco := 0 }
    let r := (s.die d).redo.getD rslot fresh
    if r.ctx ≠ ctx ∨ r.addr ≠ pa ∨ r.aop ≠ aop ∨ r.aty ≠ aty ∨ r.n ≠ n ∨ (r.vals.get? idx).isSome = true then some (.refused, s)
    else
      let r1 : RedoSlot := { r with vals := r.vals.set idx val, sco := max r.sco sco }
      if r1.vals.length < n then some (.taken, s.modDie d fun x => { x with redo := x.redo.set rslot r1 })
      else (s.redoApply r1).map fun s1 => (.taken, s1.modDie d fun x => { x with redo := x.redo.erase rslot })
/-- A contribution on its way: the issuing L1's dirty bytes of its line go home first (R141), then the slot takes it. -/
def State.redoArrive (s : State) (m : RedoMsg) : Option State :=
  let l1 := s.l1Of m.core
  if m.sent || m.deps.any s.pendingId then none
  else if (s.l1Line l1 (lineOf m.pa)).dirty ≠ 0 then some (s.wbLine l1 (lineOf m.pa))
  else if !(s.wbs l1 (lineOf m.pa)).isEmpty then none
  else
    let s0 := s.dropLine l1 m.pa
    if pkgOf m.pa ≠ s.pkg then
      if s.reachable (pkgOf m.pa) then
        let sent : State := { s0 with redos := s0.redos.map fun x => if x.id = m.id then { x with sent := true } else x }
        let body := bytesOf 8 m.val ++ bytesOf 4 m.rslot ++ bytesOf 4 m.n ++ bytesOf 4 m.idx
        some (sent.sendFlit (s.flitTo m.ctx (dieOf m.core) m.pa 7 0 m.id (BitVec.ofNat 32 m.m12) body))
      else some (s0.redoAnswer m (.lost .dataError))
    else (s0.redoTake m.ctx m.pa m.aop m.aty m.n m.idx m.val m.sco m.rslot).map fun r => r.2.redoAnswer m r.1
/-- REDO_ARRIVAL (R286). -/
def execRedoArrival (id : Nat) (s : State) : Host.Outcome State Fault Refusal :=
  match (s.redos.find? fun m => m.id == id).bind s.redoArrive with
  | none => .refused (.notEnabled "REDO_ARRIVAL")
  | some s1 => .next s1

/-- FAULT_RECORD_WRITE (R298, R300). -/
def execFaultRecordWrite (ctx : Nat) (s : State) : Host.Outcome State Fault Refusal :=
  match (s.ctx ctx).waiting with
  | [] => .refused (.notEnabled "FAULT_RECORD_WRITE")
  | r :: rest => event "FAULT_RECORD_WRITE" (!(s.ctx ctx).frqFull)
      ((s.modCtx ctx fun c => { c with waiting := rest }).putRecord ctx r)
/-- Whether a RESULT is one that FRESP accepts (R301). -/
def frespOk (r : Nat) : Bool := [0x00, 0x05, 0x06, 0x10, 0x11].contains r
/-- A failure that a firmware answer delivers to an engine (R309, R375, R399). -/
def answerFail (r side : Nat) (addr : Dword) : Fail := { reason := r, side := side, addr := addr }
/-- An engine operation in a die's Tongs queues fails or ends: it leaves its queue (R174, R309). -/
def State.endTongs (s : State) (die key id : Nat) (fail : Option Fail) : State :=
  match ((s.die die).tongs.getD key {}).ops.find? fun o => o.id == id with
  | none => s
  | some o =>
    ((s.dropKept (.tongs die (key / 64) (key % 64) id)).modDie die fun d => let q := d.tongs.getD key {}
      { d with tongs := d.tongs.set key { q with ops := q.ops.filter fun x => x.id != id } }).endOp o.gid 0 o.n fail
/-- The side of a paused Tongs operation that an address lies on: its source, unless it fills (R309, R311). -/
def TongsOp.sideOf (o : TongsOp) (a : Nat) : Nat :=
  let (r, j) := o.place
  let x := o.chunk r j
  let src := sideAddr o.ssp (o.srcRow r + x.1)
  if !o.fill && !o.ssp && decide (src ≤ a) && decide (a < src + x.2) then 0 else 1
/-- An answer takes effect at the engine that awaits it (R301, R309, R375, R399); one other than retry ends a paused operation of a clamped
Tongs queue too (log 134, DESIGN CHOICE). -/
def State.deliver (s : State) (w : Await) (r : Nat) : State :=
  match w.origin with
  | .tongs die engine ctx id =>
    let key := tongsKey engine ctx
    match ((s.die die).tongs.getD key {}).ops.find? fun o => o.paused && o.id == id with
    | none => s
    | some o =>
      if r = 0 then s.modDie die fun d => let q := d.tongs.getD key {}
        { d with tongs := d.tongs.set key { q with ops := q.ops.map fun x => if x.id = o.id then { x with paused := false } else x } }
      else s.endTongs die key o.id (some (answerFail r (o.sideOf w.addr.toNat) w.addr))
  | .snap die id =>
    match (s.die die).snaps.find? fun n => n.paused && n.id == id with
    | none => s
    | some n =>
      if r = 0 then s.modDie die fun d => { d with snaps := d.snaps.map fun x => if x.id = n.id then { x with paused := false } else x }
      else (s.modDie die fun d => { d with snaps := d.snaps.filter fun x => x.id != n.id }).finishOp n.ctx n.gid 4 n.n
        (some (answerFail r 1 w.addr))
  | .coll job key seq mbr =>
    match s.colls.find? fun c => c.job == job && c.key == key && c.seq == seq with
    | none => s
    | some c =>
      if r = 0 then
        let up (m : Member) : Member := if m.idx = mbr then { m with paused := false } else m
        let go (x : Coll) : Coll := if x.job = job ∧ x.key = key ∧ x.seq = seq then { x with members := x.members.map up } else x
        { s with colls := s.colls.map go }
      else
        let side := if c.members.any fun m => m.idx == mbr && decide (m.dst ≤ w.addr.toNat) && m.data.isSome then 1 else 0
        s.failColl c mbr (answerFail r side w.addr)
  | _ => s
/-- FRESP as a number: SEQ, RESULT and CTX (R301). -/
def frespFields (v : Dword) : Nat × Nat × Nat := (bitsOf v.toNat 63 32, bitsOf v.toNat 31 24, v.toNat % 64)
/-- An answer is entered (R301): a lane's waits until all are there, an engine's takes effect. -/
def State.answer (s : State) (v : Dword) : State :=
  let (seq, r, ctx) := frespFields v
  match (s.ctx ctx).awaits.find? fun w => w.seq == seq && w.answer.isNone with
  | none => s
  | some w =>
    if !frespOk r then s
    else match w.origin with
      | .lane _ _ => s.modCtx ctx fun c => { c with awaits := c.awaits.map fun x => if x.seq = seq ∧ x.answer = none then { x with answer := some r } else x }
      | _ => (s.modCtx ctx fun c => { c with awaits := c.awaits.filter fun x => !(x.seq == seq && x.answer.isNone) }).deliver w r
/-- FRESP (R301): a write that names no awaiting record changes nothing. -/
def execFresp (die : Nat) (v : Dword) (s : State) : Host.Outcome State Fault Refusal :=
  event "FRESP" (s.on && decide (die < 4)) (s.answer v)
/-- The awaited answers of a slot. -/
def Ctx.awaitsOf (c : Ctx) (gid slot : Nat) : List Await := c.awaits.filter fun w => w.origin == .lane gid slot
/-- Whether every record of a suspended split's fault is answered (R302). -/
def State.answered (s : State) (gid slot : Nat) : Bool :=
  let g := s.group gid
  let c := s.ctx g.ctx
  (g.slot slot).mode == .suspended && !(c.awaitsOf gid slot).isEmpty && (c.awaitsOf gid slot).all (fun w => w.answer.isSome)
    && !c.waiting.any (fun r => r.origin == .lane gid slot) && !s.groupClamped gid && c.state == .active
/-- A suspended split resumes, or takes the handler path with the cause of its oldest answer that is no retry (R302). A resumption
acquires what the answering agent wrote (R329). A delivered cause that clamps the context leaves the split at its instruction, to
issue it again for the same lanes after a RELEASE (R192; log 101, DESIGN CHOICE). -/
def State.firmwareDone (s : State) (gid slot : Nat) : State :=
  let g := s.group gid
  let ws := (s.ctx g.ctx).awaitsOf gid slot
  let s1 := s.modCtx g.ctx fun c => { c with awaits := c.awaits.filter fun w => w.origin != .lane gid slot }
  let bad := (ws.filter fun w => w.answer != some 0).foldl (fun (acc : Option Await) w => match acc with
    | none => some w | some b => if w.seq < b.seq then some w else some b) none
  match bad with
  | none => (((s1.resume gid slot).acquire g.core 4 1).afterTrap gid).testReady gid slot
  | some w =>
    let t : Trap :=
      { cause := (Cause.ofCode (w.answer.getD 5)).getD .pageNotPresent, pc := g.sys.tpc.setWidth 56, addr := w.addr, lanes := g.sys.tlanes
        info := g.sys.tinfo.setWidth 32, rpl := g.sys.tstat.getLsbD 31, no := (g.slot slot).trapNo }
    if g.sys.tvec = 0 then ((s1.resume gid slot).clampCtx g.ctx 2 t.cause.code t.faultPc).afterTrap gid
    else ((s1.queueTrap gid slot t).afterTrap gid).testReady gid slot
/-- FIRMWARE_RESUME (R302). -/
def execFirmwareResume (gid slot : Nat) (s : State) : Host.Outcome State Fault Refusal :=
  event "FIRMWARE_RESUME" (s.answered gid slot) (s.firmwareDone gid slot)

/-- SCRUB (R315): a line homed on the die is written with zeros and leaves the error set. -/
def State.scrub (s : State) (die : Nat) (v : Dword) : State :=
  let line := bitsOf v.toNat 53 6
  if pkgOf (64 * line) ≠ s.pkg ∨ homeDie (64 * line) ≠ some die then s
  else (s.homeBytes (64 * line) (List.replicate 64 0)).modDie die fun d => { d with errset := d.errset.filter (· != line), struck := d.struck.filter (· != line) }
/-- SCRUB (R315): a full write-back queue makes it wait (R357). -/
def execScrub (die : Nat) (v : Dword) (s : State) : Host.Outcome State Fault Refusal :=
  event "SCRUB" (s.on && decide (die < 4) && (pkgOf (bitsOf v.toNat 53 6 * 64) != s.pkg || homeDie (bitsOf v.toNat 53 6 * 64) != some die ||
    s.wbqRoom (bitsOf v.toNat 53 6 * 64))) (s.scrub die v)
/-- The reach of a die's TLBINV command, from the die's first core (R295, R296). -/
def execDieTlbinvCommand (die ctx kind reach : Nat) (va : Dword) (s : State) : Host.Outcome State Fault Refusal :=
  event "DIE_TLBINV_COMMAND" (s.on && decide (die < 4) && decide (kind < 2) && decide (reach < 4))
    (s.tlbDrop kind (s.ctx ctx).asid va.toNat reach (128 * die))
/-- What a soft error leaves (R313, R314): one that a code corrects changes no value and is counted; one that it only detects
marks the place. Clean bytes of an L1 are filled again from home. -/
def State.strike (s : State) (e : SoftError) : State :=
  match e.place with
  | .homeLine pa =>
    if e.correctable then match homeDie pa with
      | some d => s.modDie d fun x => { x with errCount := x.errCount + 1 }
      | none => s
    else match homeDie pa with
      | some d => if s.lineBad pa || pkgOf pa != s.pkg then s else s.modDie d fun x => { x with struck := x.struck ++ [lineOf pa] }
      | none => s
  | .l1 core line bytes =>
    let x := s.l1Line core line
    if e.correctable then s
    else s.setL1 core line { x with
      valid := x.valid &&& ~~~(bytes &&& ~~~x.dirty), bad := x.bad ||| (bytes &&& x.dirty) }
  | .spadWord blk a => if e.correctable || s.blocks.get? blk == none then s else s.modBlock blk fun b => { b with bad := b.bad ++ [a / 4] }
  | .tileWord gid t w => if e.correctable || s.groups.get? gid == none then s
      else s.modGroup gid fun g => g.setTile t { g.tile t with bad := (g.tile t).bad ++ [w] }
  | .accWord gid k w => if e.correctable || s.groups.get? gid == none then s else s.modGroup gid fun g => { g with accBad := g.accBad ++ [(k, w)] }
  | .planeWord q p w => if e.correctable then s else s.modPlane q p fun x => { x with bad := x.bad ++ [w] }
  | .laneReg gid n l => if e.correctable || s.groups.get? gid == none then s else s.modGroup gid fun g => { g with regBad := g.regBad ++ [(n, l)] }
  | .uniReg gid n => if e.correctable || s.groups.get? gid == none then s else s.modGroup gid fun g => { g with regBad := g.regBad ++ [(128 + n, 0)] }
  | .bankReg c p n => if e.correctable then s else s.modPart c p fun x => { x with bankBad := x.bankBad ++ [n] }
/-- Whether a place is one that there is: the package's units are fixed in number (R1), and a group has the registers, tiles and slots that it
holds (R179, R207, R226). -/
def State.hasPlace (s : State) : ErrPlace → Bool
  | .homeLine pa => (homeDie pa).isSome && pkgOf pa == s.pkg
  | .l1 core line _ => decide (core < 512) && s.l1Of core == core && ((s.core core).l1.get? line).isSome
  | .spadWord blk a => (s.block blk).spadOk a 1
  | .tileWord gid t w => decide (t < (s.group gid).budM) && decide (w < 2112)
  | .accWord gid k w => decide (k < (s.group gid).budC) && decide (w < 4096)
  | .planeWord q p w => decide (q < 128) && decide (p < 2) && decide (w < 32768)
  | .laneReg gid n l => ((s.group gid).names.get? n).isSome && decide (l < 32)
  | .uniReg gid n => decide (n < (s.group gid).budG)
  | .bankReg c p n => decide (c < 512) && decide (p < 12) && (decide (n < 512) || (decide (4096 ≤ n) && decide (n < 4608) && n % 32 == 0))
/-- SOFT_ERROR (R312, R314): at a place that there is (R1). -/
def execSoftError (e : SoftError) (s : State) : Host.Outcome State Fault Refusal := event "SOFT_ERROR" (s.on && s.hasPlace e.place) (s.strike e)

end Sys2Proof.Machine
end

