-- ==== Sys2Proof/Machine/TongsEvents.lean ====
section
/-! DEFINITION. The Tongs engines at work: the chunks of an operation, its pauses and failures (R303 to R309, R316). -/

namespace Sys2Proof.Machine

/-- The pieces of a span of bytes, one in each 64-byte line: address and length. -/
def linePieces (a n : Nat) : List (Nat × Nat) :=
  (List.range ((a + n - 1) / 64 - a / 64 + 1)).map fun k =>
    let lo := max a (64 * (a / 64 + k))
    (lo, min (a + n) (64 * (a / 64 + k + 1)) - lo)
/-- Why a chunk stops: the cause and the first byte concerned. -/
abbrev Stop := Cause × Nat
/-- Where an engine of a die reads a piece, or why it cannot (R309, R366, R390). -/
def State.engineFrom (s : State) (die ctx step va : Nat) : Except Stop Nat :=
  match s.translateDie die ctx .read va with
  | .error c => .error (c, va)
  | .ok pa => match s.denied die step .read pa with
    | some c => .error (c, va)
    | none => .ok pa
/-- The physical addresses of the pieces of a span up to the first that an engine cannot read. -/
def State.enginePas (s : State) (die ctx step va n : Nat) : List Nat :=
  ((linePieces va n).foldl (fun (acc : List Nat × Bool) p => if acc.2 then acc else match s.engineFrom die ctx step p.1 with
    | .error _ => (acc.1, true)
    | .ok pa => (acc.1 ++ [pa], false)) ([], false)).1
/-- The bytes of a piece that an engine of a die reads at home, or has brought from another package (R307). -/
def State.engineRead (s : State) (o : Origin) (die ctx step va n : Nat) : Except Stop (List Byte) :=
  match s.engineFrom die ctx step va with
  | .error e => .error e
  | .ok pa => match s.lineBytes o pa n step with
    | .error c => .error (c, va)
    | .ok bs => .ok bs
/-- The source bytes of a span of global memory. -/
def State.engineReads (s : State) (o : Origin) (die ctx step va n : Nat) : Except Stop (List Byte) :=
  (linePieces va n).foldl (fun acc p => match acc with
    | .error e => .error e
    | .ok l => match s.engineRead o die ctx step p.1 p.2 with
      | .error e => .error e
      | .ok bs => .ok (l ++ bs)) (.ok [])
/-- An engine that meets lost data at an address finds the error (R314). -/
def State.engineFound (s : State) (die ctx step va : Nat) (n : Need) : State :=
  match s.translateDie die ctx n va with
  | .ok pa => s.foundAll ctx (if n.changes then s.writePas pa 1 step else s.readPas pa step)
  | .error _ => s.walkFound ctx va
/-- Where an engine's write of a piece goes, or why it cannot (R309, R321, R368, R405); a Tongs write of a whole line clears
an error there (R314). -/
def State.engineDest (s : State) (die ctx step va n : Nat) : Except Stop Nat :=
  match s.translateDie die ctx .write va with
  | .error c => .error (c, va)
  | .ok pa => match s.denied die step .write pa with
    | none => .ok pa
    | some .dataError => if s.reachable (pkgOf pa) && n == 64 && !s.anyBad (s.writePas pa 64 step) then .ok pa else .error (.dataError, va)
    | some c => .error (c, va)
/-- The pieces of a destination span with their physical addresses. -/
def State.engineDests (s : State) (die ctx step va n : Nat) : Except Stop (List (Nat × Nat × Nat)) :=
  (linePieces va n).foldl (fun acc p => match acc with
    | .error e => .error e
    | .ok l => match s.engineDest die ctx step p.1 p.2 with
      | .error e => .error e
      | .ok pa => .ok (l ++ [(p.1 - va, p.2, pa)])) (.ok [])
/-- An engine's bytes of a step leave for another package; an access stands for them until they are acknowledged (R367, R387, R391). -/
def State.engineSend (s : State) (die ctx gid epoch va pa st type : Nat) (aux : BitVec 32) (payload : List Byte) : Nat × State :=
  let (id, s1) := s.newId
  let a : Access :=
    { id := id, kind := .write, gid := gid, core := 128 * die, ctx := ctx, lanes := 0, pa := pa, va := BitVec.ofNat 64 va, w := 0, apps := [], home := true
      sco := 0, sem := 0, last := false, load := none, deps := [], epoch := epoch, step := s.carried pa st, sent := true }
  (id, ({ s1 with accs := s1.accs ++ [a] } : State).sendLong (s1.flitTo ctx die pa type (if type = 0x0C then 3 else 0) id (aux ||| stepBit (a.step.getD 0))
    (payload ++ stepTail (a.step.getD 0))))
/-- A whole line written by Tongs has its data again, and leaves its home's error set (R314). -/
def State.clearError (s : State) (pa n : Nat) : State :=
  if n = 64 then match homeDie pa with
    | some d => s.modDie d fun x => { x with errset := x.errset.filter (· != lineOf pa), struck := x.struck.filter (· != lineOf pa) }
    | none => s
  else s
/-- One piece written at home; none while the home cannot take it. -/
def State.enginePut (s : State) (gid step epoch pa : Nat) (bs : List Byte) : Option State :=
  if inScm pa && (!s.wbqRoom pa || s.olderWrite gid epoch s.nextId) then none
  else (s.writeCells pa step bs).map fun cells => (s.homeCells cells).clearError ((cells.map Prod.fst).headD pa) bs.length
/-- The pieces of a chunk written: at home, or on their way to another package as one message, which its home takes whole or not at all
(R307, R309, R387). A chunk lies in one page. -/
def State.enginePuts (s : State) (die ctx gid step epoch va : Nat) (bs : List Byte) (ps : List (Nat × Nat × Nat)) : Option (List Nat × State) :=
  match ps with
  | [] => some ([], s)
  | (_, _, pa) :: _ =>
    if pkgOf pa = s.pkg then
      (ps.foldl (fun acc p => acc.bind fun s => s.enginePut gid step epoch p.2.2 ((bs.drop p.1).take p.2.1)) (some s)).map fun t => ([], t)
    else if inScm pa && s.olderWrite gid epoch s.nextId then none
    else
      let (id, s1) := s.engineSend die ctx gid epoch va pa step 0x0D 0x40000000 (ps.flatMap fun p => wrPayload (p.2.2 % 64) ((bs.drop p.1).take p.2.1))
      some ([id], s1)

/-- Changes a Tongs operation. -/
def State.modTongs (s : State) (die key id : Nat) (f : TongsOp → TongsOp) : State :=
  s.modDie die fun d =>
    let q := d.tongs.getD key {}
    { d with tongs := d.tongs.set key { q with ops := q.ops.map fun o => if o.id = id then f o else o } }
/-- A chunk that stops: a page that is not present pauses the operation, anything else fails it (R309); lost data of global memory is found
(R314). -/
def State.tongsStop (s : State) (die engine ctx : Nat) (o : TongsOp) (side : Nat) (e : Stop) : State :=
  let key := tongsKey engine ctx
  if e.1 = .pageNotPresent then
    let w2 := s.recWord2 o.gid 0 ||| BitVec.ofNat 64 (die * 16 + engine)
    (s.modTongs die key o.id fun x => { x with paused := true }).logRecord ctx
      { words := [recWord0 1 2 side, BitVec.ofNat 64 e.2, w2, 0, 0, 0, s.recWord6 o.gid, 0], origin := .tongs die engine ctx o.id }
  else
    let global := if side = 0 then !o.ssp else !o.dsp
    let s1 := if e.1 = Cause.dataError ∧ global = true then s.engineFound die ctx o.step.toNat e.2 (if side = 0 then .read else .write) else s
    s1.endTongs die key o.id (some { reason := e.1.code, side := side, addr := BitVec.ofNat 64 e.2 })
/-- The pattern bytes of a BFILL chunk (R307). -/
def TongsOp.fillBytes (o : TongsOp) (x n : Nat) : List Byte :=
  (List.range n).map fun k => BitVec.ofNat 8 (o.pat >>> (8 * ((x + k) % o.pw)))
/-- The first failing word of a scratchpad span (R314). -/
def Block.badByte (b : Block) (a n : Nat) : Option Nat := (List.range n).findSome? fun k => if b.badAt (a + k) 1 then some (a + k) else none
/-- Who an operation is to the lines it asks for. -/
def TongsOp.origin (o : TongsOp) (die engine ctx : Nat) : Origin := .tongs die engine ctx o.id
/-- The source bytes of a chunk: offset x of a row, n bytes. -/
def State.tongsSource (s : State) (die engine ctx : Nat) (o : TongsOp) (row x n : Nat) : Except Stop (List Byte) :=
  let a := sideAddr o.ssp (o.srcRow row + x)
  if o.fill then .ok (o.fillBytes x n)
  else if o.ssp then match (s.block o.blk).badByte a n with
    | some k => .error (.dataError, k)
    | none => .ok ((s.block o.blk).read a n)
  else s.engineReads (o.origin die engine ctx) die ctx o.step.toNat a n
/-- An operation past its chunk, which waits for what it has sent; it ends when nothing is left. -/
def State.tongsDone (s : State) (die key : Nat) (o : TongsOp) (ids : List Nat) : State :=
  let s := s.dropKept (o.origin die (key / 64) (key % 64))
  let o1 := { o.advance with deps := ids }
  if o1.ended && ids.isEmpty then s.endTongs die key o.id none else s.modTongs die key o.id fun _ => o1
/-- Whether a global source of the chunk lies in a region whose enable sweep runs (R372). -/
def State.sourceSweeps (s : State) (die ctx : Nat) (o : TongsOp) (row x n : Nat) : Bool :=
  !o.fill && !o.ssp && (linePieces (sideAddr false (o.srcRow row + x)) n).any fun p =>
    match s.translateDie die ctx .read p.1 with | .ok pa => s.sweeping pa | .error _ => false
/-- The cores at whose banks the next chunk of an operation acts (R307). -/
def State.chunkCores (s : State) (o : TongsOp) : List Nat :=
  let (row, j) := o.place
  let x := (o.chunk row j).1
  let b := s.block o.blk
  (if o.ssp && !o.fill then [b.coreOf (sideAddr true (o.srcRow row + x))] else []) ++ if o.dsp then [b.coreOf (sideAddr true (o.dstRow row + x))] else []
/-- An engine has acted at a core's banks: no access of a core follows in that cycle (R202, R307). -/
def State.engineAt (s : State) (core : Nat) : State := s.arrived core 512
/-- The next chunk of an operation (R307, R309); none while it must wait: at a core's banks it follows the accesses of its cycle. -/
def State.tongsStep (s : State) (die engine ctx : Nat) (o : TongsOp) : Option State :=
  let key := tongsKey engine ctx
  if o.ended then some (s.endTongs die key o.id none)
  else if !(s.chunkCores o).all s.atEnd then none
  else
    let (row, j) := o.place
    let (x, n) := o.chunk row j
    let dst := sideAddr o.dsp (o.dstRow row + x)
    let far := if o.fill || o.ssp then [] else s.enginePas die ctx o.step.toNat (sideAddr false (o.srcRow row + x)) n
    if s.sourceSweeps die ctx o row x n then none
    else match s.needLines (o.origin die engine ctx) (128 * die) ctx o.step.toNat far with
    | some s1 => if (s.toAsk (o.origin die engine ctx) far).isEmpty then none else some s1
    | none => match s.tongsSource die engine ctx o row x n with
      | .error e => some (s.tongsStop die engine ctx o 0 e)
      | .ok bs =>
        let s := (s.chunkCores o).foldl State.engineAt s
        if o.dsp then some ((s.modBlock o.blk fun b => b.write dst bs).tongsDone die key o [])
        else match s.engineDests die ctx o.step.toNat dst n with
          | .error e => some (s.tongsStop die engine ctx o 1 e)
          | .ok ps => (s.enginePuts die ctx o.gid o.step.toNat o.epoch dst bs ps).map fun r => r.2.tongsDone die key o r.1
/-- The operations of a queue that may perform their next chunk: of each group the first that nothing holds (R303, R316, R351). -/
def State.tongsReady (s : State) (die key : Nat) : List TongsOp :=
  let q := (s.die die).tongs.getD key {}
  let free := q.ops.filter fun o => !o.paused && !o.deps.any s.pendingId && !s.groupClamped o.gid
  if q.clamped then [] else free.filter fun o => (free.find? fun x => x.gid == o.gid) == some o
/-- The next chunk of a queue; where operations of several groups could go on, which of them does is a free value (R303; log 123, DESIGN
CHOICE). -/
def State.tongsNext (s : State) (die engine ctx : Nat) : Option State :=
  match s.tongsReady die (tongsKey engine ctx) with
  | [] => none
  | [o] => s.tongsStep die engine ctx o
  | os =>
    let (v, s1) := s.draw
    let l := os.filterMap (s1.tongsStep die engine ctx)
    l[v % max 1 l.length]?
/-- TONGS_CHUNK (R303, R307, R309). -/
def execTongsChunk (die engine ctx : Nat) (s : State) : Host.Outcome State Fault Refusal :=
  match s.tongsNext die engine ctx with
  | none => .refused (.notEnabled "TONGS_CHUNK")
  | some s1 => .next s1

end Sys2Proof.Machine
end

