-- ==== Sys2Proof/Machine/FreezeEvents.lean ====
section
/-! DEFINITION. Sealing and gathering, die by die and page by page (R317, R318, R321, R322, R404). -/

namespace Sys2Proof.Machine

/-- The notice of another package's page that is under way here. -/
def State.noticeOf (s : State) (page : Nat) (gather : Bool) : Option Notice := s.notices.find? fun n => n.page == page && n.gather == gather
/-- Replaces a notice; one with nothing left is acknowledged to its home and gone (R404). -/
def State.setNotice (s : State) (n : Notice) : State :=
  let rest := s.notices.filter fun x => !(x.page == n.page && x.gather == n.gather)
  if n.todo.isEmpty && n.wait.isEmpty then
    ({ s with notices := rest } : State).sendFlit { s.flitTo 0 0 (n.page * 2 ^ 17) 9 2 0 (if n.gather then 1 else 0) [] with dpkg := n.home }
  else { s with notices := rest ++ [n] }
/-- The die is told of a page that enters SEALING (R321). -/
def State.tellDie (s : State) (die page : Nat) : Option State :=
  match s.dirEnt page with
  | some e =>
    if e.state = .sealing ∧ e.await.contains die = true ∧ e.told.contains die = false then
      some ((s.addFilter die page).setDir page (some { e with told := e.told ++ [die] }))
    else none
  | none => match s.noticeOf page false with
    | some n => if n.todo.contains die then
        some ((s.addFilter die page).setNotice { n with todo := n.todo.filter (· != die), wait := n.wait ++ [die] })
      else none
    | none => none
/-- FREEZE_NOTICE (R321). -/
def execFreezeNotice (die page : Nat) (s : State) : Host.Outcome State Fault Refusal :=
  match if die < 4 then s.tellDie die page else none with
  | none => .refused (.notEnabled "FREEZE_NOTICE")
  | some s1 => .next s1
/-- A die acknowledges a notice once its earlier writes to the page have been performed (R321). -/
def State.ackDie (s : State) (die page : Nat) : Option State :=
  if !s.quiet die page then none else
  match s.dirEnt page with
  | some e =>
    if e.state = .sealing ∧ e.await.contains die = true ∧ e.told.contains die = true then
      some (s.setDir page (some { e with await := e.await.filter (· != die) }))
    else none
  | none => match s.noticeOf page false with
    | some n => if n.wait.contains die then some (s.setNotice { n with wait := n.wait.filter (· != die) }) else none
    | none => none
/-- FREEZE_ACK (R321). -/
def execFreezeAck (die page : Nat) (s : State) : Host.Outcome State Fault Refusal :=
  match if die < 4 then s.ackDie die page else none with
  | none => .refused (.notEnabled "FREEZE_ACK")
  | some s1 => .next s1
/-- Whether some FRZ or THAW here still waits for a page. -/
def State.pageAwaited (s : State) (page : Nat) (thaw : Bool) : Bool :=
  s.groups.any fun g => g.2.ops.any fun o => o.cls == 5 && !o.done && o.pages.contains page && (thaw || !o.thaw)
/-- A page leaves SEALING: SEALED, or THAWING when a thaw is pending (R318). A FRZ is finished with the page as its sealing ends, though the
page is then never SEALED (R321; log 121, DESIGN CHOICE). -/
def State.sealEnd (s : State) (page : Nat) (e : DirEnt) : State :=
  if e.count = 0 then (s.startGather page { e with cut := [] }).pageDone page false e.cut
  else (s.setDir page (some { e with state := .sealed, told := [], cut := [] })).pageDone page true []
/-- Whether a write that has reached a page's home still waits there (R321, R324). -/
def State.heldWrites (s : State) (page : Nat) : Bool := s.accs.any fun a => a.waiting && !a.done && pageOf a.pa == page
/-- SEALING_END (R318, R321): of another package's page, that its home has sealed it. -/
def execSealingEnd (page : Nat) (s : State) : Host.Outcome State Fault Refusal :=
  if page / 2 ^ 25 ≠ s.pkg then event "SEALING_END" (s.pageAwaited page false && s.reachable (page / 2 ^ 25)) (s.pageDone page false [])
  else match s.dirEnt page with
    | none => .refused (.notEnabled "SEALING_END")
    | some e => event "SEALING_END" (decide (e.state = .sealing) && e.await.isEmpty && !s.heldWrites page) (s.sealEnd page e)
/-- A die removes its frozen copies of a page (R322). -/
def State.gatherDie (s : State) (die page : Nat) : Option State :=
  match s.dirEnt page with
  | some e =>
    if e.state = .thawing ∧ e.await.contains die = true then
      some ((s.dropFrozen die page).setDir page (some { e with await := e.await.filter (· != die) }))
    else none
  | none => match s.noticeOf page true with
    | some n => if n.todo.contains die then some ((s.dropFrozen die page).setNotice { n with todo := n.todo.filter (· != die) }) else none
    | none => none
/-- GATHER (R322, R404). -/
def execGather (die page : Nat) (s : State) : Host.Outcome State Fault Refusal :=
  match if die < 4 then s.gatherDie die page else none with
  | none => .refused (.notEnabled "GATHER")
  | some s1 => .next s1
/-- A page leaves THAWING: OPEN, and out of this package's freeze filters, or SEALED when a freeze has come meanwhile (R318, R322). -/
def State.thawEnd (s : State) (page : Nat) (e : DirEnt) : State :=
  ((if e.count = 0 then s.dropFilter page else s).setDir page (if e.count = 0 then none else some { e with state := .sealed, hdie := [], pkf := 0, told := [] })).pageDone page true []
/-- GATHER_END (R318, R322): of another package's page, that its home has gathered it. -/
def execGatherEnd (page : Nat) (s : State) : Host.Outcome State Fault Refusal :=
  if page / 2 ^ 25 ≠ s.pkg then event "GATHER_END" (s.pageAwaited page true && s.reachable (page / 2 ^ 25)) (s.pageDone page true [])
  else match s.dirEnt page with
    | none => .refused (.notEnabled "GATHER_END")
    | some e => event "GATHER_END" (decide (e.state = .thawing) && e.await.isEmpty) (s.thawEnd page e)

end Sys2Proof.Machine
end

