-- ==== Sys2Proof/Machine/Erasure.lean ====
section
/-! DEFINITION. Erasure groups: the field, where the units of a stripe lie, coded writes and rebuild (R405 to R409). -/

namespace Sys2Proof.Machine

/-- One doubling in GF(2^8) with polynomial 0x11D (R407). -/
def gfDouble (a : Nat) : Nat := if a < 128 then 2 * a else (2 * a) ^^^ 0x11D
/-- The product in GF(2^8), from the top bit of `b` down. -/
def gfMul (a b : Nat) : Nat :=
  (List.range 8).foldl (fun acc k => (gfDouble acc) ^^^ (if b.testBit (7 - k) then a else 0)) 0
/-- The inverse in GF(2^8): the 254th power. -/
def gfInv (a : Nat) : Nat := (List.range 253).foldl (fun x _ => gfMul x a) a
/-- The coefficient of data unit i in parity unit j (R407). -/
def coef (k j i : Nat) : Nat := gfInv ((k + j) ^^^ i)

/-- The unit of a stripe at a position (R406): below k data unit i, else parity unit k + j. -/
def Erasure.unitAt (e : Erasure) (stripe pos : Nat) : Nat := (pos + e.n - stripe % e.n) % max 1 e.n
/-- The position of a unit of a stripe. -/
def Erasure.posOf (e : Erasure) (stripe unit_ : Nat) : Nat := (stripe + unit_) % max 1 e.n
/-- The stripes of a block of n in which a position holds data, or parity, in increasing order. -/
def Erasure.turns (e : Erasure) (w pos : Nat) (parity : Bool) : List Nat :=
  ((List.range e.n).map (w * e.n + ·)).filter fun s => decide (e.unitAt s pos < e.k) != parity
/-- DATA_UNIT (R406): the stripe and data unit of the t-th unit of a data area. -/
def Erasure.dataUnit (e : Erasure) (pos t : Nat) : Nat × Nat :=
  let s := (e.turns (t / max 1 e.k) pos false).getD (t % max 1 e.k) 0
  (s, e.unitAt s pos)
/-- PARITY_UNIT (R406): the stripe and parity unit of the u-th unit of a parity area. -/
def Erasure.parityUnit (e : Erasure) (pos u : Nat) : Nat × Nat :=
  let s := (e.turns (u / max 1 e.m) pos true).getD (u % max 1 e.m) 0
  (s, e.unitAt s pos - e.k)
/-- The number of a stripe's unit within its area at a position. -/
def Erasure.indexIn (e : Erasure) (stripe pos : Nat) : Nat :=
  let parity := decide (e.unitAt stripe pos ≥ e.k)
  (if parity then e.m else e.k) * (stripe / max 1 e.n) + ((e.turns (stripe / max 1 e.n) pos parity).takeWhile (· != stripe)).length
/-- Where the unit of a stripe at a position lies in areas that start as this package's do; the package that holds the unit uses its own
areas (log 20, DESIGN CHOICE). -/
def Erasure.unitPa (e : Erasure) (stripe pos : Nat) : Nat :=
  let base := if e.unitAt stripe pos < e.k then e.dataBase else e.parBase
  e.mem.getD pos 0 * 2 ^ 42 + (base + 2 ^ 17 * e.indexIn stripe pos) % 2 ^ 42

/-- A coded write of one line of the data area: the deltas leave for the parity positions, the new bytes enter at home (R408).
None while the home cannot take it. -/
def State.codedPut (s : State) (die ctx gid va pa : Nat) (bs : List Byte) : Option (List Nat × State) :=
  let e := s.erasure
  let off := pa - e.dataBase
  let (stripe, i) := e.dataUnit e.pos (off / 2 ^ 17)
  let delta := (List.range 64).map fun b => ((s.bytes pa 64).getD b 0 ^^^ bs.getD b 0).toNat
  if !s.wbqRoom pa then none
  else
    let s1 := s.homeBytes pa bs
    some ((List.range e.m).foldl (fun (r : List Nat × State) j =>
      let q := e.posOf stripe (e.k + j)
      let body := (delta.map fun d => BitVec.ofNat 8 (gfMul (coef e.k j i) d)) ++ bytesOf 8 stripe
      let (id, s2) := r.2.engineSend die ctx gid 0 va (e.unitPa stripe q + off % 2 ^ 17) 0 0x0C 0 body
      (r.1 ++ [id], s2)) ([], s1))
/-- The parity positions of the stripe of a data line that cannot be reached. -/
def State.parityLost (s : State) (pa : Nat) : Bool :=
  let e := s.erasure
  let stripe := (e.dataUnit e.pos ((pa - e.dataBase) / 2 ^ 17)).1
  (List.range e.m).any fun j => !s.reachable (e.mem.getD (e.posOf stripe (e.k + j)) 0)

/-- One row of an elimination: coefficients, and the bytes of the unit they give. -/
abbrev GfRow := List Nat × List Nat
/-- A row times a factor. -/
def GfRow.scale (r : GfRow) (f : Nat) : GfRow := (r.1.map (gfMul f), r.2.map (gfMul f))
/-- The sum of two rows. -/
def GfRow.add (a b : GfRow) : GfRow := (a.1.zipWith (· ^^^ ·) b.1, a.2.zipWith (· ^^^ ·) b.2)
/-- Clears column c of every row but one, which it makes 1 there. -/
def gfPivot (rows : List GfRow) (c : Nat) : List GfRow :=
  match (rows.drop c).find? (fun r => r.1.getD c 0 != 0) with
  | none => rows
  | some p =>
    let p1 := p.scale (gfInv (p.1.getD c 0))
    let others := (rows.take c) ++ ((rows.drop c).erase p)
    let cleared := others.map fun r => r.add (p1.scale (r.1.getD c 0))
    cleared.take c ++ [p1] ++ cleared.drop c
/-- The data units that k units of a stripe determine (R407). -/
def gfSolve (k : Nat) (units : List (Nat × List Nat)) : List (List Nat) :=
  let rows : List GfRow := units.map fun u =>
    ((List.range k).map fun i => if u.1 < k then (if u.1 = i then 1 else 0) else coef k (u.1 - k) i, u.2)
  ((List.range k).foldl gfPivot rows).map Prod.snd
/-- A unit computed from the data units of its stripe. -/
def unitFrom (k unit_ : Nat) (data : List (List Nat)) : List Nat :=
  if unit_ < k then data.getD unit_ []
  else (List.range k).foldl (fun (acc : List Nat) i =>
    let d := (data.getD i []).map (gfMul (coef k (unit_ - k) i))
    if acc.isEmpty then d else acc.zipWith (· ^^^ ·) d) []
/-- The positions a rebuild reads for a stripe: the k lowest other than the package's own whose packages have not failed (R409). -/
def State.rebuildFrom (s : State) : List Nat :=
  let e := s.erasure
  (((List.range e.n).filter fun p => p != e.pos && !s.fabFail.contains (e.mem.getD p 0)).take e.k)
/-- A rebuild stops: BUSY and DONE are 0 (R409). -/
def State.dropRebuild (s : State) : State := { s with erasure := { s.erasure with busy := false, done := false, from_ := [], units := [] } }
/-- A rebuild takes the positions for its next stripe and asks for their units, or stops when one cannot be reached (R409). -/
def State.askStripe (s : State) : State :=
  let e := s.erasure
  let ps := s.rebuildFrom
  if ps.length < e.k || ps.any fun p => !s.reachable (e.mem.getD p 0) then s.dropRebuild
  else
    ps.foldl (fun s p =>
      let pa := e.unitPa e.at_ p
      s.sendFlit (s.flitTo 0 ((homeDie e.dataBase).getD 0) pa 0x0C 3 p 1 (bytesOf 8 e.at_ ++ bytesOf 8 e.run)))
      { s with erasure := { e with from_ := ps, units := [] } }
/-- Whether every unit of the stripe has arrived whole. -/
def State.stripeReady (s : State) : Bool :=
  let e := s.erasure
  e.busy && e.from_.all fun p => match e.units.find? (fun u => u.1 == p) with
    | some u => u.2.length == 2 ^ 17
    | none => false
/-- The package's own unit of the stripe written line by line; the rebuild goes on or is done (R409). -/
def State.rebuildOne (s : State) : State :=
  let e := s.erasure
  let us := e.from_.map fun p =>
    (e.unitAt e.at_ p, ((e.units.find? fun u => u.1 == p).map fun u => u.2.map (·.toNat)).getD [])
  let mine := unitFrom e.k (e.unitAt e.at_ e.pos) (gfSolve e.k us)
  let pa := e.unitPa e.at_ e.pos % 2 ^ 42 + s.pkg * 2 ^ 42
  let s1 := (List.range 2048).foldl (fun s l =>
    s.homeBytes (pa + 64 * l) ((List.range 64).map fun b => BitVec.ofNat 8 (mine.getD (64 * l + b) 0))) s
  if e.at_ < bitsOf e.range.toNat 63 32 then ({ s1 with erasure := { e with at_ := e.at_ + 1 } } : State).askStripe
  else { s1 with erasure := { e with busy := false, done := true, from_ := [], units := [] } }
/-- REBUILD_STRIPE (R409): its lines need room in the write-back queue. -/
def execRebuildStripe (s : State) : Host.Outcome State Fault Refusal :=
  event "REBUILD_STRIPE" (s.stripeReady && (match homeDie (s.erasure.unitPa s.erasure.at_ s.erasure.pos) with
    | some d => decide ((s.die d).wbqUsed + 2048 ≤ 4096)
    | none => false)) s.rebuildOne
/-- Whether EGCTL.EN = 1 is refused (R405). -/
def State.egBad (s : State) (e : Erasure) : Bool :=
  let d1 := e.dataBase + 2 ^ 17 * e.dataUnits
  let p1 := e.parBase + 2 ^ 17 * e.parUnits
  let ms := e.mem.take e.n
  let inPkg (a b : Nat) : Bool := decide (a = b) || pkgOf a == s.pkg && inScm a && pkgOf (b - 1) == s.pkg && inScm (b - 1)
  let meets (a b c d : Nat) : Bool := decide (a < d) && decide (c < b)
  let regs := s.ctxs.flatMap fun c => c.2.regions.filter (·.en)
  let hits (a b : Nat) : Bool := regs.any fun r =>
    meets a b r.pa0 (r.pa0 + 64 * r.lines) || meets a b r.pa1 (r.pa1 + 64 * r.lines) || meets a b r.tags (r.tags + 8 * r.lines)
  decide (e.n > 17) || decide (e.m < 1) || decide (e.m > 3) || decide (e.k < 1) || decide (e.k > 14) || decide (e.pos ≥ e.n)
    || decide (e.stripes % (2 * e.n) ≠ 0) || !inPkg e.dataBase d1 || !inPkg e.parBase p1
    || meets e.dataBase d1 e.parBase p1 || hits e.dataBase d1 || hits e.parBase p1 || ms.dedup.length != ms.length
/-- EGCTL_ENABLE (R405): refused, EN stays 0; while EN = 1 the register is read-only. -/
def execEgctlEnable (v : Dword) (s : State) : Host.Outcome State Fault Refusal :=
  let e := { s.erasure with ctl := v &&& 0x8000FFF0 }
  event "EGCTL_ENABLE" (s.on && v.getLsbD 31)
    (if s.erasure.en then s
     else if s.egBad e then { s with erasure := { e with ctl := v &&& 0xFFF0 } }
     else { s with erasure := e })
/-- EGRBLD_GO (R409): a rebuild of EGRANGE starts. Without an enabled group, with no such stripes, or while one runs, none does, and the write
clears DONE where it names it (R10). -/
def execEgrbldGo (v : Dword) (s : State) : Host.Outcome State Fault Refusal :=
  let e := s.erasure
  let range := e.range.toNat
  event "EGRBLD_GO" (s.on && v.getLsbD 31)
    (if !e.en || e.busy || decide (range % 2 ^ 32 > bitsOf range 63 32) || decide (bitsOf range 63 32 ≥ e.stripes) then
       { s with erasure := { e with done := e.done && !v.getLsbD 29 } }
     else ({ s with erasure := { e with busy := true, done := false, run := e.run + 1, at_ := range % 2 ^ 32 } } : State).askStripe)

end Sys2Proof.Machine
end

