-- ==== Sys2Proof/Machine/PersistEvents.lean ====
section
/-! DEFINITION. The write-back queues, PFLUSH, step operations, snapshots and stepped regions at work, and the loss of
power (R357 to R375). -/

namespace Sys2Proof.Machine

/-- WBQ_ENTRY (R357): a write that waits at its home slice is performed as it enters the queue. -/
def execWbqEntry (id : Nat) (s : State) : Host.Outcome State Fault Refusal :=
  match (s.accs.find? fun a => a.id == id && a.waiting).bind s.performNow with
  | none => .refused (.notEnabled "WBQ_ENTRY")
  | some s1 => .next s1
/-- The oldest entry of a write-back queue reaches the stack (R357). -/
def Die.drain (d : Die) : Die :=
  match d.wbq with
  | [] => d
  | e :: rest => { d with wbq := rest, scm := e.foldl (fun m c => Mem.write m c.1 c.2) d.scm }
/-- WBQ_DRAIN (R357). -/
def execWbqDrain (die : Nat) (s : State) : Host.Outcome State Fault Refusal :=
  event "WBQ_DRAIN" (!(s.die die).wbq.isEmpty) (s.modDie die Die.drain)
/-- The PS operation of a name, with its context. -/
def State.psOp (s : State) (id : Nat) : Option (Nat × PsOp) :=
  s.ctxs.findSome? fun c => (c.2.psq.find? fun p => p.id == id).map fun p => (c.1, p)
/-- PFLUSH_COMPLETE (R364). -/
def execPflushComplete (id : Nat) (s : State) : Host.Outcome State Fault Refusal :=
  match s.psOp id with
  | none => .refused (.notEnabled "PFLUSH_COMPLETE")
  | some (ctx, p) => event "PFLUSH_COMPLETE" (decide (p.kind = 0) && s.psReady p) (s.endPs ctx p)
/-- A step commit at die 0 (R370): nothing for a step already committed; else the record, then every die's C. None while it must wait. -/
def State.commitStep (s : State) (ctx : Nat) (p : PsOp) : Option State :=
  if p.kind ≠ 1 ∨ s.psReady p = false then none
  else if (s.ctx ctx).stepC ≥ p.s then some (s.endPs ctx p)
  else (s.writeRec ctx p.s).map fun s1 => (s1.setStep ctx p.s).endPs ctx p
/-- STEPCM_OPERATION (R370). -/
def execStepcmOperation (ctx : Nat) (s : State) : Host.Outcome State Fault Refusal :=
  match (s.ctx ctx).stepHead.bind (s.commitStep ctx) with
  | none => .refused (.notEnabled "STEPCM_OPERATION")
  | some s1 => .next s1
/-- The line of a context's enabled regions at or after a place, region × 2^40 + line, at which a sweep goes on (R371). -/
def State.sweepAt (s : State) (ctx : Nat) (n : Nat) : Option (Nat × Nat) :=
  (List.range 16).findSome? fun r =>
    let reg := s.region ctx r
    let l := if r = n / 2 ^ 40 then n % 2 ^ 40 else 0
    if reg.en && decide (n / 2 ^ 40 ≤ r) && decide (l < reg.lines) then some (r, l) else none
/-- The tag cells of one line that a test makes absent (R371, R372). -/
def State.tagCells (s : State) (ctx r line : Nat) (hit : Nat → Bool) : List Host.Cell :=
  let reg := s.region ctx r
  let t := s.tags ctx r line
  let cell (t off : Nat) : List Host.Cell := if hit t && t != 2 ^ 32 - 1 then
      (bytesOf 4 (2 ^ 32 - 1)).mapIdx fun i b => (reg.tags + 8 * line + off + i, b) else []
  cell t.1 0 ++ cell t.2 4
/-- A step abort at die 0 (R371), after what its issue released (R282): the sweep passes one line in one step, and ends when every line is
passed. -/
def State.abortStep (s : State) (ctx : Nat) (p : PsOp) : Option State :=
  if p.kind ≠ 2 ∨ s.psReady p = false then none
  else if (s.ctx ctx).stepC ≥ p.s then some (s.endPs ctx p)
  else match s.sweepAt ctx p.stage with
    | none => some (s.endPs ctx p)
    | some (r, line) =>
      let cells := s.tagCells ctx r line fun t => t == p.s
      let next : State := s.modCtx ctx fun c => { c with psq := c.psq.map fun (x : PsOp) => if x.id = p.id then { x with stage := r * 2 ^ 40 + line + 1 } else x }
      if cells.isEmpty then some next
      else if s.wbqRoom (s.region ctx r).tags then some (next.homeCells cells) else none
/-- STEPAB_OPERATION (R371). -/
def execStepabOperation (ctx : Nat) (s : State) : Host.Outcome State Fault Refusal :=
  match (s.ctx ctx).stepHead.bind (s.abortStep ctx) with
  | none => .refused (.notEnabled "STEPAB_OPERATION")
  | some s1 => .next s1

/-- Changes a snapshot. -/
def State.modSnap (s : State) (die id : Nat) (f : Snap → Snap) : State :=
  s.modDie die fun d => { d with snaps := d.snaps.map fun n => if n.id = id then f n else n }
/-- A snapshot ends (R373, R375). -/
def State.endSnap (s : State) (die : Nat) (n : Snap) (fail : Option Fail) : State :=
  (s.modDie die fun d => { d with snaps := d.snaps.filter fun x => x.id != n.id }).finishOp n.ctx n.gid 4 n.n fail
/-- The line of a snapshot's region that a write of a step waits for it to copy (R368, R374). -/
def State.blockedBy (s : State) (n : Snap) (pa st : Nat) : Option Nat :=
  if s.stepped pa ≠ some (n.ctx, n.rgn) then none
  else
    let l := s.stepLine n.ctx n.rgn pa
    let t := s.tags n.ctx n.rgn l
    let (v, fresh) := writeVersion t.1 t.2 st
    if fresh && !n.copied.contains l && pickVersion t.1 t.2 n.step == v then some l else none
/-- The lines a snapshot's region has waiting writers for (R373, R374): accesses at home, signal additions, contributions, and the next
chunks of Tongs operations. -/
def State.wantedLines (s : State) (n : Snap) : List Nat :=
  (s.accs.filter fun a => a.waiting && !a.done).filterMap (fun a => s.blockedBy n a.pa (a.step.getD 0))
  ++ (s.sigs.filter fun m => !m.sent && !m.deps.any s.pendingId).filterMap (fun m => s.blockedBy n m.pa m.step)
  ++ (s.redos.filter fun m => !m.sent && !m.deps.any s.pendingId).filterMap
    (fun m => s.blockedBy n m.pa (s.stepOf ((homeDie m.pa).getD 0) n.ctx + 1))
  ++ s.dies.flatMap fun d => d.2.tongs.flatMap fun q => (s.tongsReady d.1 q.1).flatMap fun o =>
      let (row, j) := o.place
      let (x, len) := o.chunk row j
      if o.dsp || o.ended then [] else (linePieces (sideAddr false (o.dstRow row + x)) len).filterMap fun p =>
        match s.translateDie d.1 (q.1 % 64) .write p.1 with
        | .ok pa => s.blockedBy n pa o.step.toNat
        | .error _ => none
/-- The line a snapshot copies next: one that a writer waits for, else the lowest (R373, R374). -/
def State.snapLine (s : State) (n : Snap) : Option Nat :=
  match s.wantedLines n with
  | l :: _ => some l
  | [] => (List.range (s.region n.ctx n.rgn).lines).find? fun l => !n.copied.contains l
/-- The group word of a record for an operation whose group may be gone (R299). -/
def State.opWord2 (s : State) (ctx gid : Nat) : Dword :=
  if gid < ghostBase then s.recWord2 gid 0
  else match (s.ctx ctx).ghosts.find? (fun g => g.gid == gid) with
    | some g => g.word2
    | none => s.recWord2Ctx ctx 0
/-- The grid and group word of a record for an operation whose group may be gone (R299). -/
def State.opWord6 (s : State) (ctx gid : Nat) : Dword :=
  if gid < ghostBase then s.recWord6 gid
  else match (s.ctx ctx).ghosts.find? (fun g => g.gid == gid), (s.ctx ctx).savedGroups.find? (fun g => g.1 == gid) with
    | some g, _ => g.word6
    | none, some g => BitVec.ofNat 64 (g.2.grid % 2 ^ 32 * 2 ^ 32 + g.2.index)
    | none, none => 0
/-- Where a snapshot's line goes, or why it cannot (R375, R405, R408). -/
def State.snapDest (s : State) (die : Nat) (n : Snap) (va : Nat) : Except Cause Nat :=
  match s.translateDie die n.ctx .write va with
  | .error c => .error c
  | .ok pa =>
    if (s.regionAt pa).isSome || (s.erasure.en && s.erasure.inPar pa) then .error .pageProtection
    else if s.filtered die pa then .error .frozenWrite
    else if !s.reachable (pkgOf pa) || (s.erasure.en && s.erasure.inData pa && (s.parityLost pa || s.lineBad pa)) then .error .dataError
    else .ok pa
/-- A snapshot's line written: coded in the own data area, at home, or on its way to another package. -/
def State.snapPut (s : State) (die : Nat) (n : Snap) (va pa : Nat) (bs : List Byte) : Option (List Nat × State) :=
  if pkgOf pa ≠ s.pkg then
    let (id, s1) := s.engineSend die n.ctx orphanGid 0 va pa 0 0x0D 0 (wrPayload 0 bs)
    some ([id], s1)
  else if s.erasure.en && s.erasure.inData pa then s.codedPut die n.ctx orphanGid va pa bs
  else if s.wbqRoom pa then some ([], s.homeBytes pa bs) else none
/-- The next line of a snapshot (R373 to R375); none while the write must wait. -/
def State.snapStep (s : State) (die : Nat) (n : Snap) : Option State :=
  match s.snapLine n with
  | none => some (s.endSnap die n none)
  | some l =>
    let t := s.tags n.ctx n.rgn l
    let src := s.versionPa n.ctx n.rgn l (pickVersion t.1 t.2 n.step)
    let va := n.dst + 64 * l
    let tag := (s.region n.ctx n.rgn).tags + 8 * l
    if s.sweeping (s.versionPa n.ctx n.rgn l false) then none
    else if s.anyBad [tag, src] then some ((s.foundAll n.ctx [tag, src]).endSnap die n (some { reason := 8, side := 0, addr := BitVec.ofNat 64 src }))
    else match s.snapDest die n va with
      | .error .pageNotPresent => some ((s.modSnap die n.id fun x => { x with paused := true }).logRecord n.ctx
          { words := [recWord0 1 3 1, BitVec.ofNat 64 va, s.opWord2 n.ctx n.gid, 0, 0, 0, s.opWord6 n.ctx n.gid, 0], origin := .snap die n.id })
      | .error c =>
        let s1 := if c = .dataError then (match s.translateDie die n.ctx .write va with | .ok pa => s.found n.ctx pa | .error _ => s) else s
        some (s1.endSnap die n (some { reason := c.code, side := 1, addr := BitVec.ofNat 64 va }))
      | .ok pa => (s.snapPut die n va pa (s.bytes src 64)).map fun r =>
        let n1 : Snap := { n with copied := n.copied ++ [l], deps := r.1 }
        if r.1.isEmpty && (r.2.snapLine n1).isNone then r.2.endSnap die n none else r.2.modSnap die n.id fun _ => n1
/-- SNAPSHOT_LINE (R373). -/
def execSnapshotLine (die : Nat) (s : State) : Host.Outcome State Fault Refusal :=
  match ((s.die die).snaps.find? fun n => !n.paused && !n.deps.any s.pendingId).bind (s.snapStep die) with
  | none => .refused (.notEnabled "SNAPSHOT_LINE")
  | some s1 => .next s1

/-- STEPREC_WRITE (R365): only while no region of the context is enabled; C is loaded from the record. With REC = 0 there is none to load
it from, and it stays (log 122, DESIGN CHOICE). -/
def execSteprecWrite (ctx : Nat) (v : Dword) (s : State) : Host.Outcome State Fault Refusal :=
  let v1 := v &&& 0x003FFFFFFFFFFFC0
  let s1 := s.modCtx ctx fun c => { c with stepRec := v1 }
  event "STEPREC_WRITE" (s.on && decide (ctx < 64))
    (if (s.ctx ctx).regions.any (·.en) then s
     else if v1 = 0 then s1
     else s1.setStep ctx (s.word (s.pkg * 2 ^ 42 + v1.toNat % 2 ^ 42) 4))
/-- The spans of the areas of a region. -/
def Region.spans (r : Region) : List (Nat × Nat) :=
  [(r.pa0, r.pa0 + 64 * r.lines), (r.pa1, r.pa1 + 64 * r.lines), (r.tags, r.tags + 8 * r.lines)]
/-- Whether two spans meet. -/
def spansMeet (a b : Nat × Nat) : Bool := decide (a.1 < b.2) && decide (b.1 < a.2)
/-- Whether SRCTL.EN = 1 is refused (R365). -/
def State.regionBad (s : State) (ctx : Nat) (r : Region) : Bool :=
  let sp := r.spans
  let homes := sp.flatMap fun p => [homeDie p.1, homeDie (p.2 - 1)]
  let inPkg := sp.all fun p => pkgOf p.1 == s.pkg && pkgOf (p.2 - 1) == s.pkg && inScm p.1
  let own := spansMeet (sp.getD 0 (0, 0)) (sp.getD 1 (0, 0)) || spansMeet (sp.getD 0 (0, 0)) (sp.getD 2 (0, 0))
    || spansMeet (sp.getD 1 (0, 0)) (sp.getD 2 (0, 0))
  let others := s.ctxs.any fun c => c.2.regions.any fun x => x.en && x.spans.any fun a => sp.any fun b => spansMeet a b
  let frozen := (List.range r.npg).any fun k => s.pageState (pageOf r.pa0 + k) != 0
  decide (r.npg < 1) || decide (r.npg > 6291456) || !inPkg || homes.any (fun h => h != homes.headD none || h.isNone) || own || others
    || decide ((s.ctx ctx).rec_ = 0) || frozen
/-- Replaces a region's registers. -/
def State.setRegion (s : State) (ctx r : Nat) (x : Region) : State := s.modCtx ctx fun c => { c with regions := c.regions.set r x }
/-- REGION_ENABLE (R365, R372): refused, EN stays 0; accepted, the enable sweep begins. -/
def execRegionEnable (ctx r : Nat) (v : Dword) (s : State) : Host.Outcome State Fault Refusal :=
  let old := s.region ctx r
  let off : Region := { old with ctl := v &&& 0x7FFFFF }
  event "REGION_ENABLE" (s.on && decide (ctx < 64) && decide (r < 16) && v.getLsbD 31)
    (if old.en then s
     else if s.regionBad ctx off then s.setRegion ctx r off
     else s.setRegion ctx r { off with ctl := off.ctl ||| 0xC0000000 })
/-- ENABLE_SWEEP_END (R372): versions above C are absent. It comes once the sweep's tag words have drained, so the write-back
queue of the region's die is empty. -/
def execEnableSweepEnd (ctx r : Nat) (s : State) : Host.Outcome State Fault Refusal :=
  let reg := s.region ctx r
  let d := (homeDie reg.tags).getD 0
  let cells := s.sweepCells ctx r fun t => decide (t > (s.ctx ctx).stepC)
  event "ENABLE_SWEEP_END" (reg.en && reg.ctl.getLsbD 30 && (s.die d).wbq.isEmpty)
    (((({ s with mem := cells.foldl (fun m c => Mem.write m c.1 c.2) s.mem } : State).modDie d fun x =>
      { x with scm := cells.foldl (fun m c => Mem.write m c.1 c.2) x.scm })).setRegion ctx r { reg with ctl := reg.ctl &&& ~~~(0x40000000 : Dword) })

/-- A die once its write-back queue has drained wholly (R360): the stack keeps every write that entered. -/
def Die.drained (d : Die) : Mem := d.wbq.foldl (fun m e => e.foldl (fun m c => Mem.write m c.1 c.2) m) d.scm
/-- The package's memory under another package number: addresses of its stacks follow the number (R265, R389). -/
def State.setPkg (s : State) (p : Nat) : State :=
  let key (a : Nat) : Nat := a % 2 ^ 42 + p * 2 ^ 42
  let go (m : Mem) : Mem := m.foldl (fun m c => Mem.write m (key c.1) c.2) []
  let die (d : Die) : Die := { d with
    scm := go d.scm, wbq := d.wbq.map fun e => e.map fun c => (key c.1, c.2), errset := d.errset.map fun l => lineOf (key (64 * l))
    struck := d.struck.map fun l => lineOf (key (64 * l)), dir := d.dir.map fun e => (e.1 % 2 ^ 25 + p * 2 ^ 25, e.2) }
  if p = s.pkg then s else { s with pkg := p, mem := go s.mem, dies := s.dies.map fun d => (d.1, die d.2) }
/-- The package without power (R360, R361): the stacks hold every write that had entered a write-back queue, and all else is
lost, FABID with it: bring-up gives the package its number anew (R385, R389). -/
def State.dark (s : State) : State :=
  let dies := (List.range 4).map fun d => (d, ({ scm := (s.die d).drained } : Die))
  let mem := dies.foldl (fun m d => d.2.scm.foldl (fun m c => Mem.write m c.1 c.2) m) []
  { State.reset with on := false, dies := dies, mem := mem, pkg := s.pkg, fresh := s.fresh, nextId := s.nextId, agenda := s.agenda, focus := s.focus } |>.setPkg 0
/-- POWER_FAILURE (R360, R361). -/
def execPowerFailure (s : State) : Host.Outcome State Fault Refusal := event "POWER_FAILURE" s.on s.dark

end Sys2Proof.Machine
end

