-- ==== Sys2Proof/Machine/LaunchEvents.lean ====
section
/-! DEFINITION. The Hearth at work: launch queues, predecessors, placement, completion, power gating and the kernel table
(R333 to R345). -/

namespace Sys2Proof.Machine

/-- Setting a bit of ALERT raises an in-band interrupt with the new bits; a set bit raises nothing more (R383). -/
def State.alert (s : State) (bit : Nat) : State :=
  if s.power.alert.getLsbD bit then s
  else
    let b : BitVec 5 := 1#5 <<< bit
    { s with power := { s.power with alert := s.power.alert ||| b, ibi := s.power.ibi ++ [b] } }
/-- A host-link violation clamps the host link (R351, R356). -/
def State.clampLink (s : State) : State := ({ s with linkClamped := true } : State).alert 0
/-- Bring-up is complete (R385). -/
def State.ready (s : State) : Bool := decide (s.power.stage ≥ 7)
/-- A host write as the link lets it through: not before STAGE 6, without effect before STAGE 7 or over a clamped link (R351,
R385). -/
def State.hostDoes (s : State) (k : State → State) : State := if s.ready && !s.linkClamped then k s else s
/-- Whether the host can write at all (R385). -/
def State.hostUp (s : State) : Bool := s.on && decide (s.power.stage ≥ 6)

/-- LQPROD_WRITE (R333, R356). -/
def execLqprodWrite (q : Nat) (v : Dword) (s : State) : Host.Outcome State Fault Refusal :=
  let lq := s.lq q
  let pi := v.toNat % 2 ^ 32
  event "LQPROD_WRITE" (s.hostUp && decide (q < 64)) (s.hostDoes fun s =>
    if lq.src || decide ((pi + 2 ^ 32 - lq.ci) % 2 ^ 32 > lq.size) then s.clampLink else s.setLq q { lq with pi := pi })

/-- A launch queue halts at record CI, and firmware is told, with the faulting address or 0 (R334, R351). -/
def State.haltQueue (s : State) (q cause off addr : Nat) : State :=
  let lq := s.lq q
  (s.setLq q { lq with halt := true, cause := cause, off := off }).logRecord lq.ctx
    (clampRec (s.recWord2Ctx lq.ctx 0) 0 2 7 cause q (BitVec.ofNat 64 addr))
/-- Whether a queue may start the record at CI, its predecessors apart (R334). -/
def State.mayStart (s : State) (q : Nat) : Bool :=
  let lq := s.lq q
  s.on && lq.en && !lq.halt && lq.pi != lq.ci && !lq.clamped && (s.ctx lq.ctx).valid && (s.ctx lq.ctx).state == .active
/-- The record at CI. -/
def State.recordAt (s : State) (q : Nat) : List Dword := s.dwords (s.recordPa (s.lq q) (s.lq q).ci) 32
/-- What the Hearth finds at a predecessor (R335): satisfied or not, or the cause of a failed read. An enable sweep holds the read up
(R372). -/
def State.readPred (s : State) (ctx : Nat) (ws : List Dword) (n : Nat) : Except Cause Bool :=
  let va := (ws.getD (12 + 2 * n) 0).toNat
  match useLeaf .read va (s.walk ctx va) with
  | .error c => .error c
  | .ok pa =>
    if s.sweeping pa then .ok false
    else if pkgOf pa ≠ s.pkg || s.anyBad (s.readPas pa 0) then .error .dataError
    else .ok (decide (ofBytes (s.homeRead pa 8 0) ≥ (ws.getD (13 + 2 * n) 0).toNat))
/-- The predecessors of a record that are not satisfied yet. -/
def Lq.unsat (lq : Lq) (ws : List Dword) : List Nat :=
  (List.range 4).filter fun n => ws.getD (12 + 2 * n) 0 != 0 && !lq.sat.contains n
/-- Reads one predecessor: its queue halts, or it counts as satisfied from now on. -/
def State.testPred (s : State) (q n : Nat) : State :=
  let lq := s.lq q
  let va := ((s.recordAt q).getD (12 + 2 * n) 0).toNat
  match s.readPred lq.ctx (s.recordAt q) n with
  | .error c =>
    let s1 := match useLeaf .read va (s.walk lq.ctx va) with | .ok pa => s.foundAll lq.ctx (s.readPas pa 0) | .error _ => s
    s1.haltQueue q c.code (0x60 + 16 * n) va
  | .ok true => s.setLq q { lq with sat := lq.sat ++ [n] }
  | .ok false => s
/-- The record at CI starts: it has a GRID number, and its blocks can be placed (R334). -/
def State.startRecord (s : State) (q : Nat) : State :=
  let lq := s.lq q
  let ws := s.recordAt q
  let (order, s1) := s.newId
  match (s.ctx lq.ctx).kernels.get? (recKh ws) with
  | none => s
  | some k =>
    let x : Grid := { ctx := lq.ctx, words := ws, kernel := k, next := 0, live := 0, passed := 0, order := order }
    ({ s1 with grids := s1.grids.set s.nextGrid x, nextGrid := (s.nextGrid + 1) % 2 ^ 32 } : State).setLq q
      { lq with ci := (lq.ci + 1) % 2 ^ 32, sat := [] }
/-- The Hearth at the record at CI: a bad record halts its queue; its predecessors are read; satisfied, it starts. -/
def State.tryRecord (s : State) (q : Nat) : State :=
  let lq := s.lq q
  let ws := s.recordAt q
  let pas := (List.range 4).map fun k => s.recordPa lq lq.ci + 64 * k
  if s.anyBad pas then (s.foundAll lq.ctx pas).haltQueue q Cause.dataError.code 0 ((pas.find? s.lineBad).getD 0)
  else match s.recordBad lq.ctx ws with
    | some off => s.haltQueue q Cause.illegalOperand.code off 0
    | none =>
      let s1 := (lq.unsat ws).foldl (fun s n => if (s.lq q).halt then s else s.testPred q n) s
      if (s1.lq q).halt || !((s1.lq q).unsat ws).isEmpty then s1 else s1.startRecord q
/-- RECORD_START (R334, R335, R337). -/
def execRecordStart (q : Nat) (s : State) : Host.Outcome State Fault Refusal :=
  event "RECORD_START" (s.mayStart q) (s.tryRecord q)
/-- PREDECESSOR_READ (R335). -/
def execPredecessorRead (q n : Nat) (s : State) : Host.Outcome State Fault Refusal :=
  event "PREDECESSOR_READ" (s.mayStart q && (s.recordBad (s.lq q).ctx (s.recordAt q)).isNone && ((s.lq q).unsat (s.recordAt q)).contains n)
    (s.testPred q n)

/-- The number of blocks of a grid. -/
def Grid.total (x : Grid) : Nat := let (a, b, c) := recGrid x.words; a * b * c
/-- Fields of a grid's RES word. -/
def Grid.res (x : Grid) : Nat := (x.words.getD 5 0).toNat
/-- The launch priority of a grid's groups (R342). -/
def State.gridPrio (s : State) (x : Grid) : Nat := min (resPrio x.res) (s.ctx x.ctx).prioMax
/-- Whether every access of a grid has been performed (R335): none is under way, and no L1 holds dirty bytes of it. -/
def State.gridQuiet (s : State) (grid : Nat) : Bool :=
  !s.accs.any (fun a => !a.done && (a.grid == grid || a.marks.any fun m => m.grid == grid))
    && !s.cores.any fun c => c.2.l1.any fun l => l.2.marks.any fun m => m.grid == grid
/-- Whether a grid has completed (R335): every block placed and retired, no CL or PS operation of it outstanding, and every access of it
performed, as the release of its completion needs. -/
def State.gridDone (s : State) (grid : Nat) (x : Grid) : Bool :=
  decide (x.next ≥ x.total) && decide (x.live = 0) && !(s.ctx x.ctx).ghosts.any (fun g => g.grid == grid) && s.gridQuiet grid
/-- The increment of a completion counter at home, or the record of one that fails (R299, R335): it holds the physical address where there
is one. A word of another package is none of a completion counter's. None while its home cannot take it. -/
def State.complete (s : State) (ctx va : Nat) : Option State :=
  let failed (s : State) (a : Nat) : State := s.logRecord ctx
    { words := [recWord0 3 6 2, BitVec.ofNat 64 a, s.recWord2Ctx ctx 0, 0, 0, 0, 0, 0], origin := .none }
  match useLeaf .atomic va (s.walk ctx va) with
  | .error _ => some (failed s va)
  | .ok pa =>
    if pkgOf pa ≠ s.pkg || (s.denied ((homeDie pa).getD 0) 0 .atomic pa).isSome then some (failed s pa)
    else if s.lineBad pa then some (failed (s.found ctx pa) pa)
    else if !s.wbqRoom pa then none
    else some (s.homeBytes pa (bytesOf 8 ((s.word pa 8 + 1) % 2 ^ 64)))
/-- GRID_COMPLETE (R335). -/
def execGridComplete (grid : Nat) (s : State) : Host.Outcome State Fault Refusal :=
  match s.grids.get? grid with
  | none => .refused (.notEnabled "GRID_COMPLETE")
  | some x =>
    let s0 : State := { s with grids := s.grids.erase grid }
    let comp := (x.words.getD 20 0).toNat
    match if s.gridDone grid x then (if comp = 0 then some s0 else s0.complete x.ctx comp) else none with
    | none => .refused (.notEnabled "GRID_COMPLETE")
    | some s1 => .next s1

/-- The registers of a partition that no group or pool has reserved (R183). -/
def State.unreserved (s : State) (core part : Nat) : Nat :=
  let here := s.groups.filter fun p => p.2.core == core && p.2.part == part
  let caps := here.foldl (fun n p => n + p.2.cap) 0
  let pools := ((here.map fun p => p.2.blk).dedup).foldl (fun n b => n + (s.block b).pool) 0
  256 - caps - pools
/-- The free positions of a partition, the lowest first (R164). -/
def State.freePositions (s : State) (core part : Nat) : List Nat :=
  (List.range 8).filter fun k => (s.groups.get? (96 * core + 8 * part + k)).isNone
/-- The partition a group of a core goes to: the most unreserved registers, ties to the lower index (R343). -/
def State.bestPart (s : State) (core : Nat) : Option Nat :=
  (List.range 12).foldl (fun acc p =>
    if (s.freePositions core p).isEmpty then acc
    else match acc with
      | none => some p
      | some b => if s.unreserved core p > s.unreserved core b then some p else some b) none
/-- The tiles of a core that are free (R207). -/
def State.freeTiles (s : State) (core : Nat) : Nat := 32 - (s.residents core).foldl (fun n g => n + (s.group g).budM) 0
/-- The accumulator slots of a quad that are free (R226). -/
def State.freeAccs (s : State) (q : Nat) : Nat :=
  32 - s.groups.foldl (fun n p => if quadOf p.2.core = q then n + p.2.budC else n) 0
/-- The scratchpad bytes of a core that are free (R199). -/
def State.freeSpad (s : State) (core : Nat) : Nat :=
  262144 - s.blocks.foldl (fun n b => if b.2.cores.contains core then n + b.2.spad else n) 0
/-- Whether a quad has a resident group. -/
def State.quadHeld (s : State) (q : Nat) : Bool := s.groups.any fun p => quadOf p.2.core == q
/-- Whether a core holds groups of no other context (R218). -/
def State.coreFor (s : State) (core ctx : Nat) : Bool := (s.residents core).all fun g => (s.group g).ctx == ctx

/-- What writing every dirty byte of some L1 arrays home comes to: all are there; some have left, and homes have still to take them; or
there is nothing to do but wait. -/
inductive Flush where
  | clean (s : State)
  | begun (s : State)
  | waits
/-- Whether L1 arrays hold no dirty byte and none is on its way home. -/
def State.cleanL1s (s : State) (l1s : List Nat) : Bool :=
  l1s.all fun l => (s.allWbs l).isEmpty && (s.core l).l1.all fun x => x.2.dirty == 0
/-- Every dirty byte of some L1 arrays goes home (R225, R345, R348): those that their homes can take now are performed. -/
def State.flush (s : State) (l1s : List Nat) : Flush :=
  let s1 := l1s.foldl (fun s l => s.wbAll l) s
  let idle (s : State) (id : Nat) : Option Access := s.accs.find? fun a => a.id == id && !a.sent && !a.done
  let ids := (l1s.flatMap s1.allWbs).filter fun id => (idle s1 id).isSome
  let s2 := ids.foldl (fun s id => match idle s id with
    | some a => (s.performNow a).getD s
    | none => s) s1
  if s2.cleanL1s l1s then .clean s2
  else if (l1s.any fun l => (s.core l).l1.any fun x => x.2.dirty != 0) || ids.any fun id => (idle s2 id).isNone then .begun s2
  else .waits
/-- The lines of L1 arrays go, frozen copies perhaps apart. -/
def State.emptyL1s (s : State) (l1s : List Nat) (keepFrozen : Bool) : State :=
  l1s.foldl (fun s l => s.modCore l fun c => { c with l1 := c.l1.filter fun x => keepFrozen && x.2.frozen }) s
/-- The L1 arrays of a quad. -/
def quadL1s (q : Nat) : List Nat := (List.range 4).map (4 * q + ·)
/-- The quads among some whose mode would have to change for a block, and can (R225). -/
def State.toRemode (s : State) (quads : List Nat) (fuse : Bool) : List Nat :=
  quads.filter fun q => (s.quad q).fused != fuse && !s.quadHeld q
/-- A quad in the mode that a block needs: it changes only while it is empty and home has every byte of it (R225). -/
def State.fuseQuad (s : State) (q : Nat) (fuse : Bool) : Option State :=
  if (s.quad q).fused = fuse then some s
  else if s.quadHeld q || !s.cleanL1s (quadL1s q) then none
  else some ((s.emptyL1s (quadL1s q) false).modQuad q fun x => { x with fused := fuse })
/-- A placement that goes on once the quads whose mode it changes have written their dirty bytes home; the first part of one is that
(R225). None where it cannot be. -/
def State.remoded (s : State) (quads : List Nat) (fuse : Bool) (k : State → Option State) : Option State :=
  match s.toRemode quads fuse with
  | [] => k s
  | qs => match s.flush (qs.flatMap quadL1s) with
    | .clean s1 => k s1
    | .begun s1 => some s1
    | .waits => none
/-- A core goes to a context: the deque's entries follow their contexts (R218), and the planes of a quad that holds no group are as at
reset (R247). -/
def State.takeCore (s : State) (core ctx : Nat) : State :=
  let c := s.core core
  if c.ctx = some ctx then s
  else
    let s1 := match c.ctx with
      | none => s
      | some old => s.modCtx old fun x => { x with deques := x.deques.set core c.deque }
    let d := (s1.ctx ctx).deques.getD core []
    let s2 := if s1.groups.any fun p => quadOf p.2.core == quadOf core then s1
      else s1.modQuad (quadOf core) fun x => { x with planes := ({} : Quad).planes }
    (s2.modCtx ctx fun x => { x with deques := x.deques.erase core }).modCore core fun c => { c with ctx := some ctx, deque := d }
/-- What a block needs of the places its groups go to (R343). -/
structure BlockNeed where
  ctx : Nat
  span : Nat
  isLocal : Bool
  fuse : Bool
  spad : Nat
  reserve : Nat
/-- Whether the places of a block's groups lie within its span and a partition-local block's in one partition. -/
def BlockNeed.shape (n : BlockNeed) (at_ : List Place) : Bool :=
  match at_ with
  | [] => false
  | p :: _ => at_.all fun x => decide (x.core < 512) && decide (x.part < 12) &&
      (match n.span with | 0 => x.core == p.core | 1 => quadOf x.core == quadOf p.core | _ => dieOf x.core == dieOf p.core) &&
      (!n.isLocal || x == p)
/-- The cores of a block by rank (R199). -/
def BlockNeed.ranks (n : BlockNeed) (at_ : List Place) : List Nat :=
  let first := (at_.head?.map (·.core)).getD 0
  match n.span with
  | 0 => [first]
  | 1 => (List.range 4).map (4 * quadOf first + ·)
  | _ => sortBy id ((at_.map (·.core)).dedup)
/-- Seats one group: its name here, and the state that holds it. -/
def State.seatOne (s : State) (n : BlockNeed) (g : Group) (p : Place) : Option (Nat × State) :=
  match (s.freePositions p.core p.part).head? with
  | none => none
  | some k =>
    let gid := 96 * p.core + 8 * p.part + k
    if (n.isLocal || (s.bestPart p.core == some p.part && decide (g.cap ≤ s.unreserved p.core p.part)))
        && decide (g.budM ≤ s.freeTiles p.core) && decide (g.budC ≤ s.freeAccs (quadOf p.core)) && s.coreFor p.core n.ctx then
      some (gid, s.setGroup gid { g with core := p.core, part := p.part, pos := k })
    else none
/-- Seats the groups of a block, all or none (R343): their names, and the state that holds them. -/
def State.seat (s : State) (n : BlockNeed) (gs : List Group) (at_ : List Place) : Option (List Nat × State) :=
  let first := at_.headD { core := 0, part := 0 }
  let localOk := !n.isLocal || (s.bestPart first.core == some first.part && decide (n.reserve ≤ s.unreserved first.core first.part))
  if gs.length ≠ at_.length ∨ n.shape at_ = false ∨ localOk = false ∨ (n.ranks at_).any (fun c => decide (s.freeSpad c < n.spad)) = true then none
  else
    let quads := (at_.map fun p => quadOf p.core).dedup
    let moded := quads.foldl (fun (acc : Option State) q => acc.bind fun s => s.fuseQuad q n.fuse) (some s)
    match moded with
    | none => none
    | some s0 =>
      let s1 := ((at_.map (·.core)).dedup).foldl (fun s c => s.takeCore c n.ctx) s0
      (gs.zip at_).foldl (fun (acc : Option (List Nat × State)) x => acc.bind fun r =>
        (r.2.seatOne n x.1 x.2).map fun q => (r.1 ++ [q.1], q.2)) (some ([], s1))
/-- The lines of the first 4 KiB of code from an entry that a core does not hold (R158). -/
def Core.firstCode (c : Core) (ctx : Nat) (entry : CodeAddr) : List Nat :=
  ((List.range 65).map fun k => (entry.toNat / 64 + k) % 2 ^ 50).filter fun n =>
    decide ((n + 2 ^ 50 - entry.toNat / 64) % 2 ^ 50 ≤ (entry.toNat % 64 + 4095) / 64) && !c.icache.any fun l => l.ctx == ctx && l.line == n
/-- What follows the seating of a block's groups: an acquire at pkg scope for every lane (R335, R350), the block's first code, which its
cores load before a group of it issues there (R158), levels, idle timers and readiness. -/
def State.settled (s : State) (ctx blk : Nat) (entry : CodeAddr) (at_ : List Place) : State :=
  let cores := (at_.map (·.core)).dedup
  let s0 := cores.foldl (fun s c => (s.invalidate (s.l1Of c)).modCore c fun k =>
    { k with preload := k.preload ++ (k.firstCode ctx entry).map fun n => (blk, n) }) s
  let s1 := ((cores.map domOf).dedup).foldl (fun s d => s.relevel d) s0
  let s2 := ((cores.map quadOf).dedup).foldl (fun s q => s.markIdle q) s1
  cores.foldl (fun s c => if (s.core c).running then s.testCore c else s) s2

/-- What a grid's blocks need. -/
def Grid.need (x : Grid) (caps : List Nat) : BlockNeed :=
  { ctx := x.ctx, span := resSpan x.res, isLocal := resLocal x.res, fuse := resFuse x.res, spad := resSpad x.res
    reserve := caps.foldl (· + ·) 0 }
/-- The caps of a block's groups: one for all, or entry j for group j and the last for those beyond the list (R183, R221). -/
def Grid.caps (x : Grid) : List Nat :=
  let cs := vcapsOf (x.words.getD 6 0).toNat
  (List.range (groupsOf (x.words.getD 4 0).toNat)).map fun j => cs.getD j (cs.getLastD 0)
/-- A format slot of a launch record (R336). -/
def recSlot (ws : List Dword) (k : Nat) : Word := ((ws.getD (8 + k / 2) 0) >>> (32 * (k % 2))).setWidth 32
/-- The entry of a grid's kernel. -/
def Grid.entry (x : Grid) : CodeAddr := (x.words.getD 0 0).setWidth 56
/-- A group of a block as it is launched (R82, R189, R194, R207, R226). -/
def State.newGroup (s : State) (grid blk : Nat) (x : Grid) (j cap : Nat) : Group :=
  let threads := threadsOf (x.words.getD 4 0).toNat
  let entry := x.entry
  let mask := Mask.ofFn fun l => decide (32 * j + l < threads)
  let lane (l : Nat) : Lane := if mask.getLsbD l then { lst := .bound, lpc := entry } else {}
  let g0 : List Word := List.replicate 160 0
  let arg := x.words.getD 1 0
  { ctx := x.ctx, grid := grid, blk := blk, index := j, prio := s.gridPrio x, cap := cap
    lanes := laneIdx.map lane, slots := { valid := true, spc := entry, amask := mask } :: List.replicate 3 {}
    budG := resG x.res, budM := resM x.res, budC := resC x.res
    g := if 2 ≤ resG x.res then (g0.set 0 (arg.setWidth 32)).set 1 ((arg >>> 32).setWidth 32) else g0
    sys := { tvec := (s.ctx x.ctx).tvec } }
/-- The next block of a grid placed at once (R200, R343); none where it cannot be. -/
def State.placeNow (s : State) (grid : Nat) (at_ : List Place) : Option State :=
  match s.grids.get? grid with
  | none => none
  | some x =>
    let (nx, ny, nz) := recGrid x.words
    let blk := s.nextBlock
    let gs := x.caps.mapIdx fun j cap => s.newGroup grid blk x j cap
    let n := x.need x.caps
    (s.seat n gs at_).map fun r =>
      let b : Block :=
        { ctx := x.ctx, grid := grid, coords := (x.next % nx, x.next / nx % ny, x.next / (nx * ny)), extent := (nx, ny, nz), span := n.span
          cores := n.ranks at_, groups := r.1, ngroups := gs.length, isLocal := n.isLocal, spad := n.spad
          fmts := (List.range 8).map (recSlot x.words), itt := x.kernel.itt }
      let x1 : Grid := { x with next := x.next + 1, live := x.live + gs.length, passed := 0 }
      ({ (r.2.setBlock blk b) with nextBlock := blk + 1, grids := r.2.grids.set grid x1 } : State).settled x.ctx blk x.entry at_

/-- Whether a grid has a block that may be placed now (R342, R348, R351). -/
def State.offers (s : State) (x : Grid) : Bool :=
  decide (x.next < x.total) && (s.ctx x.ctx).valid && (s.ctx x.ctx).state == .active
/-- How many groups of a cap and tile need a core can take. -/
def State.coreRoom (s : State) (ctx cap budM spad core : Nat) : Nat :=
  if !s.coreFor core ctx || decide (s.freeSpad core < spad) then 0
  else
    let regs := (List.range 12).foldl (fun n p => n + min (s.freePositions core p).length (s.unreserved core p / max 1 cap)) 0
    if budM = 0 then regs else min regs (s.freeTiles core / budM)
/-- How many groups of a block a quad can take. -/
def State.quadRoom (s : State) (ctx res cap q : Nat) : Nat :=
  if (s.quad q).fused != resFuse res && s.quadHeld q then 0
  else
    let n := (List.range 4).foldl (fun n k => n + s.coreRoom ctx cap (resM res) (resSpad res) (4 * q + k)) 0
    if resC res = 0 then n else min n (s.freeAccs q / resC res)
/-- Whether a block of a RES word, of groups of these caps and with a pool, fits somewhere (R343). -/
def State.fitsOf (s : State) (ctx res : Nat) (caps : List Nat) (pool : Nat) : Bool :=
  let cap := caps.headD 1
  let n := caps.length
  let modeOk (core : Nat) : Bool := (s.quad (quadOf core)).fused == resFuse res || !s.quadHeld (quadOf core)
  if resLocal res then
    (List.range 512).any fun c => modeOk c && s.coreFor c ctx && decide (s.freeSpad c ≥ resSpad res) && decide (n * resM res ≤ s.freeTiles c)
      && decide (n * resC res ≤ s.freeAccs (quadOf c)) && (match s.bestPart c with
        | some p => decide ((s.freePositions c p).length ≥ n) && decide (caps.foldl (· + ·) pool ≤ s.unreserved c p)
        | none => false)
  else match resSpan res with
    | 0 => (List.range 512).any fun c => modeOk c && decide (min (s.coreRoom ctx cap (resM res) (resSpad res) c)
        (if resC res = 0 then n else s.freeAccs (quadOf c) / resC res) ≥ n)
    | 1 => (List.range 128).any fun q => (List.range 4).all (fun k => decide (s.freeSpad (4 * q + k) ≥ resSpad res)) && decide (s.quadRoom ctx res cap q ≥ n)
    | _ => (List.range 4).any fun d => decide ((List.range 32).foldl (fun m k => m + s.quadRoom ctx res cap (32 * d + k)) 0 ≥ n)
/-- Whether the next block of a grid fits somewhere (R343). -/
def State.fits (s : State) (x : Grid) : Bool := s.fitsOf x.ctx x.res x.caps 0
/-- Whether a saved block fits somewhere, with a free plane for each that its groups own (R343, R350). -/
def State.savedFits (s : State) (ctx : Nat) (b : Block) : Bool :=
  match s.grids.get? b.grid with
  | none => false
  | some x =>
    let c := s.ctx ctx
    let gs := c.savedGroups.filter fun g => b.groups.contains g.1
    s.fitsOf ctx x.res (gs.map fun g => g.2.cap) b.pool &&
      (!(c.savedPlanes.any fun p => b.groups.contains p.1) || (List.range 128).any fun q => (s.quad q).planes.all fun p => p.owner.isNone)
/-- Whether a grid's blocks come before another's (R342). -/
def State.precedes (s : State) (y x : Grid) : Bool :=
  decide (s.gridPrio y > s.gridPrio x) || (s.gridPrio y == s.gridPrio x && decide (y.order < x.order))
/-- What waits to be placed before a block: grids, and saved blocks of contexts whose SWIN waits, by context and name (R342, R350). -/
structure Waiting where
  grids : List Nat
  saved : List (Nat × Nat)
/-- The waiting blocks that a placement of a block of this grid passes over. -/
def State.passedOver (s : State) (grid : Nat) (x : Grid) : Waiting :=
  { grids := (s.grids.filter fun y => y.1 != grid && s.offers y.2 && s.precedes y.2 x).map Prod.fst
    saved := s.ctxs.flatMap fun c => if c.1 != x.ctx && c.2.swin && c.2.state == .switchedOut then
        (c.2.savedBlocks.filter fun b => match s.grids.get? b.2.grid with | some y => s.precedes y x | none => false).map fun b => (c.1, b.1)
      else [] }
/-- Whether waiting blocks let a later one pass: none fits, and none has been passed over 1,024 times (R343). -/
def State.mayPass (s : State) (w : Waiting) : Bool :=
  (w.grids.all fun y => match s.grids.get? y with | some g => !s.fits g && decide (g.passed < 1024) | none => true)
    && w.saved.all fun p => match (s.ctx p.1).savedBlocks.find? fun b => b.1 == p.2 with
      | some b => !s.savedFits p.1 b.2 && decide (b.2.passed < 1024)
      | none => true
/-- One pass over counted for each waiting block (R343). -/
def State.countPass (s : State) (w : Waiting) : State :=
  let up (y : Nat × Grid) : Nat × Grid := if w.grids.contains y.1 then (y.1, { y.2 with passed := y.2.passed + 1 }) else y
  let s1 : State := { s with grids := s.grids.map up }
  w.saved.foldl (fun s p => s.modCtx p.1 fun c => { c with
    savedBlocks := c.savedBlocks.map fun (b : Nat × Block) => (b.1, { b.2 with passed := b.2.passed + if b.1 = p.2 then 1 else 0 }) }) s1
/-- Whether a block of a grid is dispatched to quads that are still waking. -/
def State.dispatched (s : State) (grid : Nat) : Bool :=
  s.quads.any fun q => match q.2.dispatch with | some d => d.1 == grid | none => false
/-- The Hearth's choice: placed, or dispatched to quads that must wake first (R345); the dirty bytes of a quad that changes its mode leave
before (R225). None where R342 and R343 do not let it. -/
def State.placeBlock (s : State) (grid : Nat) (at_ : List Place) : Option State :=
  match s.grids.get? grid with
  | none => none
  | some x =>
    let ahead := s.passedOver grid x
    let quads := (at_.map fun p => quadOf p.core).dedup
    if !s.on || !s.offers x || s.dispatched grid || !s.mayPass ahead then none
    else s.remoded quads (resFuse x.res) fun s =>
      (s.placeNow grid at_).map fun placed =>
        if quads.all fun q => (s.quad q).gate == .on then placed.countPass ahead
        else quads.foldl (fun s q => s.modQuad q fun z =>
          { z with dispatch := some (grid, at_), gate := if z.gate = .gated then .waking else z.gate }) s
/-- BLOCK_PLACEMENT (R342, R343, R345). -/
def execBlockPlacement (grid : Nat) (at_ : List Place) (s : State) : Host.Outcome State Fault Refusal :=
  match s.placeBlock grid at_ with
  | none => .refused (.notEnabled "BLOCK_PLACEMENT")
  | some s1 => .next s1

/-- Whether a quad is idle (R345). -/
def State.quadIdle (s : State) (q : Nat) : Bool :=
  !s.quadHeld q && (s.quad q).table.isEmpty && (s.quad q).planes.all fun p => p.owner.isNone
/-- Power goes from a quad whose dirty bytes are home: what it held is lost; TIME has gone on for THRESH grains (R345). -/
def State.powerOff (s : State) (q : Nat) : State :=
  let x := s.quad q
  let due := (x.idleAt.getD 0) + x.thresh.toNat
  let s1 := (s.emptyL1s (quadL1s q) false).modQuad q fun z => { z with gate := .gated, qtlb := [], planes := [{}, {}] }
  (List.range 4).foldl (fun s k => s.modCore (4 * q + k) fun c =>
    { c with running := false, icache := [], preload := [], utlb := [], held := [], taken := [], time := max c.time due }) s1
/-- The gate sequence: every dirty byte goes home, then power goes (R345); none while there is nothing to do but wait for homes. -/
def State.gate (s : State) (q : Nat) : Option State :=
  match s.flush (quadL1s q) with
  | .clean s1 => some (s1.powerOff q)
  | .begun s1 => some s1
  | .waits => none
/-- GATE_REQUEST (R345): the quad has been idle for THRESH grains; a pending dispatch withdraws the request. -/
def execGateRequest (quad : Nat) (s : State) : Host.Outcome State Fault Refusal :=
  let x := s.quad quad
  match if s.on && decide (quad < 128) && x.gate == .on && x.thresh != 0 && s.quadIdle quad && x.dispatch.isNone then s.gate quad else none with
  | none => .refused (.notEnabled "GATE_REQUEST")
  | some s1 => .next s1
/-- A quad's voltage has settled: the block dispatched to it is placed once all its quads are awake (R345). -/
def State.wakeQuad (s : State) (q : Nat) : State :=
  let s1 := s.modQuad q fun x => { x with gate := .on, idleAt := some (s.core (4 * q)).time }
  match (s.quad q).dispatch with
  | none => s1
  | some (grid, at_) =>
    let quads := (at_.map fun p => quadOf p.core).dedup
    if quads.all fun k => (s1.quad k).gate == .on then
      let s2 := quads.foldl (fun s k => s.modQuad k fun x => { x with dispatch := none }) s1
      match s2.grids.get? grid with
      | none => s2
      | some x => if s2.offers x then ((s2.placeNow grid at_).map fun t => t.countPass (s2.passedOver grid x)).getD s2 else s2
    else s1
/-- QUAD_WAKE (R345). -/
def execQuadWake (quad : Nat) (s : State) : Host.Outcome State Fault Refusal :=
  event "QUAD_WAKE" (s.on && (s.quad quad).gate == .waking) (s.wakeQuad quad)

/-- The groups of an indirect-target table, where it obeys R340. -/
def ittParse : Nat → List Dword → Option Nat → Option (List IttGroup)
  | _, [], _ => some []
  | 0, _ :: _, _ => none
  | fuel + 1, h :: rest, last =>
    let site := bitsOf h.toNat 63 32
    let nt := bitsOf h.toNat 31 16
    let ts := (rest.take nt).map BitVec.toNat
    let rising := (ts.zip ts.tail).all fun p => decide (p.1 < p.2)
    if nt = 0 ∨ bitsOf h.toNat 15 1 ≠ 0 ∨ ts.length ≠ nt ∨ ts.any (fun t => decide (t ≥ 2 ^ 32)) = true ∨ rising = false
        ∨ (match last with | some l => decide (site ≤ l) | none => false) = true then none
    else (ittParse fuel (rest.drop nt) (some site)).map fun gs => { site := site, call := h.getLsbD 0, targets := ts } :: gs
/-- A kernel table entry as the Hearth keeps it, where it passes the checks (R338 to R340). -/
def State.readKernel (s : State) (ctx n : Nat) : Option Kernel :=
  let pa := s.pkg * 2 ^ 42 + ((s.ctx ctx).ktBase.toNat + 128 * n) % 2 ^ 42
  let ws := s.dwords pa 16
  let w (k : Nat) : Nat := (ws.getD k 0).toNat
  let entry := bitsOf (w 0) 55 0
  let itt := w 2
  let ittPa := s.pkg * 2 ^ 42 + itt % 2 ^ 42
  let bad := s.lineBad pa || s.lineBad (pa + 64) || decide (bitsOf (w 0) 63 56 ≠ 0) || (w 0).testBit 0 || decide (bitsOf (w 1) 63 24 ≠ 0)
    || decide (bitsOf (w 1) 23 0 ≠ bitsOf entry 55 32) || decide (bitsOf itt 63 54 ≠ 0) || decide (itt % 8 ≠ 0) || decide (w 3 ≥ 2 ^ 32)
    || (itt == 0 && w 3 != 0) || shapeBad (w 4) (w 5) || resBad (w 5) || decide (resPrio (w 5) ≠ 0) || vcapBad (w 6) (w 5)
    || decide (w 7 > 8) || (ws.drop 8).any (· != 0)
    || (itt != 0 && (!inHbm itt || (List.range (w 3)).any fun k => s.lineBad (ittPa + 8 * k)))
  if bad then none
  else (ittParse (w 3) (s.dwords ittPa (w 3)) none).map fun g =>
    { entry := entry, region := w 1, shape := w 4, res := w 5, vcap := w 6, depth := w 7, itt := g }
/-- One VAL bit written: set, the entry is read and checked; cleared, it is gone (R339). -/
def State.setKernel (s : State) (ctx n : Nat) (v : Bool) : State :=
  let old := ((s.ctx ctx).kernels.get? n).isSome
  if v = old then s
  else if v then match s.readKernel ctx n with
    | none => s
    | some k => s.modCtx ctx fun c => { c with kernels := c.kernels.set n k }
  else s.modCtx ctx fun c => { c with kernels := c.kernels.erase n }
/-- KTVAL_WRITE (R339). -/
def execKtvalWrite (ctx w : Nat) (v : Dword) (s : State) : Host.Outcome State Fault Refusal :=
  event "KTVAL_WRITE" (s.on && decide (ctx < 64) && decide (w < 4))
    ((List.range 64).foldl (fun s j => s.setKernel ctx (64 * w + j) (v.getLsbD j)) s)

end Sys2Proof.Machine
end

