-- ==== Sys2Proof/Machine/ContextEvents.lean ====
section
/-! DEFINITION. Contexts switched, clamped, released and destroyed, and host hand-over (R346 to R356). -/

namespace Sys2Proof.Machine

/-- The resident groups of a context. -/
def State.groupsOf (s : State) (ctx : Nat) : List Nat := (s.groups.filter fun p => p.2.ctx == ctx).map Prod.fst
/-- Changes STATE of a context. -/
def State.setState (s : State) (ctx : Nat) (x : CtxState) : State := s.modCtx ctx fun c => { c with state := x }
/-- SWOUT (R348): an active context begins to switch out; any other write of it changes nothing. -/
def execSwout (ctx : Nat) (s : State) : Host.Outcome State Fault Refusal :=
  event "SWOUT" (s.on && decide (ctx < 64))
    (if (s.ctx ctx).valid ∧ (s.ctx ctx).state = .active then s.setState ctx .switching else s)
/-- Whether a group has drained (R348): no run of it is left, its engine operations are complete, and what it issued has been
performed and returned; a peer merge still reading a plane of it holds it up (R259). -/
def State.drained (s : State) (gid : Nat) : Bool :=
  let g := s.group gid
  [0, 1, 2, 5].all (fun c => g.counter c == 0)
    && (match (s.part g.core g.part).run with | some r => r.gid != gid | none => true)
    && !(s.accs.any fun a => a.gid == gid && a.kind != .wb) && !(s.spads.any fun m => m.gid == gid)
    && !(s.steals.any fun m => m.gid == gid) && !(s.redos.any fun m => m.gid == gid)
    && !(s.quads.any fun q => q.2.planes.any fun p => p.owner == some gid && p.xfer)
/-- A slot as it is saved: its counts restart, its results are readable, and its instruction issues again in full (R81, R348). -/
def Slot.saved (x : Slot) : Slot :=
  { x with nrun := 0, nstall := 0, readyAt := none, stallAt := none, stallNo := 0, asleep := false, mark := none, youngest := false, retest := false, sb := []
           fesent := none, fearr := false }
/-- A group as it is saved (R198, R349). -/
def Group.saved (g : Group) : Group := { g.sampled with slots := g.slots.map Slot.saved, sb := [], psb := [] }
/-- The records and awaited answers of a group go by another name (R331). -/
def Ctx.renameFaults (c : Ctx) (old new : Nat) : Ctx :=
  let nm (o : Origin) : Origin := match o with | .lane g k => if g = old then .lane new k else o | o => o
  { c with waiting := c.waiting.map fun (r : FRec) => { r with origin := nm r.origin }
           awaits := c.awaits.map fun (w : Await) => { w with origin := nm w.origin } }
/-- A block's groups and claims by other names. -/
def Block.rename (b : Block) (nm : Nat → Nat) : Block :=
  { b with groups := b.groups.map nm, claims := b.claims.map fun (c : Claim) => { c with gid := nm c.gid } }
/-- The planes a group owns: index and record. -/
def State.planesOf (s : State) (gid : Nat) : List (Nat × Plane) :=
  let ps := (s.quad (quadOf (s.group gid).core)).planes
  (ps.mapIdx fun k p => (k, p)).filter fun x => x.2.owner == some gid
/-- One group saved under a name of its own, and its resources freed (R349). -/
def State.saveGroup (s : State) (ctx : Nat) (gid : Nat) : State :=
  let g := s.group gid
  let (k, s1) := s.newId
  let ghost := ghostBase + k
  let planes := (s.planesOf gid).map fun x => (ghost, x.1, x.2)
  let p := s.part g.core g.part
  let banks := match p.owner with | some o => if o.1 = gid then [(ghost, o.2, p.bank, p.bankBad)] else [] | none => []
  let s2 := (s1.renameOps gid ghost).modCtx ctx fun c => { (c.renameFaults gid ghost) with
    savedGroups := c.savedGroups ++ [(ghost, g.saved)], savedPlanes := c.savedPlanes ++ planes, savedBanks := c.savedBanks ++ banks }
  let s3 := (s2.modBlock g.blk fun b => b.rename fun x => if x = gid then ghost else x).freePlanes gid
  let s4 := s3.modPart g.core g.part fun p =>
    { p with owner := if banks.isEmpty then p.owner else none, bank := if banks.isEmpty then p.bank else {}
             trapq := p.trapq.filter fun q => q.1 != gid }
  (({ s4 with groups := s4.groups.erase gid } : State).relevel (domOf g.core)).markIdle (quadOf g.core)
/-- The save: groups, blocks and all; STATE becomes 2 (R348, R349). -/
def State.saveCtx (s : State) (ctx : Nat) : State :=
  let s1 := (s.groupsOf ctx).foldl (fun s gid => s.saveGroup ctx gid) s
  let mine := s1.blocks.filter fun b => b.2.ctx == ctx
  (({ s1 with blocks := s1.blocks.filter fun b => b.2.ctx != ctx } : State).modCtx ctx fun c =>
    { c with savedBlocks := mine }).setState ctx .switchedOut
/-- The L1 arrays of a context's cores (R348, R355). -/
def State.ctxL1s (s : State) (ctx : Nat) : List Nat := ((s.cores.filter fun c => c.2.ctx == some ctx).map fun c => s.l1Of c.1).dedup
/-- The save area once the state has been written to it (R346, R348): the manual names what is saved and no layout, so every byte
of the area is a free value; an area on SCM has passed its write-back queue (log 21, DESIGN CHOICE). -/
def State.writeSave (s : State) (ctx : Nat) : State :=
  let v := (s.ctx ctx).save.toNat
  let base := bitsOf v 53 12 * 2 ^ 12
  let cells : List Host.Cell := ((List.range (v % 2 ^ 12 * 2 ^ 20)).filter fun k =>
    decide (pkgOf (base + k) = s.pkg) && (homeDie (base + k)).isSome).map fun k => (base + k, Config.saveByte (base + k) s.fresh)
  let put (m : Mem) (cs : List Host.Cell) : Mem := cs.foldl (fun m c => Mem.write m c.1 c.2) m
  (List.range 4).foldl (fun s d =>
    let mine := cells.filter fun c => inScm c.1 && homeDie c.1 == some d
    if mine.isEmpty then s else s.modDie d fun x => { x with wbq := [], scm := put x.drained mine }) { s with mem := put s.mem cells }
/-- The last part of a switch-out, once every dirty byte is home: the L1 arrays are invalidated, frozen copies apart, and the state is
saved (R348). The manual states no layout of the save area: whether it is too small for groups that must be saved is a free value (log 21,
DESIGN CHOICE). -/
def State.switchOut (s : State) (ctx : Nat) : State :=
  let gs := s.groupsOf ctx
  let len := (s.ctx ctx).save.toNat % 2 ^ 12
  let (need, s1) := s.draw
  let s2 := s1.emptyL1s (s1.ctxL1s ctx) true
  if gs.isEmpty then s2.saveCtx ctx else if need % 2 ^ 13 ≤ len then (s2.writeSave ctx).saveCtx ctx else s2.clampCtx ctx 6 0 0
/-- SWOUT_COMPLETE (R348): a release at pkg scope for every lane, whose write-backs leave first, then the save. -/
def execSwoutComplete (ctx : Nat) (s : State) : Host.Outcome State Fault Refusal :=
  if (s.ctx ctx).state = .switching ∧ (s.groupsOf ctx).all s.drained = true then
    match s.flush (s.ctxL1s ctx) with
    | .clean s1 => .next (s1.switchOut ctx)
    | .begun s1 => .next s1
    | .waits => .refused (.notEnabled "SWOUT_COMPLETE")
  else .refused (.notEnabled "SWOUT_COMPLETE")

/-- What a saved block needs of its places (R350). -/
def State.savedNeed (s : State) (b : Block) (gs : List Group) : BlockNeed :=
  let fuse := match s.grids.get? b.grid with | some x => resFuse x.res | none => false
  { ctx := b.ctx, span := b.span, isLocal := b.isLocal, fuse := fuse, spad := b.spad, reserve := gs.foldl (fun n g => n + g.cap) b.pool }
/-- The lane registers of a restored group take free physical registers of its partition (R198). -/
def State.rephys (s : State) (gid : Nat) : State :=
  let g := s.group gid
  let s0 := s.modGroup gid fun g => { g with names := [] }
  g.names.foldl (fun s n => s.modGroup gid fun x => { x with names := x.names ++ [(n.1, { n.2 with phys := s.freePhys g.core g.part })] }) s0
/-- One group restored where it has been seated (R198, R259, R349, R350); none when a plane it owns is taken there, or the handler
bank it comes back in: one split of a partition runs a handler (R193). -/
def State.restoreGroup (s : State) (ctx gid ghost : Nat) : Option State :=
  let c := s.ctx ctx
  let g := s.group gid
  let q := quadOf g.core
  let planes := c.savedPlanes.filter fun x => x.1 == ghost
  let banks := c.savedBanks.filter fun x => x.1 == ghost
  let taken (k : Nat) : Bool := ((s.quad q).plane k).owner.isSome || ((s.quad q).plane k).xfer || (s.quad q).names k fun _ => true
  if (planes.any fun x => taken x.2.1) || (!banks.isEmpty && (s.part g.core g.part).owner.isSome) then none
  else
    let cyc := (s.core g.core).cyc
    let s1 := planes.foldl (fun s x => s.modQuad q fun z => { z with planes := z.planes.set x.2.1 { x.2.2 with owner := some gid } }) s
    let rejoin (j : Join) : Join := { j with since := j.since.map fun _ => cyc }
    let s2 := (s1.modGroup gid fun g => { g with joins := g.joins.map rejoin }).rephys gid
    let s3 := banks.foldl (fun s x => s.modPart g.core g.part fun p =>
      { p with owner := some (gid, x.2.1), bank := x.2.2.1, bankBad := x.2.2.2 }) s2
    let s4 := s3.modPart g.core g.part fun p => { p with
      trapq := (g.pend.filter (·.2.bank)).foldl (fun q t => insertBy s3.pendNo (gid, t.1) q) p.trapq }
    let s5 := (s4.renameOps ghost gid).modCtx ctx fun c => { (c.renameFaults ghost gid) with
      savedGroups := c.savedGroups.filter fun x => x.1 != ghost
      savedPlanes := c.savedPlanes.filter fun x => x.1 != ghost
      savedBanks := c.savedBanks.filter fun x => x.1 != ghost }
    some s5
/-- One saved block placed again (R343, R350); none where it cannot be. A block keeps its number of ranks. -/
def State.restoreBlock (s : State) (ctx blk : Nat) (b : Block) (at_ : List Place) : Option State :=
  let gs := b.groups.map fun g => ((((s.ctx ctx).savedGroups.find? fun x => x.1 == g).map Prod.snd).getD {})
  let n := s.savedNeed b gs
  if (n.ranks at_).length ≠ b.nr ∨ (at_.all fun p => (s.quad (quadOf p.core)).gate == .on) = false then none
  else (s.seat n gs at_).bind fun r =>
    let pairs := b.groups.zip r.1
    let nm (g : Nat) : Nat := ((pairs.find? fun p => p.1 == g).map Prod.snd).getD g
    let entry := match s.grids.get? b.grid with | some x => x.entry | none => 0
    let s1 := r.2.setBlock blk { (b.rename nm) with cores := n.ranks at_, passed := 0 }
    (pairs.foldl (fun (acc : Option State) p => acc.bind fun s => s.restoreGroup ctx p.2 p.1) (some s1)).map fun s => s.settled ctx blk entry at_
/-- What the saved blocks of a context would pass over, block by block (R343, R350). -/
def State.savedAhead (s : State) (ctx : Nat) : List Waiting :=
  (s.ctx ctx).savedBlocks.filterMap fun b => (s.grids.get? b.2.grid).map fun x => s.passedOver b.2.grid x
/-- Every saved block placed again and its context active (R350); none where one of them cannot be, or may not pass what waits before it. -/
def State.switchIn (s : State) (ctx : Nat) (at_ : List (List Place)) : Option State :=
  let c := s.ctx ctx
  let ahead := s.savedAhead ctx
  if at_.length ≠ c.savedBlocks.length ∨ ahead.all s.mayPass = false then none
  else ((c.savedBlocks.zip at_).foldl (fun (acc : Option State) x => acc.bind fun s => s.restoreBlock ctx x.1.1 x.1.2 x.2) (some s)).map fun s =>
    ((ahead.foldl State.countPass s).modCtx ctx fun c => { c with savedBlocks := [], swin := false }).setState ctx .active
/-- The first parts of a SWIN: a write that finds no room waits for it from then on (R350). -/
def State.awaitRoom (s : State) (ctx : Nat) : State := s.modCtx ctx fun c => { c with swin := true }
/-- Whether the saved blocks of a context run on a fused L1. -/
def State.savedFuse (s : State) (ctx : Nat) : Bool :=
  (s.ctx ctx).savedBlocks.any fun b => match s.grids.get? b.2.grid with | some x => resFuse x.res | none => false
/-- Quads past their commit point wake (R345). -/
def State.wakeFor (s : State) (qs : List Nat) : State :=
  qs.foldl (fun s q => s.modQuad q fun z => { z with gate := if z.gate = .gated then .waking else z.gate }) s
/-- SWIN (R350): a switched-out context is placed again, each saved block where the Hearth chooses; the first part of a SWIN onto
gated quads wakes them (R345), onto quads of the other L1 mode writes their dirty bytes home (R225); one that finds no room waits; any other
write of it changes nothing. -/
def execSwin (ctx : Nat) (at_ : List (List Place)) (s : State) : Host.Outcome State Fault Refusal :=
  let c := s.ctx ctx
  let quads := (at_.flatMap fun b => b.map fun p => quadOf p.core).dedup
  if !s.on || decide (ctx ≥ 64) then .refused (.notEnabled "SWIN")
  else if c.valid = false ∨ c.state ≠ .switchedOut then .next s
  else if quads.any fun q => (s.quad q).gate == .gated then .next ((s.wakeFor quads).awaitRoom ctx)
  else match s.remoded quads (s.savedFuse ctx) fun s => s.switchIn ctx at_ with
    | some s1 => .next s1
    | none => if c.swin then .refused (.notEnabled "SWIN") else .next (s.awaitRoom ctx)

/-- CLAMP (R351): CTXCMD 3 clamps a valid context, a switched-out one with its Tongs and launch queues among them; one already clamped stays as
it is (log 41, DEDUCED). -/
def execClamp (ctx : Nat) (s : State) : Host.Outcome State Fault Refusal :=
  let c := s.ctx ctx
  event "CLAMP" (s.on && decide (ctx < 64)) (if c.valid ∧ c.state ≠ .clamped then s.clampCtx ctx 0 0 0 else s)
/-- A launch queue goes on: a halted one past the record it discards, another at CI (R352, R353). -/
def Lq.go (q : Lq) : Lq :=
  if q.halt then { q with halt := false, cause := 0, off := 0, ci := (q.ci + 1) % 2 ^ 32, sat := [], clamped := false } else { q with clamped := false }
/-- Every clamped master of a context goes on, saved groups among them; one that was switched out when it was clamped is so again (R350, R352). -/
def State.releaseCtx (s : State) (ctx : Nat) : State :=
  let s1 := s.modCtx ctx fun c => { c with
    out := false, state := if c.state = .clamped then (if c.out then .switchedOut else .active) else c.state
    savedGroups := c.savedGroups.map fun (x : Nat × Group) => (x.1, { x.2 with clamped := false }) }
  let goG (g : Group) : Group := if g.ctx = ctx then { g with clamped := false } else g
  let goT (q : Nat × TongsQ) : Nat × TongsQ := if q.1 % 64 = ctx then (q.1, { q.2 with clamped := false }) else q
  let goQ (q : Lq) : Lq := if q.ctx = ctx then q.go else q
  let s2 : State := { s1 with
    groups := s1.groups.map fun p => (p.1, goG p.2)
    dies := s1.dies.map fun d => (d.1, { d.2 with tongs := d.2.tongs.map goT })
    lqs := s1.lqs.map fun q => (q.1, goQ q.2) }
  (s2.groupsOf ctx).foldl (fun s g => s.testGroup g) s2
/-- RELEASE (R352). -/
def execRelease (ctx : Nat) (s : State) : Host.Outcome State Fault Refusal :=
  event "RELEASE" (s.on && decide (ctx < 64)) (if (s.ctx ctx).valid then s.releaseCtx ctx else s)

/-- What a context has outstanding in the package goes without effect (R352): accesses, messages, requests, engine operations
and reductions. -/
def State.dropWork (s : State) (ctx : Nat) : State :=
  let gs := s.groupsOf ctx
  let mine (g : Nat) : Bool := gs.contains g
  let keepDie (d : Die) : Die := { d with
    tongs := d.tongs.filter fun q => q.1 % 64 != ctx
    snaps := d.snaps.filter fun n => n.ctx != ctx
    redo := d.redo.filter fun r => r.2.ctx != ctx
    dir := d.dir.map fun (e : Nat × DirEnt) => (e.1, { e.2 with cut := e.2.cut.filter fun c => !mine c.1 }) }
  { s with
    accs := s.accs.filter fun a => a.kind == .wb || a.ctx != ctx
    spads := s.spads.filter fun m => !mine m.gid
    steals := s.steals.filter fun m => !mine m.gid
    redos := s.redos.filter fun m => m.ctx != ctx
    kept := s.kept.filter fun a => a.ctx != ctx
    sigs := s.sigs.filter fun m => m.ctx != ctx
    drains := s.drains.filter fun e => !mine e.gid
    quads := s.quads.map fun q => (q.1, q.2.dropped mine)
    dies := s.dies.map fun d => (d.1, keepDie d.2) }
/-- The collectives a context had members in end: members of other contexts fail (R352, R399). -/
def State.endColls (s : State) (ctx : Nat) : State :=
  (s.colls.filter fun c => c.members.any fun m => m.ctx == ctx).foldl (fun s c =>
    s.failColl { c with members := c.members.filter fun m => m.ctx != ctx } 65536 otherFail) s
/-- Held state of a JOB goes with the last valid context that carries it (R412). -/
def State.dropJob (s : State) (job : Nat) : State :=
  if s.ctxs.any fun c => c.2.valid && c.2.pjob == job then s
  else { s with
    colls := s.colls.filter fun c => c.job != job
    bars := s.bars.filter fun u => !(u.lvl == 5 && u.owner == job)
    barHeld := s.barHeld.filter fun u => u.owner != job }
/-- A context ends (R352): its queued records are discarded, its kernels and reductions freed, and VALID is 0. -/
def State.destroyCtx (s : State) (ctx : Nat) : State :=
  let job := (s.ctx ctx).pjob
  let arrivals := (s.groupsOf ctx).flatMap fun g => (s.group g).lanes.filterMap fun l => l.bar.map fun b => b.mark
  let s1 := (s.endColls ctx).dropWork ctx
  let s2 := (s1.groupsOf ctx).foldl (fun s g => s.removeGroup g) s1
  let goQ (q : Lq) : Lq := if q.ctx = ctx then { q with ci := q.pi, halt := false, cause := 0, off := 0, sat := [], clamped := false } else q
  let live (u : BarUse) : BarUse := { u with arrived := u.arrived.filter fun w => !(w.1 == s.pkg && arrivals.contains (w.2 + 1)) }
  let s3 : State := { s2 with
    grids := s2.grids.filter fun x => x.2.ctx != ctx
    blocks := s2.blocks.filter fun b => b.2.ctx != ctx
    lqs := s2.lqs.map fun q => (q.1, goQ q.2)
    bars := (s2.bars.map live).filter fun u => !u.arrived.isEmpty && !(u.lvl == 4 && u.owner == ctx)
    cores := s2.cores.map fun c => (c.1, if c.2.ctx = some ctx then { c.2 with ctx := none, deque := [] } else c.2) }
  (s3.modCtx ctx fun c => { c with
    valid := false, state := .active, out := false, swin := false, kernels := [], waiting := [], awaits := [], psq := [], scale := {}, savedGroups := [], savedBlocks := []
    savedPlanes := [], savedBanks := [], deques := [], ghosts := [] }).dropJob job
/-- DESTROY (R352). -/
def execDestroy (ctx : Nat) (s : State) : Host.Outcome State Fault Refusal :=
  event "DESTROY" (s.on && decide (ctx < 64)) (if (s.ctx ctx).valid then s.destroyCtx ctx else s)

/-- Clamps a Tongs queue (R316, R353). -/
def State.clampTongs (s : State) (ctx t : Nat) : State :=
  let key := tongsKey (t % 16) ctx
  (s.modDie (t / 16) fun d => { d with tongs := d.tongs.set key { d.tongs.getD key {} with clamped := true } }).logRecord ctx
    (clampRec (s.recWord2Ctx ctx 0) 0 1 0 0 t 0)
/-- Clamps a launch queue (R353). -/
def State.clampQueue (s : State) (ctx q : Nat) : State :=
  (s.setLq q { s.lq q with clamped := true }).logRecord ctx (clampRec (s.recWord2Ctx ctx 0) 0 2 0 0 q 0)
/-- Whether a group of the context is resident under an index (R353). -/
def State.hasGroup (s : State) (ctx t : Nat) : Bool := match s.groups.get? t with | some g => g.ctx == ctx | none => false
/-- MCLMP with OP 0 (R353). -/
def State.mclmpClamp (s : State) (ctx : Nat) (v : Dword) : State :=
  let t := v.toNat % 2 ^ 16
  match bitsOf v.toNat 63 62 with
  | 0 => if s.hasGroup ctx t then s.clampGroup t 0 0 0 else s
  | 1 => if t < 64 then s.clampTongs ctx t else s
  | 2 => if t < 64 ∧ (s.lq t).ctx = ctx then s.clampQueue ctx t else s
  | _ => s
/-- MCLMP_CLAMP (R353). -/
def execMclmpClamp (ctx : Nat) (v : Dword) (s : State) : Host.Outcome State Fault Refusal :=
  event "MCLMP_CLAMP" (s.on && decide (ctx < 64) && !v.getLsbD 61) (if (s.ctx ctx).valid then s.mclmpClamp ctx v else s)
/-- MCLMP with OP 1 (R353). -/
def State.mclmpRelease (s : State) (ctx : Nat) (v : Dword) : State :=
  let t := v.toNat % 2 ^ 16
  let key := tongsKey (t % 16) ctx
  match bitsOf v.toNat 63 62 with
  | 0 => if s.hasGroup ctx t then (s.modGroup t fun g => { g with clamped := false }).testGroup t else s
  | 1 => if t < 64 then s.modDie (t / 16) fun d => { d with tongs := d.tongs.set key { d.tongs.getD key {} with clamped := false } } else s
  | 2 => if t < 64 ∧ (s.lq t).ctx = ctx ∧ ((s.lq t).halt ∨ (s.lq t).clamped) then s.setLq t (s.lq t).go else s
  | _ => s
/-- MCLMP_RELEASE (R353): ignored while the context is clamped. -/
def execMclmpRelease (ctx : Nat) (v : Dword) (s : State) : Host.Outcome State Fault Refusal :=
  event "MCLMP_RELEASE" (s.on && decide (ctx < 64) && v.getLsbD 61)
    (if (s.ctx ctx).valid ∧ (s.ctx ctx).state ≠ .clamped then s.mclmpRelease ctx v else s)

/-- Whether a line lies in a region as its context translates it, whatever the leaf permits; pages that are not present are skipped (R355). -/
def State.inRegion (s : State) (ctx va len line : Nat) : Bool :=
  (List.range ((va + len - 1) / 2 ^ 17 - va / 2 ^ 17 + 1)).any fun k =>
    let page := (va / 2 ^ 17 + k) * 2 ^ 17
    match if page < 2 ^ 56 then s.walk ctx page else .error .pageProtection with
    | .error _ => false
    | .ok e => pageOf (e.pa + page % 2 ^ e.bits) == line / 2048 && decide (page + 64 * (line % 2048) + 64 > va) && decide (page + 64 * (line % 2048) < va + len)
/-- The lines of a captured region that the L1 arrays of its context's cores hold. -/
def State.regionLines (s : State) : List (Nat × Nat) :=
  let h := s.hand
  (s.ctxL1s h.capCtx).flatMap fun l => ((s.core l).l1.map Prod.fst).filterMap fun n => if s.inRegion h.capCtx h.capVa h.capLen n then some (l, n) else none
/-- Whether a hand-over command breaks R356: one runs, the context is not valid, or the length is none. -/
def State.handBad (s : State) : Bool :=
  let h := s.hand
  h.busy || !(s.ctx (h.ctx.toNat % 64)).valid || h.len.toNat % 2 ^ 41 == 0 || decide (h.len.toNat % 2 ^ 41 > 2 ^ 40)
/-- A hand-over command (R355, R356): a violation clamps the host link, from the host; from firmware, with DONE not written, it changes
nothing. -/
def State.handOver (s : State) (host : Bool) (op : Nat) (k : State → State) : State :=
  let h := s.hand
  if s.handBad then (if host then s.clampLink else s)
  else k { s with hand := { h with busy := true, done := false, op := op, capVa := h.va.toNat % 2 ^ 56, capLen := h.len.toNat % 2 ^ 41, capCtx := h.ctx.toNat % 64 } }
/-- A command written to HOCMD by the host or by firmware. -/
def State.hostOr (s : State) (host : Bool) (k : State → State) : State := if host then s.hostDoes k else k s
/-- TODEV (R355): the lines of the region go, but for frozen copies and bytes not yet written back. -/
def State.toDevice (s : State) : State :=
  s.regionLines.foldl (fun s x =>
    let l := s.l1Line x.1 x.2
    s.setL1 x.1 x.2 l.cleaned) s
/-- TODEV (R355, R356). -/
def execTodev (host : Bool) (s : State) : Host.Outcome State Fault Refusal :=
  event "TODEV" (if host then s.hostUp else s.on) (s.hostOr host fun s => s.handOver host 1 State.toDevice)
/-- TOHOST (R355): the dirty bytes of the region leave for home. -/
def State.toHost (s : State) : State := s.regionLines.foldl (fun s x => s.wbLine x.1 x.2) s
/-- TOHOST (R355, R356). -/
def execTohost (host : Bool) (s : State) : Host.Outcome State Fault Refusal :=
  event "TOHOST" (if host then s.hostUp else s.on) (s.hostOr host fun s => s.handOver host 2 State.toHost)
/-- HANDOVER_DONE (R355): a TOHOST is done when its write-backs have been performed. -/
def execHandoverDone (s : State) : Host.Outcome State Fault Refusal :=
  let h := s.hand
  let left := s.accs.any fun a => a.kind == .wb && !a.done && s.inRegion h.capCtx h.capVa h.capLen (lineOf a.pa)
  event "HANDOVER_DONE" (h.busy && !(h.op == 2 && left)) { s with hand := { h with busy := false, done := true } }

end Sys2Proof.Machine
end

