-- ==== Sys2Proof/Machine/Keccak.lean ====
section
/-! DEFINITION. SHAKE256, the digest function that measurement uses (R384), as FIPS 202 defines it (log 47, PRESUMED): the
constants of the permutation are computed from the rules that FIPS 202 gives for them. -/

namespace Sys2Proof.Machine

/-- Where a lane goes and how far it turns: the walk (1, 0), (0, 2), ... of rho, by 5 × row + column; the centre stays. -/
def spongeTurns : List (Nat × Nat) :=
  ((List.range 24).foldl (fun (w : (Nat × Nat) × List (Nat × Nat)) t =>
    ((w.1.2, (2 * w.1.1 + 3 * w.1.2) % 5), (5 * w.1.2 + w.1.1, (t + 1) * (t + 2) / 2 % 64) :: w.2)) ((1, 0), [(0, 0)])).2
/-- x to the power n modulo x^8 + x^6 + x^5 + x^4 + 1 over two elements, as eight bits. -/
def spongePower : Nat → Nat
  | 0 => 1
  | n + 1 => let v := 2 * spongePower n; if v ≥ 256 then v ^^^ 0x171 else v
/-- What round n adds to the centre: bit 2^j − 1 is the constant coefficient of power 7n + j. -/
def spongeConstant (n : Nat) : Dword :=
  BitVec.ofNat 64 (((List.range 7).map fun j => spongePower (7 * n + j) % 2 * 2 ^ (2 ^ j - 1)).sum)
/-- The lanes of a column, added. -/
def columnParity (a : List Dword) (x : Nat) : Dword :=
  (a.zipIdx.filter fun l => l.2 % 5 == x % 5).foldr (fun l p => l.1 ^^^ p) 0
/-- A round of the permutation: the parities of the neighbouring columns are added, lanes turn and move, each row is combined,
and the round's constant enters at the centre. -/
def spongeRound (a : List Dword) (n : Nat) : List Dword :=
  let mixed := a.zipIdx.map fun l => l.1 ^^^ columnParity a (l.2 + 4) ^^^ (columnParity a (l.2 + 1)).rotateLeft 1
  let moved := spongeTurns.foldl (fun m t =>
    let (x, y) := (t.1 % 5, t.1 / 5)
    m.set (5 * ((2 * x + 3 * y) % 5) + y) ((mixed.getD t.1 0).rotateLeft t.2)) mixed
  let row (k d : Nat) : Dword := moved.getD (k / 5 * 5 + (k + d) % 5) 0
  let rows := moved.zipIdx.map fun l => l.1 ^^^ (row l.2 2 &&& ~~~row l.2 1)
  rows.set 0 (rows.getD 0 0 ^^^ spongeConstant n)
/-- One block of 17 lanes enters the sponge, which is then permuted. -/
def spongeAbsorb (a : List Dword) (block : List Byte) : List Dword :=
  (List.range 24).foldl spongeRound (a.zipIdx.map fun l => l.1 ^^^ BitVec.ofNat 64 (ofBytes ((block.drop (8 * l.2)).take 8)))
/-- The first 64 bytes of SHAKE256 of a message (R384): the message, 0x1F and zeros fill blocks of 136 bytes, and the last byte
has its top bit turned. -/
def shake256 (m : List Byte) : List Byte :=
  let blocks := m.length / 136 + 1
  let padded := m ++ 0x1F :: List.replicate (136 * blocks - m.length - 1) 0
  let whole := padded.set (136 * blocks - 1) (padded.getD (136 * blocks - 1) 0 ^^^ 0x80)
  let final := (List.range blocks).foldl (fun a k => spongeAbsorb a ((whole.drop (136 * k)).take 136)) (List.replicate 25 0)
  (final.flatMap fun v => bytesOf 8 v.toNat).take 64
/-- A measurement register extended with a digest: byte b of each at bits 8b + 7 to 8b (R384). -/
def extendMeasure (m d : BitVec 512) : BitVec 512 := BitVec.ofNat 512 (ofBytes (shake256 (bytesOf 64 m.toNat ++ bytesOf 64 d.toNat)))

end Sys2Proof.Machine
end

