-- ==== Sys2Proof/Machine/PowerEvents.lean ====
section
/-! DEFINITION. Power, thermal limits, bring-up and attestation (R379 to R385). -/

namespace Sys2Proof.Machine

/-- The quads of a domain that draw current: those not gated (R379, R380). -/
def State.poweredQuads (s : State) (dom : Nat) : List Nat :=
  ((List.range 8).map (8 * dom + ·)).filter fun q => (s.quad q).gate == .on
/-- The quad with the highest current among some, ties to the lower index. -/
def hottest (cur : Tbl Nat) (qs : List Nat) : Option Nat :=
  qs.foldl (fun acc q => match acc with
    | none => some q
    | some b => if cur.getD q 0 > cur.getD b 0 then some q else some b) none
/-- The quad with the lowest current among some, ties to the lower index. -/
def coolest (cur : Tbl Nat) (qs : List Nat) : Option Nat :=
  qs.foldl (fun acc q => match acc with
    | none => some q
    | some b => if cur.getD q 0 < cur.getD b 0 then some q else some b) none
/-- Sets the Bellows grant of a domain. -/
def State.setGrant (s : State) (dom g : Nat) : State := { s with power := { s.power with grant := s.power.grant.set dom g } }
/-- The Bellows narrows a domain (R380). -/
def State.narrow (s : State) (cur : Tbl Nat) (dom : Nat) : State :=
  match hottest cur ((s.poweredQuads dom).filter fun q => decide ((s.quad q).passc < 4)) with
  | some q => s.modQuad q fun x => { x with passc := 2 * x.passc }
  | none => s.setGrant dom (s.power.grant.getD dom 0 - 1)
/-- The Bellows widens a domain (R380). -/
def State.widen (s : State) (cur : Tbl Nat) (dom : Nat) : State :=
  if s.power.grant.getD dom 0 < 3 then s.setGrant dom (s.power.grant.getD dom 0 + 1)
  else match coolest cur ((s.poweredQuads dom).filter fun q => decide ((s.quad q).passc > 1)) with
    | some q => s.modQuad q fun x => { x with passc := x.passc / 2 }
    | none => s
/-- One interval of the Bellows over every quadrant domain; a current limit holds no longer (R380, R381). -/
def State.bellows (s : State) (power : Nat) (cur : Tbl Nat) : State :=
  let lim := min s.power.limw 3600
  let s1 : State := { s with power := { s.power with pw := min power 65535, limited := 0 } }
  let s2 := (List.range 16).foldl (fun s d =>
    if power > lim ∨ s.power.thrt = true then s.narrow cur d
    else if 100 * power < 95 * lim then s.widen cur d
    else s) s1
  (List.range 16).foldl (fun s d => s.relevel d) s2
/-- Whether the package has power: its sensors and its I3C target work before its dies run (R382, R383, R385). -/
def State.powered (s : State) : Bool := s.on || decide (s.power.stage ≥ 1)
/-- CURRENT_LIMIT (R381, R383). -/
def execCurrentLimit (dom : Nat) (s : State) : Host.Outcome State Fault Refusal :=
  event "CURRENT_LIMIT" (s.on && decide (dom < 16))
    (({ s with power := { s.power with limited := s.power.limited ||| (1#16 <<< dom), clim := true } } : State).alert 1)
/-- THROT as it acts (R383). -/
def Power.throttle (p : Power) : Nat := min p.throt 110
/-- The package's hottest sensor read anew. -/
def State.setTmax (s : State) (t : Nat) : State := { s with power := { s.power with tmax := min t 255 } }
/-- BELLOWS_INTERVAL (R380, R382, R383): the power, the hottest sensor and the currents are what the sensors give; the loop runs from
STAGE 6 on, before which only TMAX follows. A reading that starts or ends throttling or trips is a row of its own, which comes first. -/
def execBellowsInterval (now : Sensors) (cur : Tbl Nat) (s : State) : Host.Outcome State Fault Refusal :=
  let p := s.power
  event "BELLOWS_INTERVAL" (s.powered && (if p.thrt then decide (p.throttle ≤ now.tmax + 5) else decide (now.tmax < p.throttle)))
    (if p.stage ≥ 6 then (s.setTmax now.tmax).bellows now.power cur else s.setTmax now.tmax)
/-- THROTTLING (R382, R383): it starts at THROT and ends below THROT − 5 °C. -/
def execThrottling (tmax : Nat) (s : State) : Host.Outcome State Fault Refusal :=
  let starts := !s.power.thrt && decide (tmax ≥ s.power.throttle)
  let ends := s.power.thrt && decide (tmax + 5 < s.power.throttle)
  let s1 := s.setTmax tmax
  event "THROTTLING" (s.powered && (starts || ends))
    (if starts then ({ s1 with power := { s1.power with thrt := true } } : State).alert 2
     else { s1 with power := { s1.power with thrt := false } })
/-- THERMAL_TRIP (R382): the power-failure sequence from its step 2, with TRIP and the alert kept. -/
def execThermalTrip (tmax : Nat) (s : State) : Host.Outcome State Fault Refusal :=
  let s1 := s.dark
  event "THERMAL_TRIP" (s.powered && decide (tmax ≥ 115))
    (({ s1 with power := { s1.power with trip := true, tmax := min tmax 255, alert := s.power.alert, ibi := s.power.ibi } } : State).alert 3)

/-- The whole of a firmware image, its security version before its body (R384; log 8, DESIGN CHOICE). -/
def imageBytes (img : FwImage) : List Byte := bytesOf 2 img.version.toNat ++ img.body
/-- The ROM's checks of a firmware image (R384): its 64-byte key's digest is the fused one, its signature of 29,792 bytes verifies over the whole
image, and its security version is at least SVN. -/
def State.imageOk (s : State) (img : FwImage) : Bool :=
  decide (img.key.length = 64) && decide (img.sig.length = 29792) && shake256 img.key == bytesOf 64 Config.fusedDigest.toNat &&
    Config.verifies img.key (imageBytes img) img.sig && decide (s.power.svn.toNat ≤ img.version.toNat)
/-- Changes the power and security block. -/
def State.modPower (s : State) (f : Power → Power) : State := { s with power := f s.power }
/-- STAGE 1 (R385): everything is as after a loss of power, regulators at their set points, all domains at PL0 and every pass count 4; an
I3C reset keeps TRIP (R383). The dies stay in reset. -/
def State.startUp (s : State) (i3c : Bool) : State :=
  s.dark.modPower fun p => { p with trip := i3c && s.power.trip, stage := 1 }
/-- STAGE 2 (R384, R385): a good image is measured into M[0], and firmware runs; a refused one holds the package there. -/
def State.checkFirmware (s : State) (img : FwImage) : State :=
  let digest : BitVec 512 := BitVec.ofNat 512 (ofBytes (shake256 (imageBytes img)))
  if s.imageOk img then s.modPower fun p => { p with stage := 2, vrf := true, meas := p.meas.set 0 (extendMeasure (p.meas.getD 0 0) digest) }
  else (s.modPower fun p => { p with stage := 2, vrf := false }).alert 4
/-- STAGE 5 (R385, R389): ports are trained, and management writes the package number. -/
def State.trainPorts (s : State) (ports : BitVec 16) (pkg : BitVec 12) : State :=
  ({ s with ports := (List.range 16).map fun k => ({ up := ports.getLsbD k } : Port) } : State).setPkg pkg.toNat |>.modPower fun p => { p with stage := 5 }
/-- A part of bring-up (R384, R385); none where it does not come next. A stage after the ROM measures the next into a register of its own
choice before it passes control (log 22, DEDUCED). From STAGE 3 on the dies run. -/
def State.bringUp (s : State) (b : BringUp) : Option State :=
  let p := s.power
  match b with
  | .start i3c => if !s.on || i3c || p.stage == 0 then some (s.startUp i3c) else none
  | .firmware img => if p.stage = 1 then some (s.checkFirmware img) else none
  | .links ports pkg => if p.stage = 4 then some (s.trainPorts ports pkg) else none
  | .stage =>
    if p.vrf = true ∧ (p.stage = 2 ∨ p.stage = 3 ∨ p.stage = 5 ∨ p.stage = 6) then
      some { s with on := true, power := { p with stage := p.stage + 1 } }
    else none
  | .measure m d =>
    if p.vrf = true ∧ 2 ≤ p.stage ∧ p.stage < 7 ∧ m < 8 then some (s.modPower fun p => { p with meas := p.meas.set m (extendMeasure (p.meas.getD m 0) d) })
    else none
/-- BRING_UP (R384, R385): one part of it. -/
def execBringUp (b : BringUp) (s : State) : Host.Outcome State Fault Refusal :=
  match s.bringUp b with
  | none => .refused (.notEnabled "BRING_UP")
  | some s1 => .next s1
/-- Whether a PCIe configuration request is answered with Configuration Request Retry Status (R385). -/
def State.configRetry (s : State) : Bool := decide (s.power.stage < 6)
/-- The attestation report (R384): nonce, measurements, SVN, part number and device key, then the signature of 29,792 bytes. -/
def State.report (s : State) (nonce : BitVec 256) : List Byte :=
  let body := bytesOf 32 nonce.toNat ++ s.power.meas.flatMap (fun m => bytesOf 64 m.toNat) ++ bytesOf 2 s.power.svn.toNat
    ++ (List.range 72).map Config.identity
  body ++ bytesOf 29792 (Config.sign body).toNat
/-- ATTESTATION_REQUEST (R384). -/
def execAttestationRequest (nonce : BitVec 256) (s : State) : Host.Outcome State Fault Refusal :=
  event "ATTESTATION_REQUEST" (decide (s.power.stage ≥ 2))
    { s with power := { s.power with reports := s.power.reports ++ [s.report nonce] } }

end Sys2Proof.Machine
end

