-- ==== Sys2Proof/Machine/Reach.lean ====
section
/-! DEFINITION. What still waits for a package that cannot be reached any more (R390, R391, R399, R401, R404, R409). -/

namespace Sys2Proof.Machine

/-- An engine's write to another package fails, at the line of it that the answer names: the operation it belongs to fails with that
reason (R309, R375, R399). -/
def State.engineFail (s : State) (a : Access) (reason line : Nat) : State :=
  let va := if line = 0 then a.va else BitVec.ofNat 64 ((lineOf a.va.toNat + line) * 64)
  let fail : Fail := { reason := reason, side := 1, addr := va }
  let s1 := s.dies.foldl (fun s d => d.2.tongs.foldl (fun s q => match q.2.ops.find? fun o => o.deps.contains a.id with
    | some o => s.endTongs d.1 q.1 o.id (some fail)
    | none => s) s) s
  let s2 := s1.dies.foldl (fun s d => match d.2.snaps.find? fun n => n.deps.contains a.id with
    | some n => s.endSnap d.1 n (some fail)
    | none => s) s1
  match s2.colls.find? fun c => c.members.any fun m => m.deps.contains a.id with
  | some c => s2.failColl c (((c.members.find? fun m => m.deps.contains a.id).map (·.idx)).getD 65536) fail
  | none => s2
/-- A rebuild reads the units of its stripe from a package: with that one out of reach it stops (R409). -/
def State.stopRebuild (s : State) (p : Nat) : State :=
  let e := s.erasure
  if e.busy && e.from_.any fun k => e.mem.getD k 0 == p then s.dropRebuild else s
/-- What this package still waits for from a package that cannot be reached any more is resolved (R390, R391, R399, R401, R409). -/
def State.resolveGone (s : State) (p : Nat) : State :=
  let s1 := s.stopRebuild p
  let s2 := (s1.accs.filter fun a => a.sent && !a.done && pkgOf a.pa == p).foldl (fun s a => match a.kind with
    | .wb => ((s.remote { a with sent := false } 3 []).getD s)
    | .write => (s.performed a [] true).engineFail a Cause.dataError.code 0
    | _ => (s.endFill a).failed a) { s1 with parts := s1.parts.filter fun x => x.spkg != p }
  let s3 := (s2.sigs.filter fun m => m.sent && pkgOf m.pa == p).foldl (fun s m =>
    ({ s with sigs := s.sigs.filter fun x => x.id != m.id } : State).finishOp m.ctx m.gid 3 m.n
      (some { reason := Cause.dataError.code, side := 1, addr := m.va })) s2
  let s4 := (s3.redos.filter fun m => m.sent && pkgOf m.pa == p).foldl (fun s m => s.redoAnswer m (.lost .dataError)) s3
  (s4.colls.filter fun c => !c.failed && c.table.any fun t => t.1 == p).foldl (fun s c => s.failColl c 65536 otherFail) s4
/-- The packages that a change leaves out of reach are resolved (R390). -/
def State.resolveLost (s before : State) : State :=
  ((before.rtab.map Prod.fst).filter fun p => before.reachable p && !s.reachable p).dedup.foldl (fun s p => s.resolveGone p) s
/-- A package has failed: its dies' acknowledgements count as given, and what this package waits for from it is resolved (R390, R404). -/
def State.resolveFailed (s : State) (p : Nat) : State :=
  (({ s with dies := s.dies.map fun d => (d.1, { d.2 with
    dir := d.2.dir.map fun e => (e.1, { e.2 with await := e.2.await.filter (· != 4 + p) }) }) } : State)).resolveGone p

end Sys2Proof.Machine
end

