-- ==== Sys2Proof/Machine/RegEvents.lean ====
section
/-! DEFINITION. The package register space: writes of registers without an event of their own, and host writes of memory
(R10, R11, R163, R298, R324, R332, R333, R339, R344, R346, R355, R356, R365, R366, R368, R383, R389, R394, R405). -/

namespace Sys2Proof.Machine

/-- What a write of an offset is: to no register, to a read-only one, to one whose write is a row of its own, or a plain write. -/
inductive RegWrite where
  | nothing
  | readOnly
  | other
  | plain (s : State)

/-- The bits of a register that a write may change (R11). -/
def keepBits (v : Dword) (mask : Nat) : Dword := v &&& BitVec.ofNat 64 mask
/-- Bits 53 down to `lo`, as address registers hold them. -/
def addrBits (lo : Nat) : Nat := 2 ^ 54 - 2 ^ lo
/-- A register of a launch queue (R333): LQBASE and LQCFG change only while EN = 0, but EN itself may be cleared. -/
def State.lqWrite (s : State) (host : Bool) (q off : Nat) (v : Dword) : RegWrite :=
  let lq := s.lq q
  match off with
  | 0x00 => .plain (if lq.en then s else s.setLq q { lq with base := keepBits v (addrBits 12 + 15) })
  | 0x08 => .plain (if lq.en then s.setLq q { lq with en := v.getLsbD 31 }
      else s.setLq q { lq with en := v.getLsbD 31, src := v.getLsbD 30, ctx := bitsOf v.toNat 29 24 })
  | 0x10 => if host then .other else if lq.src then .readOnly else .plain (s.setLq q { lq with pi := v.toNat % 2 ^ 32 })
  | 0x18 => .readOnly
  | 0x20 => .readOnly
  | _ => .nothing
/-- Two valid contexts with one ASID are both clamped (R346, R351). -/
def State.checkAsids (s : State) (ctx : Nat) : State :=
  let c := s.ctx ctx
  match if c.valid then s.ctxs.find? (fun x => x.1 != ctx && x.2.valid && x.2.asid == c.asid) else none with
  | none => s
  | some x => (s.clampCtx ctx 5 0 0).clampCtx x.1 5 0 0
/-- CTXCTL (R346): ASID and LVLCAP change only in STATE 2, or before the context is valid. A context that becomes valid is created: its
scale table is as at reset (R261); before STAGE 7 none is (R385). -/
def State.ctxctlWrite (s : State) (ctx : Nat) (v : Dword) : State :=
  let c := s.ctx ctx
  let free := c.state == .switchedOut || !c.valid
  let on := v.getLsbD 31 && (c.valid || decide (s.power.stage ≥ 7))
  let s1 := (s.modCtx ctx fun c => { c with
    scale := if !c.valid && on then {} else c.scale
    valid := on, debug := v.getLsbD 30, prioMax := bitsOf v.toNat 29 28
    lvlCap := if free then bitsOf v.toNat 27 26 else c.lvlCap, asid := if free then v.toNat % 2 ^ 16 else c.asid }).checkAsids ctx
  (List.range 16).foldl (fun s d => s.relevel d) s1
/-- A register of a stepped region while its EN is 0 (R365); EN may be cleared. -/
def State.srWrite (s : State) (ctx r k : Nat) (v : Dword) : RegWrite :=
  let x := s.region ctx r
  match k with
  | 0 => .plain (if x.en then s else s.setRegion ctx r { x with base := keepBits v (addrBits 17) })
  | 1 => .plain (if x.en then s else s.setRegion ctx r { x with shad := keepBits v (addrBits 17) })
  | 2 => .plain (if x.en then s else s.setRegion ctx r { x with tag := keepBits v (addrBits 6) })
  | _ => if v.getLsbD 31 then .other else .plain (s.setRegion ctx r { x with ctl := keepBits (if x.en then x.ctl else v) 0x7FFFFF })
/-- A register of a context window (R298, R332, R339, R346, R353, R365, R394). -/
def State.ctxWrite (s : State) (ctx off : Nat) (v : Dword) : RegWrite :=
  let put (f : Ctx → Ctx) : RegWrite := .plain (s.modCtx ctx f)
  match off with
  | 0x00 => .plain (s.ctxctlWrite ctx v)
  | 0x08 => put fun c => if c.state == .switchedOut || !c.valid then { c with root := keepBits v (addrBits 12) } else c
  | 0x10 => put fun c => { c with tvec := keepBits v (2 ^ 56 - 2) }
  | 0x18 => put fun c => { c with save := keepBits v (2 ^ 54 - 1) }
  | 0x20 => put fun c => { c with qh := v }
  | 0x28 => put fun c => { c with qs := v }
  | 0x30 => if v.toNat % 8 = 0 ∨ v.toNat % 8 ≥ 6 then .plain s else .other
  | 0x100 => put fun c => { c with frqBase := keepBits v (addrBits 12 + 15) }
  | 0x108 => .readOnly
  | 0x110 => put fun c => { c with frqCons := v.toNat % 2 ^ 32 }
  | 0x118 => .readOnly
  | 0x200 => .other
  | 0x208 => .readOnly
  | 0x500 => put fun c => { c with pjob := v.toNat % 2 ^ 16 }
  | 0x600 => put fun c => if c.kernels.isEmpty then { c with ktBase := keepBits v (addrBits 15) } else c
  | 0x608 => .other
  | 0x610 => .other
  | 0x618 => .other
  | 0x620 => .other
  | 0x640 => if bitsOf v.toNat 63 62 = 3 then .plain s else .other
  | _ => if 0x300 ≤ off ∧ off < 0x500 ∧ off % 8 = 0 then s.srWrite ctx ((off - 0x300) / 32) (off % 32 / 8) v else .nothing
/-- A register of the hand-over block (R355): HOCMD with a command that is taken is a row of its own; with another it is a violation of the host,
and from firmware clears DONE where it names it (R10, R356). -/
def State.handWrite (s : State) (host : Bool) (off : Nat) (v : Dword) : RegWrite :=
  let h := s.hand
  match off with
  | 0x00 => .plain { s with hand := { h with va := keepBits v (2 ^ 56 - 1) } }
  | 0x08 => .plain { s with hand := { h with len := keepBits v (2 ^ 41 - 1) } }
  | 0x10 => .plain { s with hand := { h with ctx := keepBits v 63 } }
  | 0x18 =>
    if (v.toNat % 4 = 1 ∨ v.toNat % 4 = 2) ∧ s.handBad = false then .other
    else .plain (if host then s.clampLink else { s with hand := { h with done := h.done && !v.getLsbD 30 } })
  | _ => .nothing
/-- A register of the power and security block (R383). -/
def State.powerWrite (s : State) (off : Nat) (v : Dword) : RegWrite :=
  let p := s.power
  match off with
  | 0x00 => .plain { s with power := { p with limw := v.toNat % 2 ^ 12 } }
  | 0x08 => .plain { s with power := { p with trip := p.trip && !v.getLsbD 31, clim := p.clim && !v.getLsbD 29 } }
  | 0x10 =>
    let s1 : State := { s with power := { p with ovrEn := v.extractLsb' 48 16, ovrLvl := v.setWidth 32 } }
    .plain ((List.range 16).foldl (fun s d => s.relevel d) s1)
  | 0x18 => .plain { s with power := { p with throt := bitsOf v.toNat 15 8 } }
  | 0x20 => .readOnly
  | 0x28 => .plain { s with power := { p with alert := p.alert &&& ~~~(v.setWidth 5) } }
  | _ => .nothing
/-- A register of the fabric block (R389, R405): the erasure registers are read-only while EN = 1, but EN itself may be cleared. -/
def State.fabWrite (s : State) (off : Nat) (v : Dword) : RegWrite :=
  let e := s.erasure
  let cfg (x : Erasure) : RegWrite := .plain (if e.en then s else { s with erasure := x })
  if off % 8 ≠ 0 then .nothing
  else if off = 0 then .plain (s.setPkg (v.toNat % 2 ^ 12))
  else if off ≤ 0x80 then .readOnly
  else if 0x1000 ≤ off ∧ off < 0x9000 then .plain (({ s with rtab := s.rtab.set ((off - 0x1000) / 8) (v.toNat % 2 ^ 16) } : State).resolveLost s)
  else if 0x9000 ≤ off ∧ off < 0x9200 then .other
  else if off = 0xA000 then if v.getLsbD 31 then .other else .plain { s with erasure := { e with ctl := keepBits (if e.en then e.ctl else v) 0xFFF0 } }
  else if off = 0xA008 then cfg { e with str := keepBits v (2 ^ 32 - 1) }
  else if off = 0xA010 then cfg { e with data := keepBits v (addrBits 17) }
  else if off = 0xA018 then cfg { e with par := keepBits v (addrBits 17) }
  else if 0xA020 ≤ off ∧ off < 0xA0A8 then cfg { e with mem := e.mem.set ((off - 0xA020) / 8) (v.toNat % 2 ^ 12) }
  else if off = 0xA0A8 then .plain { s with erasure := { e with range := v } }
  else if off = 0xA0B0 then if v.getLsbD 31 then .other else .plain { s with erasure := { e with done := e.done && !v.getLsbD 29 } }
  else .nothing
/-- What a write of an offset of the register space is (R332). The power and fabric blocks are read-only to the host (R383,
R389). -/
def State.regWrite (s : State) (host : Bool) (off : Nat) (v : Dword) : RegWrite :=
  if off < 0x200000 then
    if off % 4096 = 0 then .plain (s.modCore (off / 4096) fun c => { c with issctl := keepBits v 1 |>.setWidth 32 }) else .nothing
  else if off < 0x280000 then
    if off % 4096 = 0 then .plain (s.modQuad ((off - 0x200000) / 4096) fun q => { q with thresh := v.setWidth 32 }) else .nothing
  else if 0x300000 ≤ off ∧ off < 0x340000 then if off % 65536 = 0 ∨ off % 65536 = 8 then .other else .nothing
  else if 0x400000 ≤ off ∧ off < 0x404000 then s.lqWrite host ((off - 0x400000) / 256) (off % 256) v
  else if 0x410000 ≤ off ∧ off < 0x450000 then s.ctxWrite ((off - 0x410000) / 4096) (off % 4096) v
  else if 0x500000 ≤ off ∧ off < 0x501000 then s.handWrite host (off % 4096) v
  else if 0x600000 ≤ off ∧ off < 0x600030 then if host then .readOnly else s.powerWrite (off - 0x600000) v
  else if 0x700000 ≤ off ∧ off < 0x70A0B8 then if host then .readOnly else s.fabWrite (off - 0x700000) v
  else .nothing
/-- A register write performed: a host write that R356 forbids clamps the link, one from firmware is ignored. -/
def State.writeReg (s : State) (host : Bool) (off : Nat) (v : Dword) : State :=
  match s.regWrite host off v with
  | .plain s1 => s1
  | .other => s
  | _ => if host then s.clampLink else s
/-- REGISTER_WRITE (R332, R356): before STAGE 3 the I3C target alone writes, the power and security block (R383, R385). -/
def execRegisterWrite (host : Bool) (off : Nat) (v : Dword) (s : State) : Host.Outcome State Fault Refusal :=
  let own := match s.regWrite host off v with | .other => true | _ => false
  let up := s.on || (s.powered && decide (0x600000 ≤ off) && decide (off < 0x600030))
  event "REGISTER_WRITE" ((if host then s.hostUp else up) && !own) (s.hostOr host fun s => s.writeReg host off v)

/-- A bit of a register. -/
def bitAt (b : Bool) (n : Nat) : Nat := if b then 2 ^ n else 0
/-- What a launch queue register reads as (R333). -/
def Lq.read (q : Lq) (off : Nat) : Nat :=
  match off with
  | 0x00 => q.base.toNat
  | 0x08 => bitAt q.en 31 + bitAt q.src 30 + q.ctx * 2 ^ 24
  | 0x10 => q.pi
  | 0x18 => q.ci
  | 0x20 => bitAt (q.halt || q.clamped) 31 + q.cause * 2 ^ 8 + q.off
  | _ => 0
/-- STATE of a context (R346). -/
def CtxState.code : CtxState → Nat
  | .active => 0 | .clamped => 1 | .switchedOut => 2 | .switching => 3
/-- What a register of a stepped region reads as (R365). -/
def Region.read (r : Region) (k : Nat) : Nat :=
  match k with
  | 0 => r.base.toNat | 1 => r.shad.toNat | 2 => r.tag.toNat | _ => r.ctl.toNat
/-- A word of KTVAL (R339). -/
def Ctx.ktVal (c : Ctx) (w : Nat) : Nat :=
  (List.range 64).foldl (fun n j => n + bitAt (c.kernels.get? (64 * w + j)).isSome j) 0
/-- What a register of a context window reads as: CTXCMD and MCLMP as 0 (R298, R339, R346, R353, R365, R394). -/
def Ctx.read (c : Ctx) (off : Nat) : Nat :=
  match off with
  | 0x00 => bitAt c.valid 31 + bitAt c.debug 30 + c.prioMax * 2 ^ 28 + c.lvlCap * 2 ^ 26 + c.state.code * 2 ^ 24 + c.asid
  | 0x08 => c.root.toNat
  | 0x10 => c.tvec.toNat
  | 0x18 => c.save.toNat
  | 0x20 => c.qh.toNat
  | 0x28 => c.qs.toNat
  | 0x100 => c.frqBase.toNat
  | 0x108 => c.frqProd
  | 0x110 => c.frqCons
  | 0x118 => c.lost * 2 ^ 16 + bitAt c.frqFull 0
  | 0x200 => c.stepRec.toNat
  | 0x208 => c.stepC
  | 0x500 => c.pjob
  | 0x600 => c.ktBase.toNat
  | 0x608 => c.ktVal 0
  | 0x610 => c.ktVal 1
  | 0x618 => c.ktVal 2
  | 0x620 => c.ktVal 3
  | _ => if 0x300 ≤ off ∧ off < 0x500 ∧ off % 8 = 0 then (c.regions.getD ((off - 0x300) / 32) {}).read (off % 32 / 8) else 0
/-- What a register of the hand-over block reads as (R355). -/
def Handover.read (h : Handover) (off : Nat) : Nat :=
  match off with
  | 0x00 => h.va.toNat | 0x08 => h.len.toNat | 0x10 => h.ctx.toNat
  | 0x18 => bitAt h.busy 31 + bitAt h.done 30
  | _ => 0
/-- What a register of the power and security block reads as (R383). -/
def Power.read (p : Power) (off : Nat) : Nat :=
  match off with
  | 0x00 => p.limw
  | 0x08 => bitAt p.trip 31 + bitAt p.thrt 30 + bitAt p.clim 29 + p.pw
  | 0x10 => p.ovrEn.toNat * 2 ^ 48 + p.ovrLvl.toNat
  | 0x18 => p.tmax * 2 ^ 16 + p.throt * 2 ^ 8
  | 0x20 => bitAt p.vrf 31 + p.stage * 2 ^ 16 + p.svn.toNat
  | 0x28 => p.alert.toNat
  | _ => 0
/-- What a register of the fabric block reads as (R389, R405): EGRBLD.GO as 0. -/
def State.fabRead (s : State) (off : Nat) : Nat :=
  let e := s.erasure
  let port (k : Nat) : Nat := let p := s.ports.getD k {}; bitAt p.up 31 + p.bad * 2 ^ 8 + p.retry
  if off % 8 ≠ 0 then 0
  else if off = 0 then s.pkg
  else if off ≤ 0x80 then port ((off - 8) / 8)
  else if 0x1000 ≤ off ∧ off < 0x9000 then (s.rtab.getD ((off - 0x1000) / 8) 0)
  else if 0x9000 ≤ off ∧ off < 0x9200 then
    (List.range 64).foldl (fun n b => n + bitAt (s.fabFail.contains (64 * ((off - 0x9000) / 8) + b)) b) 0
  else if off = 0xA000 then e.ctl.toNat
  else if off = 0xA008 then e.str.toNat
  else if off = 0xA010 then e.data.toNat
  else if off = 0xA018 then e.par.toNat
  else if 0xA020 ≤ off ∧ off < 0xA0A8 then e.mem.getD ((off - 0xA020) / 8) 0
  else if off = 0xA0A8 then e.range.toNat
  else if off = 0xA0B0 then bitAt e.busy 30 + bitAt e.done 29
  else 0
/-- What an offset of the register space reads as: one that holds no register, and one that is only written, as 0 (R163, R301,
R315, R332, R344). -/
def State.regValue (s : State) (off : Nat) : Nat :=
  if off < 0x200000 then (if off % 4096 = 0 then (s.core (off / 4096)).issctl.toNat else 0)
  else if off < 0x280000 then (if off % 4096 = 0 then (s.quad ((off - 0x200000) / 4096)).thresh.toNat else 0)
  else if 0x400000 ≤ off ∧ off < 0x404000 then (s.lq ((off - 0x400000) / 256)).read (off % 256)
  else if 0x410000 ≤ off ∧ off < 0x450000 then (s.ctx ((off - 0x410000) / 4096)).read (off % 4096)
  else if 0x500000 ≤ off ∧ off < 0x501000 then s.hand.read (off % 4096)
  else if 0x600000 ≤ off ∧ off < 0x600030 then s.power.read (off - 0x600000)
  else if 0x700000 ≤ off ∧ off < 0x70A0B8 then s.fabRead (off - 0x700000)
  else 0
/-- What a read of the register space answers, which changes nothing (R332): to the host, all ones over a clamped link and 0
before STAGE 7 (R351, R385). -/
def State.regRead (s : State) (host : Bool) (off : Nat) : Dword :=
  if host && s.linkClamped then BitVec.allOnes 64
  else if host && !s.ready then 0
  else BitVec.ofNat 64 (s.regValue off)

/-- Why a host write of a piece of memory is refused with a Completer Abort (R314, R324, R366, R368, R405): logged, silent, or for lost
data. -/
inductive HostRefusal where
  | logged
  | silent
  | lost
/-- Whether a host write of bytes within one line is refused. -/
def State.hostRefused (s : State) (pa n : Nat) : Option HostRefusal :=
  let die := (homeDie pa).getD 0
  if (homeDie pa).isNone || pkgOf pa != s.pkg then some .silent
  else match s.regionAt pa with
    | some (_, _, .base) => some .logged
    | some _ => some .silent
    | none =>
      if s.coded pa then some .silent
      else if s.pageState (pageOf pa) ≥ 2 || s.filtered die pa then some .logged
      else if s.anyBad (s.writePas pa n 0) then some .lost
      else none
/-- What a host read through the memory window comes to. -/
inductive HostRead where
  | data (bs : List Byte)
  | abort
  | waits
/-- What a host read of bytes within one line through the memory window answers, performed at home: all ones over a clamped link
(R351); a stepped read at C (R367), which waits while an enable sweep runs (R372); an abort where it fails (R314, R366). -/
def State.hostRead (s : State) (pa n : Nat) : HostRead :=
  if s.linkClamped then .data (List.replicate n 0xFF)
  else if s.sweeping pa then .waits
  else if (homeDie pa).isNone || pkgOf pa != s.pkg || s.anyBad (s.readPas pa 0) ||
      (match s.regionAt pa with | some (_, _, .shadow) => true | some (_, _, .tag) => true | _ => false) then .abort
  else .data (s.homeRead pa n 0)
/-- HOST_WRITE (R324, R325, R368, R405): bytes within one line; a refused write is aborted, and logged where R325 says so; a
full write-back queue makes it wait (R357). -/
def execHostWrite (ctx pa : Nat) (data : List Byte) (s : State) : Host.Outcome State Fault Refusal :=
  let refused := s.hostRefused pa data.length
  let goes := s.ready && !s.linkClamped && refused.isNone
  event "HOST_WRITE" (s.hostUp && !data.isEmpty && decide (pa % 64 + data.length ≤ 64) && (!goes || s.wbqRoom pa))
    (s.hostDoes fun s => match refused with
      | none => s.homeBytes pa data
      | some .silent => s
      | some .lost => s.foundAll ctx (s.writePas pa data.length 0)
      | some .logged => s.logRecord ctx { words := [recWord0 3 7 1, BitVec.ofNat 64 pa, s.recWord2Ctx ctx 0, 0, 0, 0, 0, 0], origin := .none })

end Sys2Proof.Machine
end

