-- ==== Sys2Proof/Machine/Wire.lean ====
section
/-! DEFINITION. The 256 bytes of a flit, and the code that protects them (R386, R388). The machine exchanges flits as their
fields; these definitions say which bytes stand for them on a link. -/

namespace Sys2Proof.Machine

/-- CRC-32C one byte on: the reflected polynomial of 0x1EDC_6F41, bit 0 of a byte first (R386, log 88, PRESUMED). -/
def crcByte (c : Word) (b : Byte) : Word :=
  (List.range 8).foldl (fun (c : Word) _ => if c.getLsbD 0 then (c >>> 1) ^^^ 0x82F63B78 else c >>> 1) (c ^^^ b.setWidth 32)
/-- CRC-32C of some bytes: all ones at first, complemented at last. -/
def crc32c (bs : List Byte) : Word := ~~~(bs.foldl crcByte 0xFFFFFFFF)
/-- Words 0 to 2 of a header (R386). The reserved bits are, from the low end of `rsv`, those of word 0, word 1 and word 2. -/
def flitWords (f : Flit) : List Nat :=
  [f.dpkg * 2 ^ 52 + f.spkg * 2 ^ 40 + f.ddie * 2 ^ 38 + f.sdie * 2 ^ 36 + f.vc * 2 ^ 34 + f.type * 2 ^ 28 + f.len * 2 ^ 20 + f.tag * 2 ^ 4 + f.rsv % 2 ^ 4,
   f.seq * 2 ^ 48 + f.ack * 2 ^ 32 + f.ctx * 2 ^ 26 + f.rsv / 2 ^ 4 % 2 ^ 26,
   f.rsv / 2 ^ 30 * 2 ^ 54 + f.paddr]
/-- The bytes of a flit that its CRC covers: 0 to 23, and 28 to 255 (R386). -/
def flitCovered (f : Flit) : List Byte × List Byte :=
  ((flitWords f).flatMap (bytesOf 8), bytesOf 4 f.aux.toNat ++ f.payload ++ List.replicate (224 - f.payload.length) 0)
/-- The 256 bytes of a flit (R386). -/
def flitBytes (f : Flit) : List Byte :=
  let (a, b) := flitCovered f
  a ++ bytesOf 4 (crc32c (a ++ b)).toNat ++ b
/-- The flit that 256 bytes stand for, where their CRC is right (R386, R388). -/
def flitOfBytes (bs : List Byte) : Option Flit :=
  let w (k : Nat) : Nat := ofBytes ((bs.drop (8 * k)).take 8)
  let crc := ofBytes ((bs.drop 24).take 4)
  if bs.length ≠ 256 ∨ crc ≠ (crc32c (bs.take 24 ++ bs.drop 28)).toNat then none
  else some
    { dpkg := bitsOf (w 0) 63 52, spkg := bitsOf (w 0) 51 40, ddie := bitsOf (w 0) 39 38, sdie := bitsOf (w 0) 37 36, vc := bitsOf (w 0) 35 34
      type := bitsOf (w 0) 33 28, len := bitsOf (w 0) 27 20, tag := bitsOf (w 0) 19 4, seq := bitsOf (w 1) 63 48, ack := bitsOf (w 1) 47 32
      ctx := bitsOf (w 1) 31 26, paddr := bitsOf (w 2) 53 0, aux := BitVec.ofNat 32 (w 3 / 2 ^ 32)
      rsv := w 0 % 2 ^ 4 + (w 1 % 2 ^ 26) * 2 ^ 4 + bitsOf (w 2) 63 54 * 2 ^ 30
      payload := (bs.drop 32).take (bitsOf (w 0) 27 20) }

end Sys2Proof.Machine
end

