-- ==== Sys2Proof/Machine/FabricEvents.lean ====
section
/-! DEFINITION. Links, and the flits that reach this package (R386 to R393, R403 to R409). -/

namespace Sys2Proof.Machine

/-- Changes a port. -/
def State.modPort (s : State) (k : Nat) (f : Port → Port) : State := { s with ports := s.ports.set k (f (s.ports.getD k {})) }
/-- Flits held for destinations of which nothing sent again is unacknowledged any more leave (R388). -/
def State.flushHeld (s : State) : State :=
  let stuck (f : Flit) : Bool := s.resent.any fun r => r.1 == f.dpkg
  (s.outHeld.filter fun f => !stuck f).foldl (fun s f => s.emitFlit f) { s with outHeld := s.outHeld.filter stuck }
/-- The other end of a link has received every flit up to a number: those are forgotten (R388). -/
def State.ackTo (s : State) (port ack : Nat) : State :=
  let p := s.ports.getD port {}
  match p.unacked.findIdx? fun u => u.seq == ack with
  | none => s
  | some k =>
    let gone := (p.unacked.take (k + 1)).map (·.seq)
    let s1 := s.modPort port fun p => { p with unacked := p.unacked.drop (k + 1), fails := 0 }
    ({ s1 with resent := s1.resent.filter fun r => !(r.2.1 == port && gone.contains r.2.2) } : State).flushHeld
/-- A flit arrives intact on a port that is up: whether it is new, and the state. One already accepted is discarded; one out of
turn cannot arrive (R388). -/
def State.accept (s : State) (port : Nat) (f : Flit) : Option (Bool × State) :=
  let p := s.ports.getD port {}
  if !s.on || !p.up || f.dpkg != s.pkg then none
  else
    let s1 := s.ackTo port f.ack
    if f.seq = p.seqIn % 2 ^ 16 then some (true, s1.modPort port fun p => { p with seqIn := p.seqIn + 1 })
    else if (p.seqIn + 2 ^ 16 - f.seq) % 2 ^ 16 ≤ 2 ^ 15 ∧ f.seq < 2 ^ 16 then some (false, s1)
    else none
/-- A flit that carries an acknowledgement only (R387). -/
def State.nullFlit (s : State) (p : Nat) : Flit := { s.flitTo 0 0 (p * 2 ^ 42) 0 0 0 0 [] with dpkg := p }
/-- A flit has been taken on a port: where nothing has left there since to carry its acknowledgement, a NULL does (R387, R388; log 16,
DESIGN CHOICE). A NULL itself asks for none. -/
def State.ackBack (s : State) (port : Nat) (f : Flit) (before : Nat) : State :=
  let p := s.ports.getD port {}
  if f.type != 0 && p.up && p.seqOut == before then s.emitOn port (s.nullFlit f.spkg) else s
/-- A flit of a type is received and acted on; none where it must wait. -/
def State.receive (s : State) (type port : Nat) (f : Flit) (act : State → Option State) : Option State :=
  let before := (s.ports.getD port {}).seqOut
  if f.type ≠ type ∨ f.rsv ≠ 0 then none
  else match s.accept port f with
    | none => none
    | some (false, s1) => some (s1.ackBack port f before)
    | some (true, s1) => (act s1).map fun s2 => s2.ackBack port f before
/-- The whole of a message, once its last flit is here: flits of it that say that more follow are kept (R386, R387; log 16, DESIGN
CHOICE). -/
def State.assemble (s : State) (f : Flit) : Option Flit × State :=
  let mine (p : Flit) : Bool := p.spkg == f.spkg && p.type == f.type && p.tag == f.tag && p.sdie == f.sdie
  if f.aux.getLsbD 31 then (none, { s with parts := s.parts ++ [f] })
  else (some { f with payload := (s.parts.filter mine).flatMap (·.payload) ++ f.payload }, { s with parts := s.parts.filter fun p => !mine p })
/-- A message that may come in several flits is acted on when it is whole. -/
def State.whole (s : State) (f : Flit) (act : State → Flit → Option State) : Option State :=
  match s.assemble f with
  | (none, s1) => some s1
  | (some g, s1) => act s1 g
/-- A row whose step may not be possible. -/
def maybe (name : String) (o : Option State) : Host.Outcome State Fault Refusal :=
  match o with
  | none => .refused (.notEnabled name)
  | some s => .next s

/-- The answer to a request: it goes back to the die it came from. AUX holds a cause of failure in bits 15 to 8 (log 16, DESIGN CHOICE). -/
def State.reply (s : State) (f : Flit) (type cause low : Nat) (payload : List Byte) : State :=
  s.sendLong { s.flitTo f.ctx ((homeDie f.paddr).getD 0) f.paddr type 1 f.tag (BitVec.ofNat 32 (cause * 256 + low)) payload with
    dpkg := f.spkg, ddie := f.sdie }
/-- The cause of failure an answer carries. -/
def flitCause (f : Flit) : Nat := f.aux.toNat / 256 % 256
/-- The step that a request of another package carries, 0 for none (R367; log 16, DESIGN CHOICE). -/
def flitStep (f : Flit) : Nat := if f.aux.getLsbD 29 then ofBytes (f.payload.drop (f.payload.length - 4)) else 0
/-- What a request carries beside its step. -/
def flitBody (f : Flit) : List Byte := if f.aux.getLsbD 29 then f.payload.take (f.payload.length - 4) else f.payload
/-- Why another package may not write a place, whatever its page and its data: a cause code, or 0 (R366, R390, R405). -/
def State.areaCause (s : State) (pa : Nat) : Nat :=
  if (homeDie pa).isNone || pkgOf pa != s.pkg then Cause.dataError.code
  else match s.regionAt pa with
    | some (_, _, .shadow) => Cause.pageProtection.code
    | some (_, _, .tag) => Cause.pageProtection.code
    | _ => if s.coded pa then Cause.pageProtection.code else 0
/-- What a remote access that needs some lines whole may not do at its home: a cause code, or 0 (R314, R324, R366, R404, R405). A write of a
stepped line was checked where it was issued, and carries its step (R368); one that carries none is STEP_AHEAD (log 34, DESIGN CHOICE). -/
def State.refusal (s : State) (pa st : Nat) (changes : Bool) (pas : List Nat) : Nat :=
  if (homeDie pa).isNone || pkgOf pa != s.pkg then Cause.dataError.code
  else match s.regionAt pa with
    | some (_, _, .shadow) => Cause.pageProtection.code
    | some (_, _, .tag) => Cause.pageProtection.code
    | r =>
      if changes && s.coded pa then Cause.pageProtection.code
      else if changes && s.pageState (pageOf pa) ≥ 2 then Cause.frozenWrite.code
      else if changes && r.isSome && st == 0 then Cause.stepAhead.code
      else if s.anyBad pas then Cause.dataError.code
      else 0
/-- The answer to a request that its home refuses: one that meets lost data finds it (R314). -/
def State.refuse (s : State) (f : Flit) (type cause low : Nat) (pas : List Nat) : State :=
  (if cause = Cause.dataError.code then s.foundAll f.ctx pas else s).reply f type cause low []
/-- RD at home, at the step it carries (R367, R391): a fill of an L1 from a SEALED page is tagged, and its package recorded (R326); what comes
of a stepped line is marked, for no L1 holds it. -/
def State.serveRd (s : State) (f : Flit) : Option State :=
  let pa := lineOf f.paddr * 64
  let st := flitStep f
  if s.sweeping pa then none
  else
    let c := s.refusal pa st false (s.readPas pa st)
    let bs := s.homeRead pa 64 st
    if c ≠ 0 then some (s.refuse f 2 c 0 (s.readPas pa st))
    else if (s.stepped pa).isSome then some (s.reply f 2 0 2 bs)
    else match s.dirEnt (pageOf pa) with
      | some e =>
        if e.state = .sealed ∧ f.aux.getLsbD 31 = true then
          some ((s.setDir (pageOf pa) (some { e with pkf := e.pkf ||| (1#32 <<< (f.spkg % 32)) })).reply f 2 0 1 bs)
        else some (s.reply f 2 0 0 bs)
      | none => some (s.reply f 2 0 0 bs)
/-- RD (R391). -/
def execRdFlit (port : Nat) (f : Flit) (s : State) : Host.Outcome State Fault Refusal :=
  maybe "RD" (s.receive 1 port f fun s => s.serveRd f)
/-- The access of this package that an answer belongs to. -/
def State.asker (s : State) (f : Flit) : Option Access :=
  s.accs.find? fun a => a.sent && !a.done && a.id % 2 ^ 16 == f.tag && pkgOf a.pa == f.spkg
/-- Data returns: to a home load itself, to any other through its L1 (R267, R269, R322, R326, R391). A fill whose line has lost bytes
since it left asks again: what it brought may be older than what its lanes must see (R276 to R279). So does one of a page that has frozen
meanwhile, once the line's dirty bytes have left: a load returns the bytes fixed as sealing ended (R326). What comes of a stepped line serves
its load and stays out of the L1 (R367). -/
def State.takeRdd (s : State) (f : Flit) : State :=
  match s.asker f with
  | none => s
  | some a =>
    let l1 := s.l1Of a.core
    let line := lineOf a.pa
    let off := a.pa % 64
    let x := s.l1Line l1 line
    if a.kind ≠ .read then s
    else if flitCause f ≠ 0 then
      if a.keep = .none then (s.endFill a).failed a else s.performed a [(flitCause f, [])] true
    else if a.home then
      ((if a.lanes = 0 then s else s.dropClean l1 a.pa).performed a (a.apps.map fun p => (p.1, (f.payload.drop off).take a.w)) false).afterRead a
    else if (f.aux.getLsbD 0 || f.aux.getLsbD 1 || (!x.frozen && s.freezing (dieOf a.core) a.pa)) && x.dirty != 0 then
      let s1 := (s.endFill a).wbLine l1 line
      { s1 with accs := s1.accs.map fun b => if b.id = a.id then { b with sent := false } else b }
    else if f.aux.getLsbD 1 then
      ((((s.endFill a).dropClean l1 a.pa).performed a (a.apps.map fun p => (p.1, (f.payload.drop off).take a.w)) false)).afterRead a
    else if !x.fill.contains a.id then { s with accs := s.accs.map fun b => if b.id = a.id then { b with sent := false } else b }
    else
      let frozen := f.aux.getLsbD 0
      let s1 := (s.endFill a).fillL1 l1 line a.ctx (!x.frozen && s.freezing (dieOf a.core) a.pa) f.payload frozen
      let s2 := if frozen then s1.putNear (dieOf a.core) line f.payload else s1
      (s2.performed a (a.apps.map fun p => (p.1, (s2.l1Line l1 line).bytes off a.w)) false).afterRead a
/-- RDD (R391). -/
def execRddFlit (port : Nat) (f : Flit) (s : State) : Host.Outcome State Fault Refusal :=
  maybe "RDD" (s.receive 2 port f fun s => if f.payload.length = 64 ∨ flitCause f ≠ 0 then some (s.takeRdd f) else some s)

/-- The cells of masked line data. -/
def maskedCells (pa : Nat) (body : List Byte) : List Host.Cell :=
  let m := ofBytes ((body.drop 64).take 8)
  ((body.take 64).mapIdx fun k b => (k, b)).filterMap fun c => if m.testBit c.1 then some (pa + c.1, c.2) else none
/-- The cells of a write of some bytes of a line at a step: of a stepped line, the bytes not written are as they were in what it replaces
(R368); none while it must wait at home. -/
def State.maskedWrite (s : State) (pa st : Nat) (cells : List Host.Cell) : Option (List Host.Cell) :=
  match s.stepped pa with
  | none => some cells
  | some (c, r) =>
    let l := s.stepLine c r pa
    let t := s.tags c r l
    let (v, fresh) := writeVersion t.1 t.2 st
    let old := s.bytes (s.versionPa c r l (if fresh then !v else v)) 64
    s.writeCells (lineOf pa * 64) st (old.mapIdx fun i b => ((cells.find? fun x => x.1 == lineOf pa * 64 + i).map Prod.snd).getD b)
/-- WR at home, at the step it carries (R324, R357, R367, R391): a whole line from a lane clears no error (R314). -/
def State.serveWr (s : State) (f : Flit) : Option State :=
  let pa := lineOf f.paddr * 64
  let st := flitStep f
  let c := s.refusal pa st true (s.writePas pa 1 st)
  if c ≠ 0 then some (s.refuse f 4 c 0 (s.writePas pa 1 st))
  else if !s.wbqRoom pa then none
  else (s.maskedWrite pa st (maskedCells pa (flitBody f))).map fun cells => (s.homeCells cells).reply f 4 0 0 []
/-- WR (R391). -/
def execWrFlit (port : Nat) (f : Flit) (s : State) : Host.Outcome State Fault Refusal :=
  maybe "WR" (s.receive 3 port f fun s => s.serveWr f)
/-- A write is acknowledged (R391), and the copy the issuing L1 holds is updated (R141): one that failed is dropped, or fails its engine. A
write-back dropped at another package's home is logged here, in the package that wrote it back (R325; log 120, DEDUCED). -/
def State.takeWack (s : State) (f : Flit) : State :=
  match s.asker f with
  | none => s
  | some a =>
    match a.kind with
    | .wb => s.wbDone a (if flitCause f = Cause.frozenWrite.code then a.mask else 0) 0 (flitCause f != 0)
    | .write => if flitCause f ≠ 0 then (s.performed a [] true).engineFail a (flitCause f) (f.aux.toNat % 256)
        else (s.updateCopy (s.l1Of a.core) a.pa a.data true).performed a [] false
    | _ => s
/-- WACK (R391). -/
def execWackFlit (port : Nat) (f : Flit) (s : State) : Host.Outcome State Fault Refusal :=
  maybe "WACK" (s.receive 4 port f fun s => some (s.takeWack f))

/-- AOP and ATY of an atomic's AUX (R59, R386). -/
def flitAtom (f : Flit) : Nat × Nat := (f.aux.toNat / 256 % 16, f.aux.toNat / 32 % 8)
/-- Cuts a payload into operands of a width. -/
def operandsOf (w : Nat) (bs : List Byte) : List (Nat × List Byte) :=
  (List.range (bs.length / max 1 w)).map fun k => (k, (bs.drop (w * k)).take w)
/-- AT at the home atomic unit, at the step it carries (R147, R367, R393): the old values return. -/
def State.serveAt (s : State) (f : Flit) : Option State :=
  let (aop, aty) := flitAtom f
  let w := atyBytes aty
  let st := flitStep f
  let pas := s.readPas f.paddr st ++ s.writePas f.paddr w st
  let c := s.refusal f.paddr st true pas
  if c ≠ 0 then some (s.refuse f 6 c 0 pas)
  else if !s.wbqRoom f.paddr then none
  else
    let (new, res) := atomApply aop aty (ofBytes (s.homeRead f.paddr w st)) (operandsOf (if aop = 7 then 2 * w else w) (flitBody f))
    (s.writeCells f.paddr st (bytesOf w new)).map fun cells => (s.homeCells cells).reply f 6 0 0 (res.flatMap Prod.snd)
/-- AT (R393). -/
def execAtFlit (port : Nat) (f : Flit) (s : State) : Host.Outcome State Fault Refusal :=
  maybe "AT" (s.receive 5 port f fun s => s.whole f State.serveAt)
/-- An atomic's answer: to the access, the signal addition or the contribution that asked (R286, R391, R401). The issuing L1 has nothing
clean of its line any more (R267), and a RED that its home refused is logged (R314, R325). -/
def State.takeAtd (s : State) (f : Flit) : State :=
  match s.asker f with
  | some a =>
    let w := atyBytes (match a.kind with | .atom _ t => t | .red _ t => t | _ => 0)
    let res := (a.apps.mapIdx fun k p => (p.1, (f.payload.drop (w * k)).take w))
    let s1 := s.dropClean (s.l1Of a.core) a.pa
    match a.kind with
    | .atom _ _ => if flitCause f ≠ 0 then s1.performed a [] true else (s1.performed a res false).afterRead a
    | .red _ _ =>
      let s2 := if flitCause f = 0 then s1 else if flitCause f = Cause.frozenWrite.code then s1.logRed a 2 1 else s1.logRed a 4 2
      s2.performed a [] (flitCause f != 0)
    | _ => s
  | none => match s.sigs.find? fun m => m.sent && m.id % 2 ^ 16 == f.tag with
    | some m =>
      let fail : Option Fail := if flitCause f = 0 then none else some { reason := flitCause f, side := 1, addr := m.va }
      ({ s with sigs := s.sigs.filter fun x => x.id != m.id } : State).finishOp m.ctx m.gid 3 m.n fail
    | none => match s.redos.find? fun m => m.sent && m.id % 2 ^ 16 == f.tag with
      | some m => s.redoAnswer m (.ofCode (flitCause f))
      | none => s
/-- ATD (R393). -/
def execAtdFlit (port : Nat) (f : Flit) (s : State) : Host.Outcome State Fault Refusal :=
  maybe "ATD" (s.receive 6 port f fun s => s.whole f fun s f => some (s.takeAtd f))
/-- RDO at its slot (R286, R393): accepted, refused, or not taken: its address is not this package's, or lies where another package may not
write (R366, R390, R405). A contribution to a stepped line is applied at C + 1 (log 34, DESIGN CHOICE). -/
def State.serveRdo (s : State) (f : Flit) : Option State :=
  let (aop, aty) := flitAtom f
  let n (k w : Nat) : Nat := ofBytes ((f.payload.drop k).take w)
  let c := s.areaCause f.paddr
  if c ≠ 0 then some (s.reply f 6 c 0 [])
  else (s.redoTake f.ctx f.paddr aop aty (n 12 4) (n 16 4) (n 0 8) (f.aux.toNat / 4 % 8) (n 8 4)).map fun r =>
    r.2.reply f 6 r.1.code 0 []
/-- RDO (R393). -/
def execRdoFlit (port : Nat) (f : Flit) (s : State) : Host.Outcome State Fault Refusal :=
  maybe "RDO" (s.receive 7 port f fun s => s.serveRdo f)

/-- FRZN (R321, R322, R404): the notice or gather passes to the four dies. -/
def execFrznFlit (port : Nat) (f : Flit) (s : State) : Host.Outcome State Fault Refusal :=
  maybe "FRZN" (s.receive 8 port f fun s =>
    some { s with notices := s.notices ++ [{ page := pageOf f.paddr, gather := f.aux.getLsbD 0, home := f.spkg, todo := [0, 1, 2, 3], wait := [] }] })
/-- A package's acknowledgement is given for a page (R321, R322). -/
def State.ackPkg (s : State) (page p : Nat) : State :=
  match s.dirEnt page with
  | some e => s.setDir page (some { e with await := e.await.filter (· != 4 + p) })
  | none => s
/-- FACK (R404): one that belongs to the page's state counts. -/
def State.takeFack (s : State) (f : Flit) : State :=
  match s.dirEnt (pageOf f.paddr) with
  | some e => if f.aux.getLsbD 0 == (e.state == .thawing) then s.ackPkg (pageOf f.paddr) f.spkg else s
  | none => s
/-- FACK (R404). -/
def execFackFlit (port : Nat) (f : Flit) (s : State) : Host.Outcome State Fault Refusal :=
  maybe "FACK" (s.receive 9 port f fun s => some (s.takeFack f))

/-- A collective that this package knows only from another package's contribution (R412). -/
def heldColl (job key seq n op ty rop count : Nat) : Coll :=
  { job := job, key := key, seq := seq, op := op, ty := ty, rop := rop, count := count, table := [], members := [], partials := [], n := n }
/-- A contribution of another package joins its collective: the words that follow those held (R398). -/
def Coll.takes (c : Coll) (p off : Nat) (ws : List Word) : Coll :=
  let old := ((c.partials.find? fun x => x.1 == p).map Prod.snd).getD []
  if old.length ≠ off then c else { c with partials := (c.partials.filter fun x => x.1 != p) ++ [(p, old ++ ws)] }
/-- COLD at the collective engine (R398, R399, R412): data, a failure, that every DST write of a package has been performed, or that a member has
contributed; a member that has contributed already fails it. What comes for a collective that has failed is answered with the failure. -/
def State.takeCold (s : State) (f : Flit) : State :=
  let n (k w : Nat) : Nat := ofBytes ((f.payload.drop k).take w)
  let (off, job, kind, terms) := (n 0 8, n 8 4, n 12 4, n 20 4)
  let key := f.aux.toNat
  let ws : List Word := (List.range ((f.payload.length - 24) / 4)).map fun k => BitVec.ofNat 32 (n (24 + 4 * k) 4)
  let c0 := heldColl job key f.tag (n 16 4) (terms / 2 ^ 29) (terms / 2 ^ 28 % 2) (terms / 2 ^ 27 % 2) (terms % 2 ^ 27)
  let s1 : State := if (s.collOf job key f.tag).isSome then s else { s with colls := s.colls ++ [c0] }
  match s1.collOf job key f.tag with
  | none => s1
  | some c =>
    if kind = 1 then s1.failHere c 65536 otherFail
    else if c.failed then s1.sendFlit (s1.collFlit c f.spkg 1 0 [])
    else if !c.agrees c0 then s1.failColl { c with partials := c.partials ++ [(f.spkg, [])] } 65536 otherFail
    else if kind = 2 then s1.modColl c fun x => { x with ended := x.ended ++ [f.spkg] }
    else if kind = 3 then
      if c.has off then s1.failColl { c with ready := c.ready ++ [(off, f.spkg)] } 65536 otherFail
      else s1.modColl c fun x => { x with ready := x.ready ++ [(off, f.spkg)] }
    else s1.modColl c fun x => x.takes f.spkg off ws
/-- COLD (R398). -/
def execColdFlit (port : Nat) (f : Flit) (s : State) : Host.Outcome State Fault Refusal :=
  maybe "COLD" (s.receive 0x0A port f fun s => some (s.takeCold f))
/-- BARM at the barrier unit, or back at the group that arrived (R403, R412). -/
def State.takeBarm (s : State) (f : Flit) : State :=
  let n (k w : Nat) : Nat := ofBytes ((f.payload.drop k).take w)
  let (job, cnt, id, kind, who) := (n 0 4, n 4 4, n 8 4, n 12 4, n 16 8)
  if kind = 0 then s.barPod job id cnt (f.spkg, who) else s.barHere 5 cnt kind who
/-- BARM (R403). -/
def execBarmFlit (port : Nat) (f : Flit) (s : State) : Host.Outcome State Fault Refusal :=
  maybe "BARM" (s.receive 0x0B port f fun s => some (s.takeBarm f))

/-- Where the unit of a stripe lies that this package holds (R406): in its own areas. -/
def State.ownUnit (s : State) (stripe : Nat) : Nat := s.erasure.unitPa stripe s.erasure.pos % 2 ^ 42 + s.pkg * 2 ^ 42
/-- Whether this package holds a unit of a stripe, of parity where `parity` says so (R405, R406). -/
def State.holdsUnit (s : State) (stripe : Nat) (parity : Bool) : Bool :=
  let e := s.erasure
  e.en && decide (stripe < e.stripes) && (!parity || decide (e.k ≤ e.unitAt stripe e.pos))
/-- A parity delta applied at home, at its offset of the holder's parity unit (R408); none while the write-back queue is full. -/
def State.applyDelta (s : State) (f : Flit) : Option State :=
  let stripe := ofBytes ((f.payload.drop 64).take 8)
  let pa := s.ownUnit stripe + lineOf f.paddr * 64 % 2 ^ 17
  if !s.holdsUnit stripe true || pkgOf f.paddr != s.pkg then some (s.reply f 4 Cause.pageProtection.code 0 [])
  else if s.lineBad pa then some (s.refuse f 4 Cause.dataError.code 0 [pa])
  else if !s.wbqRoom pa then none
  else some ((s.homeBytes pa ((s.bytes pa 64).zipWith (· ^^^ ·) (f.payload.take 64))).reply f 4 0 0 [])
/-- The bytes of this package's unit of a stripe leave for the package that rebuilds, in order (R409). -/
def State.sendUnit (s : State) (f : Flit) : State :=
  let stripe := ofBytes (f.payload.take 8)
  let pa := s.ownUnit stripe
  let run := ofBytes ((f.payload.drop 8).take 8)
  let back (s : State) (kind : Nat) (body : List Byte) : State :=
    s.sendFlit { s.flitTo f.ctx ((homeDie pa).getD 0) f.paddr 0x0C 3 f.tag (BitVec.ofNat 32 kind) body with dpkg := f.spkg, ddie := f.sdie }
  if !s.holdsUnit stripe false || pkgOf f.paddr != s.pkg || (List.range 2048).any fun k => s.lineBad (pa + 64 * k) then back s 3 (bytesOf 8 stripe ++ bytesOf 8 run)
  else (List.range 1024).foldl (fun s k => back s 2 (bytesOf 8 stripe ++ bytesOf 8 run ++ bytesOf 8 (128 * k) ++ s.bytes (pa + 128 * k) 128)) s
/-- Whether an answer belongs to the stripe that a rebuild is at (R409). -/
def Erasure.awaits (e : Erasure) (f : Flit) : Bool :=
  e.busy && e.from_.contains f.tag && ofBytes (f.payload.take 8) == e.at_ && ofBytes ((f.payload.drop 8).take 8) == e.run
/-- A unit's bytes arrive at the package that rebuilds (R409). -/
def State.takeUnit (s : State) (f : Flit) : State :=
  let e := s.erasure
  let old := ((e.units.find? fun u => u.1 == f.tag).map Prod.snd).getD []
  if !e.awaits f || old.length != ofBytes ((f.payload.drop 16).take 8) then s
  else { s with erasure := { e with units := (e.units.filter fun u => u.1 != f.tag) ++ [(f.tag, old ++ f.payload.drop 24)] } }
/-- STR (R408, R409): AUX 0 is a parity delta, 1 asks for a unit, 2 brings bytes of one, 3 says they cannot be had; the last three name
the stripe and the rebuild (log 20, DESIGN CHOICE). -/
def execStrFlit (port : Nat) (f : Flit) (s : State) : Host.Outcome State Fault Refusal :=
  maybe "STR" (s.receive 0x0C port f fun s => match f.aux.toNat with
    | 0 => s.applyDelta f
    | 1 => some (s.sendUnit f)
    | 2 => some (s.takeUnit f)
    | _ => some (if s.erasure.awaits f then s.dropRebuild else s))
/-- BULK at home (R387): its lines in order, each 64 bytes and a mask, are written all or, where one is refused, not at all; the answer
names the first refused (R309). Bit 30 of AUX tells a Tongs chunk, whose whole lines leave the error set (R314), from a snapshot's line (log
16, DESIGN CHOICE). -/
def State.serveBulk (s : State) (f : Flit) : Option State :=
  let pa := lineOf f.paddr * 64
  let tongs := f.aux.getLsbD 30
  let st := flitStep f
  let lines := (List.range ((flitBody f).length / 72)).map fun k => (k, maskedCells (pa + 64 * k) (((flitBody f).drop (72 * k)).take 72))
  let pas (l : Nat × List Host.Cell) : List Nat := s.writePas (pa + 64 * l.1) l.2.length st
  match lines.find? fun l => s.refusal (pa + 64 * l.1) st true (pas l) != 0 with
  | some l => some (s.refuse f 4 (s.refusal (pa + 64 * l.1) st true (pas l)) l.1 (pas l))
  | none =>
    let done := lines.foldl (fun (acc : Option State) l => acc.bind fun s =>
      if !s.wbqRoom (pa + 64 * l.1) then none
      else (s.maskedWrite (pa + 64 * l.1) st l.2).map fun cells =>
        let t := s.homeCells cells
        if tongs then t.clearError ((cells.map Prod.fst).headD (pa + 64 * l.1)) l.2.length else t) (some s)
    done.map fun s => s.reply f 4 0 0 []
/-- BULK (R387). -/
def execBulkFlit (port : Nat) (f : Flit) (s : State) : Host.Outcome State Fault Refusal :=
  maybe "BULK" (s.receive 0x0D port f fun s => s.whole f State.serveBulk)
/-- NULL (R387, R388): it carries an acknowledgement only. -/
def execNullFlit (port : Nat) (f : Flit) (s : State) : Host.Outcome State Fault Refusal :=
  maybe "NULL" (s.receive 0 port f fun s => some s)
/-- BAD_FLIT (R387): a TYPE that does not exist, or a reserved bit, and the flit is dropped and counted. -/
def execBadFlit (port : Nat) (f : Flit) (s : State) : Host.Outcome State Fault Refusal :=
  maybe "BAD_FLIT" (if f.type < 0x0E ∧ f.rsv = 0 then none else (s.accept port f).map fun r =>
    if r.1 then r.2.modPort port fun p => { p with bad := min 255 (p.bad + 1) } else r.2)

/-- A port goes down: what the other end has not acknowledged leaves over other ports, and new flits to those destinations
wait for it (R388, R390). A package that no port reaches any more has failed for what waits for it (R390). -/
def State.portDown (s : State) (port : Nat) : State :=
  let fs := (s.ports.getD port {}).unacked
  let s1 := s.modPort port fun p => { p with up := false, unacked := [], fails := 0 }
  let s2 : State := { s1 with resent := s1.resent.filter fun r => r.2.1 != port }
  let s3 := fs.foldl (fun s f =>
    let set := s.portsTo f.dpkg
    match set[Config.portHash (lineOf f.paddr) f.sdie % max 1 set.length]? with
    | none => s
    | some k => ({ s with resent := s.resent ++ [(f.dpkg, k, (s.ports.getD k {}).seqOut % 2 ^ 16)] } : State).emitFlit f) s2
  s3.resolveLost s
/-- FLIT_CRC_FAILURE (R388): the flit is discarded, and the end that sent it will send it again. -/
def execFlitCrcFailure (port : Nat) (s : State) : Host.Outcome State Fault Refusal :=
  event "FLIT_CRC_FAILURE" (s.on && decide (port < 16) && (s.ports.getD port {}).up) s
/-- FLIT_REPLAY (R388): everything from the first unacknowledged flit leaves again, with what has been received by now; after 8 replays in
a row without an acknowledgement the port goes down. -/
def execFlitReplay (port : Nat) (s : State) : Host.Outcome State Fault Refusal :=
  let p := s.ports.getD port {}
  event "FLIT_REPLAY" (s.on && decide (port < 16) && p.up && !p.unacked.isEmpty)
    (if p.fails ≥ 8 then s.portDown port
     else ({ s with out := s.out ++ p.unacked.map fun f => { f with ack := p.ack } } : State).modPort port fun p =>
      { p with fails := p.fails + 1, retry := min 255 (p.retry + 1) })

/-- FABFAIL_WRITE (R389, R404). -/
def execFabfailWrite (w : Nat) (v : Dword) (s : State) : Host.Outcome State Fault Refusal :=
  let named := ((List.range 64).filter fun b => v.getLsbD b).map (64 * w + ·)
  let kept := s.fabFail.filter fun p => p / 64 != w
  let fresh := named.filter fun p => !s.fabFail.contains p
  event "FABFAIL_WRITE" (s.on && decide (w < 64)) (fresh.foldl (fun s p => s.resolveFailed p) { s with fabFail := kept ++ named })

end Sys2Proof.Machine
end

