-- ==== Sys2Proof/Machine/CollEvents.lean ====
section
/-! DEFINITION. Collectives and signals at work (R41, R395 to R402). -/

namespace Sys2Proof.Machine

/-- A reduction of two words (R41, R398): FP32 rounded to nearest even, or 32-bit integers. -/
def combine (ty rop a b : Nat) : Nat :=
  if ty = 0 then (finish .fp32 0 (if rop = 0 then addNum 0 (Fmt.fp32.decode a) (Fmt.fp32.decode b) else minMaxNum true false (Fmt.fp32.decode a) (Fmt.fp32.decode b))).1
  else if rop = 0 then (a + b) % 2 ^ 32
  else if signedOf 32 a ≥ signedOf 32 b then a else b
/-- The reduction of a list of vectors, left to right. -/
def reduceAll (ty rop : Nat) : List (List Nat) → List Nat
  | [] => []
  | v :: rest => rest.foldl (fun acc w => acc.zipWith (combine ty rop) w) v
/-- The vectors of some members grouped by a key of their cores, in increasing key, each group reduced. -/
def reduceBy (ty rop : Nat) (key : Nat → Nat) (vs : List (Nat × List Nat)) : List (Nat × List Nat) :=
  (sortBy id ((vs.map fun v => key v.1).dedup)).map fun k => (k, reduceAll ty rop ((vs.filter fun v => key v.1 == k).map Prod.snd))
/-- The partial of a package: by core in each quad, by quad in each die, by die (R41 steps 1 to 3). -/
def packagePartial (ty rop : Nat) (vs : List (Nat × List Nat)) : List Nat :=
  let cores := reduceBy ty rop (fun c => c) vs
  let quads := reduceBy ty rop quadOf cores
  let dies := reduceBy ty rop (· / 32) quads
  reduceAll ty rop (dies.map Prod.snd)
/-- FP32 narrowed to BF16 at the gateway, and widened again (R41 steps 4 and 5). -/
def narrowGate (a : Nat) : Nat := (roundTo .bf16 false 0 (Fmt.fp32.decode a)).1
/-- BF16 widened to FP32. -/
def widenGate (a : Nat) : Nat := (roundTo .fp32 false 0 (Fmt.bf16.decode a)).1
/-- An FP32 result with a canonical NaN (R17). -/
def canonFp32 (a : Nat) : Nat := (roundTo .fp32 false 0 (Fmt.fp32.decode a)).1

/-- The members of a collective that lie on a package, by index. -/
def Coll.membersOn (c : Coll) (p : Nat) : List Nat := (List.range c.table.length).filter fun m => (c.table.getD m (0, 0)).1 == p
/-- How many words a member reads. -/
def Coll.reads (c : Coll) : Nat := if c.op = 1 then c.table.length * c.count else c.count
/-- How many words a package's partial has. -/
def Coll.partialLen (c : Coll) (p : Nat) : Nat := if c.op = 2 then (c.membersOn p).length * c.count else c.reads
/-- Whether every member of a collective on this package has contributed. -/
def Coll.allHere (c : Coll) (pkg : Nat) : Bool :=
  !c.failed && !c.table.isEmpty && (c.membersOn pkg).all fun m => c.members.any fun x => x.idx == m
/-- Whether every member of other packages has contributed, so far as this package has been told. -/
def Coll.allReady (c : Coll) (pkg : Nat) : Bool := (List.range c.table.length).all fun m => (c.table.getD m (0, 0)).1 == pkg || c.told m
/-- What this package has to give the others: its members' words in index order, or their reduction. -/
def Coll.ours (c : Coll) (pkg : Nat) : List Nat :=
  let ms := (c.membersOn pkg).map fun m => ((c.table.getD m (0, 0)).2,
    (((c.members.find? fun x => x.idx == m).bind (·.data)).getD []).map BitVec.toNat)
  if c.op = 2 then ms.flatMap Prod.snd else packagePartial c.ty c.rop ms
/-- The packages of a collective in increasing order of their lowest member (R395). -/
def Coll.packages (c : Coll) : List Nat := (c.table.map Prod.fst).dedup
/-- The form in which a partial crosses the gateway. -/
def Coll.gate (c : Coll) (ws : List Nat) : List Nat := if c.op ≠ 2 ∧ c.ty = 0 then ws.map narrowGate else ws
/-- The whole result, from every package's partial (R41, R398). -/
def Coll.result (c : Coll) (pkg : Nat) : List Nat :=
  let part (p : Nat) : List Nat :=
    if p = pkg then c.gate (c.ours pkg) else (((c.partials.find? fun x => x.1 == p).map Prod.snd).getD []).map BitVec.toNat
  if c.op = 2 then c.packages.flatMap part
  else if c.packages.length ≤ 1 then (if c.ty = 0 then (c.ours pkg).map canonFp32 else c.ours pkg)
  else if c.ty = 0 then reduceAll 0 c.rop ((c.packages.map part).map fun v => v.map widenGate)
  else reduceAll 1 c.rop (c.packages.map part)
/-- What a member receives in DST (R398). -/
def Coll.receives (c : Coll) (pkg idx : Nat) : List Byte :=
  let r := c.result pkg
  (if c.op = 1 then (r.drop (idx * c.count)).take c.count else r).flatMap fun w => bytesOf 4 w
/-- Whether the partials of every other package are here. -/
def Coll.allThere (c : Coll) (pkg : Nat) : Bool :=
  (c.others pkg).all fun p => match c.partials.find? fun x => x.1 == p with
    | some x => decide (x.2.length ≥ c.partialLen p)
    | none => false
/-- Changes a member of a collective. -/
def State.modMember (s : State) (c : Coll) (idx : Nat) (f : Member → Member) : State :=
  s.modColl c fun x => { x with members := x.members.map fun m => if m.idx = idx then f m else m }
/-- The die of a member's core. -/
def Coll.dieOf (c : Coll) (m : Member) : Nat := Sys2Proof.Machine.dieOf (c.table.getD m.idx (0, 0)).2
/-- A member's part stops: paused for firmware at a page that is not present, or the collective fails (R399). -/
def State.collStop (s : State) (c : Coll) (m : Member) (side : Nat) (e : Stop) : State :=
  if e.1 = .pageNotPresent then
    (s.modMember c m.idx fun x => { x with paused := true }).logRecord m.ctx
      { words := [recWord0 1 8 side, BitVec.ofNat 64 e.2, s.opWord2 m.ctx m.gid, 0, 0, 0, s.opWord6 m.ctx m.gid, 0]
        origin := .coll c.job c.key c.seq m.idx }
  else
    let s1 := if e.1 = Cause.dataError then s.engineFound (c.dieOf m) m.ctx 0 e.2 (if side = 0 then .read else .write) else s
    s1.failColl c m.idx { reason := e.1.code, side := side, addr := BitVec.ofNat 64 e.2 }
/-- Who a member is to the lines it asks for. -/
def Coll.origin (c : Coll) (m : Member) : Origin := .coll c.job c.key c.seq m.idx
/-- The partial leaves for the other packages once every member here has been read (R398, R399). -/
def State.sendPartial (s : State) (c : Coll) : State :=
  let ws : List Word := (c.gate (c.ours s.pkg)).map (BitVec.ofNat 32)
  (c.others s.pkg).foldl (fun s p => (List.range ((ws.length + 49) / 50)).foldl (fun s k =>
    s.sendFlit (s.collFlit c p 0 (50 * k) ((ws.drop (50 * k)).take 50))) s) s
/-- A member's SRC is read (R399): lines of other packages come here first (R391), and an enable sweep ends (R372); none while it waits. -/
def State.collRead (s : State) (c : Coll) (m : Member) : Option State :=
  let die := c.dieOf m
  let pas := s.enginePas die m.ctx 0 m.src (4 * c.reads)
  if pas.any s.sweeping then none
  else match s.needLines (c.origin m) (128 * die) m.ctx 0 pas with
    | some s1 => if (s.toAsk (c.origin m) pas).isEmpty then none else some s1
    | none =>
      let s0 := s.dropKept (c.origin m)
      match s.engineReads (c.origin m) die m.ctx 0 m.src (4 * c.reads) with
      | .error e => some (s0.collStop c m 0 e)
      | .ok bs =>
        let ws : List Word := (List.range c.reads).map fun k => BitVec.ofNat 32 (ofBytes ((bs.drop (4 * k)).take 4))
        let s1 := s0.modMember c m.idx fun x => { x with data := some ws }
        match s1.collOf c.job c.key c.seq with
        | some c1 => some (if c1.members.all fun x => x.data.isSome then s1.sendPartial c1 else s1)
        | none => some s1
/-- Bytes within a line of a member's DST written: at home, or on their way to another package in a WR (R387, R399); none while the home
cannot take them. -/
def State.collPut (s : State) (die ctx va pa : Nat) (bs : List Byte) : Option (List Nat × State) :=
  if pkgOf pa ≠ s.pkg then
    let (id, s1) := s.engineSend die ctx orphanGid 0 va pa 0 3 0 (wrPayload (va % 64) bs)
    some ([id], s1)
  else if s.wbqRoom pa then some ([], s.homeBytes pa bs) else none
/-- The next line of a member's DST is written (R399); none while its home cannot take it. -/
def State.collWrite (s : State) (c : Coll) (m : Member) (bs : List Byte) : Option State :=
  let die := c.dieOf m
  match (linePieces m.dst bs.length)[m.wrote]? with
  | none => none
  | some (va, n) => match s.engineDest die m.ctx 0 va n with
    | .error e => some (s.collStop c m 1 e)
    | .ok pa => (s.collPut die m.ctx va pa ((bs.drop (va - m.dst)).take n)).map fun r =>
      r.2.modMember c m.idx fun x => { x with wrote := x.wrote + 1, deps := r.1 }
/-- The collective ends: its members here complete (R399). -/
def State.collEnd (s : State) (c : Coll) : State :=
  let s1 : State := { s with colls := s.colls.filter fun x => !(x.job == c.job && x.key == c.key && x.seq == c.seq) }
  c.members.foldl (fun s m => s.finishOp m.ctx m.gid 3 m.n none) s1
/-- Every DST write of this package is performed: the others are told, and with the same word from each the collective ends (R399). -/
def State.collClose (s : State) (c : Coll) : Option State :=
  if (c.others s.pkg).isEmpty || (c.ended.contains s.pkg && (c.others s.pkg).all c.ended.contains) then some (s.collEnd c)
  else if c.ended.contains s.pkg then none
  else some ((s.modColl c fun x => { x with ended := x.ended ++ [s.pkg] }).tellColl c 2 0)
/-- The next part of a collective on this package, once all N members have contributed: a member read, a line written, or its end (R398, R399). -/
def State.collStep (s : State) (c : Coll) : Option State :=
  let free (m : Member) : Bool := !m.paused && !m.deps.any s.pendingId
  if (c.failed || (c.others s.pkg).any fun p => !s.reachable p) && !c.members.isEmpty then some (s.failColl c 65536 otherFail)
  else if !c.allHere s.pkg || !c.allReady s.pkg then none
  else match c.members.find? fun m => m.data.isNone && free m with
    | some m => s.collRead c m
    | none =>
      if c.members.any (fun m => m.data.isNone) || !c.allThere s.pkg then none
      else
        let left (m : Member) : Bool := decide (m.wrote < (linePieces m.dst (c.receives s.pkg m.idx).length).length)
        match c.members.find? fun m => left m && free m with
        | some m => s.collWrite c m (c.receives s.pkg m.idx)
        | none => if c.members.all fun m => !left m && free m then s.collClose c else none
/-- COLLECTIVE_COMPLETE (R398, R399): SRC and DST are read and written line by line, and the last step completes the members, once every
package of it has performed its DST writes. -/
def execCollectiveComplete (job key seq : Nat) (s : State) : Host.Outcome State Fault Refusal :=
  maybe "COLLECTIVE_COMPLETE" ((s.collOf job key seq).bind s.collStep)

/-- A signal addition at its home, or on its way there (R401); none while it must wait. -/
def State.sigApply (s : State) (m : SigAdd) : Option State :=
  let gone : State := { s with sigs := s.sigs.filter fun x => x.id != m.id }
  let failed : Option State := some (gone.finishOp m.ctx m.gid 3 m.n (some { reason := Cause.dataError.code, side := 1, addr := m.va }))
  let pas := s.readPas m.pa m.step ++ s.writePas m.pa 8 m.step
  let st := (s.carried m.pa m.step).getD 0
  if m.sent || m.deps.any s.pendingId || (inScm m.pa && s.olderWrite m.gid m.epoch m.id) then none
  else if !s.reachable (pkgOf m.pa) then failed
  else if pkgOf m.pa ≠ s.pkg then
    let sent : State := { s with sigs := s.sigs.map fun x => if x.id = m.id then { x with sent := true } else x }
    some (sent.sendFlit (s.flitTo m.ctx (dieOf m.core) m.pa 5 0 m.id (BitVec.ofNat 32 (3 * 32 + 5 * 4 + 2) ||| stepBit st) (bytesOf 8 m.val ++ stepTail st)))
  else if s.sweeping m.pa then none
  else if s.anyBad pas then failed.map fun t => t.foundAll m.ctx pas
  else if inScm m.pa && !s.wbqRoom m.pa then none
  else (s.writeCells m.pa m.step (bytesOf 8 ((ofBytes (s.homeRead m.pa 8 m.step) + m.val) % 2 ^ 64))).map fun cells =>
    (gone.homeCells cells).finishOp m.ctx m.gid 3 m.n none
/-- SIGADD_APPLIED (R401). -/
def execSigaddApplied (id : Nat) (s : State) : Host.Outcome State Fault Refusal :=
  maybe "SIGADD_APPLIED" ((s.sigs.find? fun m => m.id == id).bind s.sigApply)
/-- Whether a split stands at a SIGWAIT that waits. -/
def State.sigWaits (s : State) (gid slot : Nat) : Bool :=
  !s.issuing gid slot && s.mayRun gid slot && (match s.fetchAt gid slot with
    | .words w => (insOfWords w).op == 0xED
    | _ => false)
/-- SIGWAIT_RETEST (R402): the home tests the word again. -/
def execSigwaitRetest (gid slot : Nat) (s : State) : Host.Outcome State Fault Refusal :=
  event "SIGWAIT_RETEST" (s.sigWaits gid slot) (s.testReady gid slot)

end Sys2Proof.Machine
end

