-- ==== Sys2Proof/Machine/CrossLane.lean ====
section
/-! DEFINITION. The cross-lane group (R132 to R137) with its short forms. -/

namespace Sys2Proof.Machine

/-- The source lane of SHFL for a lane, where it exists (R134). -/
def shflSrc (opx b i : Nat) : Option Nat :=
  let s := max 1 (32 >>> (b / 256 % 16))
  let d := b % 256
  let base := i - i % s
  let o := i % s
  match opx with
  | 0 => some (base + d % s)
  | 1 => if o ≥ d then some (i - d) else none
  | 2 => if o + d < s then some (i + d) else none
  | _ => some (base + (o ^^^ (d % s)))

/-- SHFL (R134). -/
def shflEff : Iss → State → Eff := capped Ins.dsts fun i s =>
  let r := s.regs i
  let n := i.ins.width
  let t := laneTable i fun l =>
    match shflSrc i.ins.opx (r.x i.ins.b l).toNat l with
    | some j => if i.active.getLsbD j then (r.xs i.ins.a n j, true) else (r.xs i.ins.a n l, false)
    | none => (r.xs i.ins.a n l, false)
  let s1 := (s.lastReads i).writeLanes i i.ins.d n (t.map fun x => (x.1, x.2.1))
  .done (if i.ins.c = 288 then s1 else s1.writeP i i.ins.c fun l => (tableAt t l (0, false)).2)

/-- The operation ⊕ of VRED and VSCAN (R135). -/
def redOp (op ty rm a b : Nat) : Nat × Flags :=
  if ty = 6 ∨ ty = 9 then
    let f := tyFmt ty
    finish f rm (match op with
      | 0 => addNum rm (f.decode a) (f.decode b)
      | 1 => minMaxNum false false (f.decode a) (f.decode b)
      | _ => minMaxNum true false (f.decode a) (f.decode b))
  else
    let (_, w, sg) := tyElem ty
    let x := elemInt w sg a; let y := elemInt w sg b
    (match op with
      | 0 => wrapTo w (x + y) | 1 => if x ≤ y then a else b | 2 => if x ≥ y then a else b
      | 3 => a &&& b | 4 => a ||| b | _ => a ^^^ b, 0)

/-- ⊕ with the empty operand (R135). -/
def redOpt (op ty rm : Nat) : Option Nat → Option Nat → Option Nat × Flags
  | some a, some b => let (r, f) := redOp op ty rm a b; (some r, f)
  | some a, none => (some a, 0)
  | none, b => (b, 0)

/-- The values the executing lanes contribute; a lane that takes no part contributes the empty operand. -/
def contributions (i : Iss) (r : Regs) (n : Nat) : List (Option Nat) :=
  laneIdx.map fun l => if i.exec.getLsbD l then some (r.xs i.ins.a n l) else none

/-- The fixed tree of VRED (R38): steps of `w` pairs, halving. -/
def redTree (op ty rm : Nat) : Nat → List (Option Nat) → Flags → Option Nat × Flags
  | 0, xs, fl => (xs.headD none, fl)
  | k + 1, xs, fl =>
    let w := 2 ^ k
    let ys := (List.range w).map fun i => redOpt op ty rm (xs.getD i none) (xs.getD (i + w) none)
    redTree op ty rm k (ys.map Prod.fst) (ys.foldl (fun a y => a ||| y.2) fl)

/-- The prefixes of VSCAN (R39): steps at distance 2^k for the given k. -/
def scanSteps (op ty rm : Nat) : List Nat → List (Option Nat) → Flags → List (Option Nat) × Flags
  | [], xs, fl => (xs, fl)
  | d :: rest, xs, fl =>
    let ys := (List.range 32).map fun i =>
      if i ≥ d then redOpt op ty rm (xs.getD (i - d) none) (xs.getD i none) else (xs.getD i none, 0)
    scanSteps op ty rm rest (ys.map Prod.fst) (ys.foldl (fun a y => a ||| y.2) fl)

/-- VRED (R135). -/
def vredEff : Iss → State → Eff := capped Ins.dsts fun i s =>
  let r := s.regs i
  let n := i.ins.width
  let (v, fl) := redTree i.ins.c i.ins.ty i.ins.rm 5 (contributions i r n) 0
  .done (((s.lastReads i).writeLanes i i.ins.d n (laneTable i fun _ => v.getD 0)).flags i fl)

/-- VSCAN (R135). -/
def vscanEff : Iss → State → Eff := capped Ins.dsts fun i s =>
  let r := s.regs i
  let n := i.ins.width
  let (vs, fl) := scanSteps i.ins.c i.ins.ty i.ins.rm [1, 2, 4, 8, 16] (contributions i r n) 0
  .done (((s.lastReads i).writeLanes i i.ins.d n (laneTable i fun l => (vs.getD l none).getD 0)).flags i fl)

/-- VOTE (R136). -/
def voteEff : Iss → State → Eff := fun i s =>
  let r := s.regs i
  let n := i.exec.lanes.length
  let c := (i.exec.lanes.filter fun l => r.pred i.ins.a l).length
  let t := match i.ins.opx with
    | 0 => c == n | 1 => decide (c > 0) | 2 => c == 0 || c == n | _ => decide (2 * c > n)
  .done (s.writeP i i.ins.d fun _ => t)

/-- Word OPX of a 32-lane mask (R137). -/
def maskWord (opx : Nat) (m : Mask) : Nat := if opx = 0 then m.toNat else 0

/-- BALLOT (R137). -/
def ballotEff : Iss → State → Eff := capped Ins.dsts fun i s =>
  let r := s.regs i
  let m := Mask.ofFn fun l => i.exec.getLsbD l && r.pred i.ins.a l
  .done (s.writeLanes i i.ins.d 1 (laneTable i fun _ => maskWord i.ins.opx m))

/-- MATCH (R137). -/
def matchEff : Iss → State → Eff := capped Ins.dsts fun i s =>
  let r := s.regs i
  let n := i.ins.width
  .done ((s.lastReads i).writeLanes i i.ins.d 1 (laneTable i fun l => maskWord i.ins.opx
    (Mask.ofFn fun j => i.exec.getLsbD j && r.xs i.ins.a n j == r.xs i.ins.a n l)))

/-- SHFL: issues in the split in focus. -/
def execShfl (f : W64F) (s : State) := issue (insW64 0x70 f) shflEff s
/-- SHFL_W32 (R51). -/
def execShflW32 (f : W32F) (s : State) := issue (insW32 61 f) shflEff s
/-- VRED: issues in the split in focus. -/
def execVred (f : W64F) (s : State) := issue (insW64 0x71 f) vredEff s
/-- VRED_W32 (R51). -/
def execVredW32 (f : W32F) (s : State) := issue (insW32 62 f) vredEff s
/-- VSCAN: issues in the split in focus. -/
def execVscan (f : W64F) (s : State) := issue (insW64 0x72 f) vscanEff s
/-- VOTE: issues in the split in focus. -/
def execVote (f : W64F) (s : State) := issue (insW64 0x73 f) voteEff s
/-- BALLOT: issues in the split in focus. -/
def execBallot (f : W64F) (s : State) := issue (insW64 0x74 f) ballotEff s
/-- MATCH: issues in the split in focus. -/
def execMatchLanes (f : W64F) (s : State) := issue (insW64 0x75 f) matchEff s

end Sys2Proof.Machine
end

