-- ==== Sys2Proof/Machine/FpMath.lean ====
section
/-! DEFINITION. The transcendental functions of the lanes (R117, R118), by fixed-point arithmetic of 320 fraction bits. -/

namespace Sys2Proof.Machine

/-- Fraction bits of the working precision. -/
def fixBits : Nat := 320

/-- π in fixed point, rounded down. -/
def fixPi : Nat := 6710401180212168915155840974220003240804194089427148950727106424351713218671805380099500388914039

/-- ln 2 in fixed point, rounded down. -/
def fixLn2 : Nat := 1480553391661173448385607439722553250922680800745876974795605978609098082859138712941075737848984

/-- log₂ e in fixed point, rounded down. -/
def fixLog2e : Nat := 3081577904126213121686167198097690134163479766071396094403848907535455306605342191083616308484524

/-- The terms of an exponential series from index `k` on, `n` of them: each is the last × y / k. -/
def expTerms : Nat → Nat → Nat → Nat → Nat
  | 0, _, _, _ => 0
  | n + 1, k, t, y => let u := (t * y) >>> fixBits / k; u + expTerms n (k + 1) u y

/-- 2^f in fixed point for a fixed-point f in [0, 1). -/
def fixExp2 (f : Nat) : Nat := 2 ^ fixBits + expTerms 90 1 (2 ^ fixBits) ((f * fixLn2) >>> fixBits)

/-- The alternating series of the sine from θ^k on, `n` terms, as a sum of signed terms. -/
def sinTerms : Nat → Nat → Int → Nat → Int
  | 0, _, _, _ => 0
  | n + 1, k, t, sq => t + sinTerms n (k + 2) (-(t * (sq : Int) / 2 ^ fixBits) / (((k + 1) * (k + 2) : Nat) : Int)) sq

/-- sin θ in fixed point for θ in [0, π/2]. -/
def fixSin (θ : Nat) : Nat := (sinTerms 60 1 (θ : Int) ((θ * θ) >>> fixBits)).toNat

/-- An irrational result known in fixed point, with its low bits left off. -/
def irrational (neg : Bool) (v : Nat) (e : Int) : Num := withSticky neg (v >>> 30) (e + 30 - (fixBits : Int)) false

/-- 2^a (R117, R118). -/
def exp2Num (a : Num) : Num × Flags :=
  match a with
  | .nan s => (.nan false, flagIf s flagNV)
  | .inf n => if n then (.fin false 0 0, 0) else (.inf false, 0)
  | .fin n m e =>
    if m = 0 then (.fin false 1 0, 0)
    else if magLog m e ≥ 12 then (.fin false 1 (if n then -5000 else 5000), 0)
    else
      let x : Int := if n then -((m <<< (e + fixBits).toNat : Nat) : Int) else (m <<< (e + fixBits).toNat : Nat)
      let k := x / 2 ^ fixBits
      let f := (x % 2 ^ fixBits).toNat
      if f = 0 then (.fin false 1 k, 0) else (irrational false (fixExp2 f) k, 0)

/-- The fraction bits of log₂ of a fixed-point value in [1, 2), `n` of them, by squaring. -/
def log2Bits : Nat → Nat → Nat → Nat
  | 0, _, acc => acc
  | n + 1, x, acc =>
    let y := (x * x) >>> fixBits
    if y ≥ 2 ^ (fixBits + 1) then log2Bits n (y / 2) (2 * acc + 1) else log2Bits n y (2 * acc)

/-- log₂ a (R117, R118). -/
def log2Num (a : Num) : Num × Flags :=
  match a with
  | .nan s => (.nan false, flagIf s flagNV)
  | .inf n => if n then (.nan false, flagNV) else (.inf false, 0)
  | .fin n m e =>
    if m = 0 then (.inf true, flagDZ)
    else if n then (.nan false, flagNV)
    else
      let k := magLog m e
      let x := (m <<< fixBits) >>> Nat.log2 m
      if x = 2 ^ fixBits then (.fin (decide (k < 0)) k.natAbs 0, 0)
      else
        let t : Int := k * 2 ^ 128 + (log2Bits 128 x 0 : Int)
        if t ≥ 0 then (withSticky false t.toNat (-128) false, 0)
        else (withSticky true ((-t).toNat - 1) (-128) false, 0)

/-- sin(π t / 2^320) for a fixed-point t, with t taken modulo 2; `half` adds 1/2 first (cosine). -/
def sinPiFix (neg : Bool) (t : Nat) : Num :=
  let x := t % 2 ^ (fixBits + 1)
  let s := neg != decide (x ≥ 2 ^ fixBits)
  let f := x % 2 ^ fixBits
  let g := if f > 2 ^ (fixBits - 1) then 2 ^ fixBits - f else f
  if g = 0 then .fin neg 0 0
  else if g = 2 ^ (fixBits - 1) then .fin s 1 0
  else irrational s (fixSin ((g * fixPi) >>> fixBits)) 0

/-- sin(π a) (R117, R118). -/
def sinpiNum (a : Num) : Num × Flags :=
  match a with
  | .nan s => (.nan false, flagIf s flagNV)
  | .inf _ => (.nan false, flagNV)
  | .fin n m e => (sinPiFix n (m <<< (e + fixBits).toNat), 0)

/-- cos(π a) (R117, R118). -/
def cospiNum (a : Num) : Num × Flags :=
  match a with
  | .nan s => (.nan false, flagIf s flagNV)
  | .inf _ => (.nan false, flagNV)
  | .fin _ m e =>
    match sinPiFix false (m <<< (e + fixBits).toNat + 2 ^ (fixBits - 1)) with
    | .fin s k d => (.fin (s && k != 0) k d, 0)
    | x => (x, 0)

/-- tanh a (R117, R118). -/
def tanhNum (a : Num) : Num × Flags :=
  match a with
  | .nan s => (.nan false, flagIf s flagNV)
  | .inf n => (.fin n 1 0, 0)
  | .fin n m e =>
    if m = 0 then (a, 0)
    else if magLog m e ≥ 6 then (.fin n (2 ^ 100 - 1) (-100), 0)
    else if magLog m e < -40 then (.fin n (m * 2 ^ 80 - 1) (e - 80), 0)
    else
      let y := ((m <<< (e + 1 + fixBits).toNat) * fixLog2e) >>> fixBits
      let k := y >>> fixBits
      let ex := fixExp2 (y % 2 ^ fixBits) <<< k
      (irrational n (((ex - 2 ^ fixBits) <<< fixBits) / (ex + 2 ^ fixBits)) 0, 0)

end Sys2Proof.Machine
end

