-- ==== Sys2Proof/Machine/LaneFp.lean ====
section
/-! DEFINITION. The floating-point group (R116 to R122) with its short forms. -/

namespace Sys2Proof.Machine

/-- FADD, HADD2, DADD (R117). -/
def faddLane (x : Args) : Nat × Flags := floatElems x fun a b _ => addNum x.rm a b
/-- FSUB (R117). -/
def fsubLane (x : Args) : Nat × Flags := floatElems x fun a b _ => addNum x.rm a b.negate
/-- FMUL, HMUL2, DMUL (R117). -/
def fmulLane (x : Args) : Nat × Flags := floatElems x fun a b _ => mulNum a b
/-- FFMA, HFMA2, DFMA (R117). -/
def ffmaLane (x : Args) : Nat × Flags := floatElems x fun a b c => fmaNum x.rm a b c
/-- FMIN (R119). -/
def fminLane (x : Args) : Nat × Flags := floatElems x fun a b _ => minMaxNum false false a b
/-- FMAX (R119). -/
def fmaxLane (x : Args) : Nat × Flags := floatElems x fun a b _ => minMaxNum true false a b
/-- FMINN (R119). -/
def fminnLane (x : Args) : Nat × Flags := floatElems x fun a b _ => minMaxNum false true a b
/-- FMAXN (R119). -/
def fmaxnLane (x : Args) : Nat × Flags := floatElems x fun a b _ => minMaxNum true true a b
/-- HMIN2 and DMIN, by OPX (R119). -/
def minByOpx (x : Args) : Nat × Flags := floatElems x fun a b _ => minMaxNum false (x.opx == 1) a b
/-- HMAX2 and DMAX, by OPX (R119). -/
def maxByOpx (x : Args) : Nat × Flags := floatElems x fun a b _ => minMaxNum true (x.opx == 1) a b
/-- FCMP and DCMP (R120). -/
def fcmpLane (x : Args) : Bool × Flags := fcmpNum x.cc ((tyFmt x.ty).decode x.a) ((tyFmt x.ty).decode x.b)
/-- FCLASS (R121). -/
def fclassLane (x : Args) : Nat :=
  let f := tyFmt x.ty
  let bit := match f.decode x.a with
    | .nan s => if s then 0 else 1
    | .inf n => if n then 2 else 9
    | .fin n m _ => if m = 0 then (if n then 5 else 6)
      else if m < 2 ^ f.params.2.1 then (if n then 4 else 7) else (if n then 3 else 8)
  2 ^ bit
/-- FDIV, DDIV (R117). -/
def fdivLane (x : Args) : Nat × Flags := floatElems x fun a b _ => divNum a b
/-- FSQRT, DSQRT (R117). -/
def fsqrtLane (x : Args) : Nat × Flags := floatElems x fun a _ _ => sqrtNum a
/-- FRCP (R117). -/
def frcpLane (x : Args) : Nat × Flags := floatElems x fun a _ _ => divNum (.fin false 1 0) a
/-- FRSQ (R117). -/
def frsqLane (x : Args) : Nat × Flags := floatElems x fun a _ _ => rsqrtNum a
/-- FEXP2 (R117). -/
def fexp2Lane (x : Args) : Nat × Flags := floatElems x fun a _ _ => exp2Num a
/-- FLOG2 (R117). -/
def flog2Lane (x : Args) : Nat × Flags := floatElems x fun a _ _ => log2Num a
/-- FSINPI (R117). -/
def fsinpiLane (x : Args) : Nat × Flags := floatElems x fun a _ _ => sinpiNum a
/-- FCOSPI (R117). -/
def fcospiLane (x : Args) : Nat × Flags := floatElems x fun a _ _ => cospiNum a
/-- FTANH (R117). -/
def ftanhLane (x : Args) : Nat × Flags := floatElems x fun a _ _ => tanhNum a
/-- FRINT (R122). -/
def frintLane (x : Args) : Nat × Flags := floatElems x fun a _ _ => frintNum x.rm (x.opx == 1) a
/-- FLDEXP (R117). -/
def fldexpLane (x : Args) : Nat × Flags := floatElems x fun a _ _ => ldexpNum a (signedOf 32 x.b)

/-- FADD: issues in the split in focus. -/
def execFadd (f : W64F) (s : State) := issue (insW64 0x30 f) (laneVal faddLane) s
/-- FADD_C16 (R48). -/
def execFaddC16 (f : C16F) (s : State) := issue (insC16 11 f) (laneVal faddLane) s
/-- FADD_W32 (R51). -/
def execFaddW32 (f : W32F) (s : State) := issue (insW32 17 f) (laneVal faddLane) s
/-- FSUB: issues in the split in focus. -/
def execFsub (f : W64F) (s : State) := issue (insW64 0x31 f) (laneVal fsubLane) s
/-- FSUB_C16 (R48). -/
def execFsubC16 (f : C16F) (s : State) := issue (insC16 12 f) (laneVal fsubLane) s
/-- FSUB_W32 (R51). -/
def execFsubW32 (f : W32F) (s : State) := issue (insW32 18 f) (laneVal fsubLane) s
/-- FMUL: issues in the split in focus. -/
def execFmul (f : W64F) (s : State) := issue (insW64 0x32 f) (laneVal fmulLane) s
/-- FMUL_C16 (R48). -/
def execFmulC16 (f : C16F) (s : State) := issue (insC16 13 f) (laneVal fmulLane) s
/-- FMUL_W32 (R51). -/
def execFmulW32 (f : W32F) (s : State) := issue (insW32 19 f) (laneVal fmulLane) s
/-- FFMA: issues in the split in focus. -/
def execFfma (f : W64F) (s : State) := issue (insW64 0x33 f) (laneVal ffmaLane) s
/-- FMIN: issues in the split in focus. -/
def execFmin (f : W64F) (s : State) := issue (insW64 0x34 f) (laneVal fminLane) s
/-- FMIN_C16 (R48). -/
def execFminC16 (f : C16F) (s : State) := issue (insC16 14 f) (laneVal fminLane) s
/-- FMIN_W32 (R51). -/
def execFminW32 (f : W32F) (s : State) := issue (insW32 20 f) (laneVal fminLane) s
/-- FMAX: issues in the split in focus. -/
def execFmax (f : W64F) (s : State) := issue (insW64 0x35 f) (laneVal fmaxLane) s
/-- FMAX_C16 (R48). -/
def execFmaxC16 (f : C16F) (s : State) := issue (insC16 15 f) (laneVal fmaxLane) s
/-- FMAX_W32 (R51). -/
def execFmaxW32 (f : W32F) (s : State) := issue (insW32 21 f) (laneVal fmaxLane) s
/-- FMINN: issues in the split in focus. -/
def execFminn (f : W64F) (s : State) := issue (insW64 0x36 f) (laneVal fminnLane) s
/-- FMINN_W32 (R51). -/
def execFminnW32 (f : W32F) (s : State) := issue (insW32 22 f) (laneVal fminnLane) s
/-- FMAXN: issues in the split in focus. -/
def execFmaxn (f : W64F) (s : State) := issue (insW64 0x37 f) (laneVal fmaxnLane) s
/-- FMAXN_W32 (R51). -/
def execFmaxnW32 (f : W32F) (s : State) := issue (insW32 23 f) (laneVal fmaxnLane) s
/-- FCMP: issues in the split in focus. -/
def execFcmp (f : W64F) (s : State) := issue (insW64 0x38 f) (lanePred fcmpLane) s
/-- FCLASS: issues in the split in focus. -/
def execFclass (f : W64F) (s : State) := issue (insW64 0x39 f) (lanePure fclassLane) s
/-- FDIV: issues in the split in focus. -/
def execFdiv (f : W64F) (s : State) := issue (insW64 0x3A f) (laneVal fdivLane) s
/-- FDIV_W32 (R51). -/
def execFdivW32 (f : W32F) (s : State) := issue (insW32 29 f) (laneVal fdivLane) s
/-- FSQRT: issues in the split in focus. -/
def execFsqrt (f : W64F) (s : State) := issue (insW64 0x3B f) (laneVal fsqrtLane) s
/-- FSQRT_W32 (R51). -/
def execFsqrtW32 (f : W32F) (s : State) := issue (insW32 28 f) (laneVal fsqrtLane) s
/-- FRCP: issues in the split in focus. -/
def execFrcp (f : W64F) (s : State) := issue (insW64 0x3C f) (laneVal frcpLane) s
/-- FRCP_W32 (R51). -/
def execFrcpW32 (f : W32F) (s : State) := issue (insW32 24 f) (laneVal frcpLane) s
/-- FRSQ: issues in the split in focus. -/
def execFrsq (f : W64F) (s : State) := issue (insW64 0x3D f) (laneVal frsqLane) s
/-- FRSQ_W32 (R51). -/
def execFrsqW32 (f : W32F) (s : State) := issue (insW32 25 f) (laneVal frsqLane) s
/-- FEXP2: issues in the split in focus. -/
def execFexp2 (f : W64F) (s : State) := issue (insW64 0x3E f) (laneVal fexp2Lane) s
/-- FEXP2_W32 (R51). -/
def execFexp2W32 (f : W32F) (s : State) := issue (insW32 26 f) (laneVal fexp2Lane) s
/-- FLOG2: issues in the split in focus. -/
def execFlog2 (f : W64F) (s : State) := issue (insW64 0x3F f) (laneVal flog2Lane) s
/-- FLOG2_W32 (R51). -/
def execFlog2W32 (f : W32F) (s : State) := issue (insW32 27 f) (laneVal flog2Lane) s
/-- FSINPI: issues in the split in focus. -/
def execFsinpi (f : W64F) (s : State) := issue (insW64 0x40 f) (laneVal fsinpiLane) s
/-- FCOSPI: issues in the split in focus. -/
def execFcospi (f : W64F) (s : State) := issue (insW64 0x41 f) (laneVal fcospiLane) s
/-- FTANH: issues in the split in focus. -/
def execFtanh (f : W64F) (s : State) := issue (insW64 0x42 f) (laneVal ftanhLane) s
/-- FTANH_W32 (R51). -/
def execFtanhW32 (f : W32F) (s : State) := issue (insW32 30 f) (laneVal ftanhLane) s
/-- FRINT: issues in the split in focus. -/
def execFrint (f : W64F) (s : State) := issue (insW64 0x43 f) (laneVal frintLane) s
/-- FRINT_W32 (R51). -/
def execFrintW32 (f : W32F) (s : State) := issue (insW32 63 f) (laneVal frintLane) s
/-- FLDEXP: issues in the split in focus. -/
def execFldexp (f : W64F) (s : State) := issue (insW64 0x44 f) (laneVal fldexpLane) s
/-- HFMA2: issues in the split in focus. -/
def execHfma2 (f : W64F) (s : State) := issue (insW64 0x45 f) (laneVal ffmaLane) s
/-- HADD2: issues in the split in focus. -/
def execHadd2 (f : W64F) (s : State) := issue (insW64 0x46 f) (laneVal faddLane) s
/-- HADD2_W32 (R51). -/
def execHadd2W32 (f : W32F) (s : State) := issue (insW32 31 f) (laneVal faddLane) s
/-- HMUL2: issues in the split in focus. -/
def execHmul2 (f : W64F) (s : State) := issue (insW64 0x47 f) (laneVal fmulLane) s
/-- HMUL2_W32 (R51). -/
def execHmul2W32 (f : W32F) (s : State) := issue (insW32 32 f) (laneVal fmulLane) s
/-- HMIN2: issues in the split in focus. -/
def execHmin2 (f : W64F) (s : State) := issue (insW64 0x48 f) (laneVal minByOpx) s
/-- HMIN2_W32 (R51). -/
def execHmin2W32 (f : W32F) (s : State) := issue (insW32 33 f) (laneVal minByOpx) s
/-- HMAX2: issues in the split in focus. -/
def execHmax2 (f : W64F) (s : State) := issue (insW64 0x49 f) (laneVal maxByOpx) s
/-- HMAX2_W32 (R51). -/
def execHmax2W32 (f : W32F) (s : State) := issue (insW32 34 f) (laneVal maxByOpx) s
/-- DADD: issues in the split in focus. -/
def execDadd (f : W64F) (s : State) := issue (insW64 0x4A f) (laneVal faddLane) s
/-- DADD_W32 (R51). -/
def execDaddW32 (f : W32F) (s : State) := issue (insW32 35 f) (laneVal faddLane) s
/-- DMUL: issues in the split in focus. -/
def execDmul (f : W64F) (s : State) := issue (insW64 0x4B f) (laneVal fmulLane) s
/-- DMUL_W32 (R51). -/
def execDmulW32 (f : W32F) (s : State) := issue (insW32 36 f) (laneVal fmulLane) s
/-- DFMA: issues in the split in focus. -/
def execDfma (f : W64F) (s : State) := issue (insW64 0x4C f) (laneVal ffmaLane) s
/-- DMIN: issues in the split in focus. -/
def execDmin (f : W64F) (s : State) := issue (insW64 0x4D f) (laneVal minByOpx) s
/-- DMAX: issues in the split in focus. -/
def execDmax (f : W64F) (s : State) := issue (insW64 0x4E f) (laneVal maxByOpx) s
/-- DCMP: issues in the split in focus. -/
def execDcmp (f : W64F) (s : State) := issue (insW64 0x4F f) (lanePred fcmpLane) s
/-- DDIV: issues in the split in focus. -/
def execDdiv (f : W64F) (s : State) := issue (insW64 0x50 f) (laneVal fdivLane) s
/-- DSQRT: issues in the split in focus. -/
def execDsqrt (f : W64F) (s : State) := issue (insW64 0x51 f) (laneVal fsqrtLane) s

end Sys2Proof.Machine
end

