-- ==== Sys2Proof/Machine/LaneInt.lean ====
section
/-! DEFINITION. The integer group (R110 to R115), with its short forms and the lane forms of W64I (R65). -/

namespace Sys2Proof.Machine

/-- IADD (R111). -/
def iaddLane (x : Args) : Nat × Flags := intElems x.sat x.ty x.a x.b fun a b => a + b
/-- ISUB (R111). -/
def isubLane (x : Args) : Nat × Flags := intElems x.sat x.ty x.a x.b fun a b => a - b
/-- IMUL (R111). -/
def imulLane (x : Args) : Nat × Flags := intElems x.sat x.ty x.a x.b fun a b => a * b
/-- IMULH (R111). -/
def imulhLane (x : Args) : Nat :=
  let sg := x.ty == 0
  wrapTo 32 (elemInt 32 sg x.a * elemInt 32 sg x.b / 2 ^ 32)
/-- IMAD (R111). -/
def imadLane (x : Args) : Nat × Flags :=
  let sg := x.ty == 0
  fit x.sat 32 sg (elemInt 32 sg x.a * elemInt 32 sg x.b + elemInt 32 sg x.c)
/-- IMADW (R111). -/
def imadwLane (x : Args) : Nat × Flags :=
  let sg := x.ty == 0
  fit x.sat 64 sg (elemInt 32 sg x.a * elemInt 32 sg x.b + elemInt 64 sg x.c)
/-- IADDC (R111). -/
def iaddcLane (x : Args) : Nat × Bool :=
  let t := x.a + x.b + x.p.toNat
  (t % 2 ^ 32, decide (t ≥ 2 ^ 32))
/-- ISUBB (R111). -/
def isubbLane (x : Args) : Nat × Bool :=
  let t : Int := (x.a : Int) - x.b - x.p.toNat
  (wrapTo 32 t, decide (t < 0))
/-- INEG (R111). -/
def inegLane (x : Args) : Nat × Flags := intElems x.sat x.ty x.a 0 fun a _ => -a
/-- IABS (R111). -/
def iabsLane (x : Args) : Nat × Flags := intElems x.sat x.ty x.a 0 fun a _ => (a.natAbs : Int)
/-- IMIN (R111). -/
def iminLane (x : Args) : Nat := (intElems false x.ty x.a x.b fun a b => if a ≤ b then a else b).1
/-- IMAX (R111). -/
def imaxLane (x : Args) : Nat := (intElems false x.ty x.a x.b fun a b => if a ≥ b then a else b).1
/-- The TY width of a logic or shift operation (R112). -/
def Args.w (x : Args) : Nat := if x.ty = 10 then 64 else 32
/-- The complement at a width. -/
def compl (w v : Nat) : Nat := 2 ^ w - 1 - v % 2 ^ w
/-- AND (R112). -/
def andLane (x : Args) : Nat := x.a &&& x.b
/-- OR (R112). -/
def orLane (x : Args) : Nat := x.a ||| x.b
/-- XOR (R112). -/
def xorLane (x : Args) : Nat := x.a ^^^ x.b
/-- NOT (R112). -/
def notLane (x : Args) : Nat := compl x.w x.a
/-- ANDN (R112). -/
def andnLane (x : Args) : Nat := x.a &&& compl x.w x.b
/-- SHL at a width (R112). -/
def shlAt (w a n : Nat) : Nat := if n ≥ w then 0 else (a <<< n) % 2 ^ w
/-- SHRL at a width (R112). -/
def shrlAt (w a n : Nat) : Nat := if n ≥ w then 0 else a >>> n
/-- SHRA at a width (R112). -/
def shraAt (w a n : Nat) : Nat := wrapTo w (signedOf w a / 2 ^ min n (w - 1))
/-- SHL (R112). -/
def shlLane (x : Args) : Nat := shlAt x.w x.a (x.b % 256)
/-- SHRL (R112). -/
def shrlLane (x : Args) : Nat := shrlAt x.w x.a (x.b % 256)
/-- SHRA (R112). -/
def shraLane (x : Args) : Nat := shraAt x.w x.a (x.b % 256)
/-- ROTL (R112). -/
def rotlLane (x : Args) : Nat :=
  let n := x.b % 256 % x.w
  ((x.a <<< n) ||| (x.a >>> (x.w - n))) % 2 ^ x.w
/-- FUNL (R112). -/
def funlLane (x : Args) : Nat :=
  let h := x.a * 2 ^ 32 + x.b
  let n := x.c % 32
  if x.opx = 0 then (h <<< n) / 2 ^ 32 % 2 ^ 32 else (h >>> n) % 2 ^ 32
/-- The bit-field length BFX and BFI take from b (R112). -/
def fieldLen (b : Nat) : Nat := min (b / 256 % 64) (32 - b % 32)
/-- BFX (R112). -/
def bfxLane (x : Args) : Nat :=
  let len := fieldLen x.b
  let f := (x.a >>> (x.b % 32)) % 2 ^ len
  if len = 0 then 0 else if x.opx = 1 then wrapTo 32 (signedOf len f) else f
/-- BFI (R112). -/
def bfiLane (x : Args) : Nat :=
  let pos := x.b % 32
  let len := fieldLen x.b
  let hole := (2 ^ len - 1) <<< pos
  (x.c &&& compl 32 hole) ||| ((x.a % 2 ^ len) <<< pos)
/-- The number of set bits among the low `w`. -/
def popAt (w v : Nat) : Nat := ((List.range w).filter fun k => v.testBit k).length
/-- POPC (R112). -/
def popcLane (x : Args) : Nat := popAt x.w x.a
/-- CLZ (R112). -/
def clzLane (x : Args) : Nat := if x.a = 0 then x.w else x.w - 1 - Nat.log2 x.a
/-- The low `w` bits in reverse order. -/
def revAt (w v : Nat) : Nat := (List.range w).foldl (fun acc k => 2 * acc + (v.testBit k).toNat) 0
/-- BREV (R112). -/
def brevLane (x : Args) : Nat := revAt x.w x.a
/-- The width and signedness of IDIV and IREM. -/
def Args.divTy (x : Args) : Nat × Bool := (if ty64 x.ty then 64 else 32, x.ty == 0 || x.ty == 10)
/-- IDIV (R113). -/
def idivLane (x : Args) : Nat × Flags :=
  let (w, sg) := x.divTy
  if x.b = 0 then (2 ^ w - 1, 0)
  else fit x.sat w sg ((elemInt w sg x.a).tdiv (elemInt w sg x.b))
/-- IREM (R113). -/
def iremLane (x : Args) : Nat :=
  let (w, sg) := x.divTy
  if x.b = 0 then x.a else wrapTo w ((elemInt w sg x.a).tmod (elemInt w sg x.b))
/-- LEA (R114). -/
def leaLane (x : Args) : Nat := wrapTo 64 ((x.a : Int) + elemInt 32 (x.ty == 0) x.b * 2 ^ x.opx)
/-- IADDW (R114). -/
def iaddwLane (x : Args) : Nat :=
  let sg := x.ty == 0
  wrapTo 64 (elemInt 32 sg x.a + elemInt 32 sg x.b)
/-- ICMP (R115). -/
def icmpLane (x : Args) : Bool × Flags := (compareCc x.cc x.w x.a x.b, 0)
/-- One byte of BYSEL (R112). -/
def byselByte (h f : Nat) : Nat :=
  let y := (h >>> (8 * (f % 8))) % 256
  let y := if f.testBit 5 then revAt 8 y else y
  match f / 8 % 4 with
  | 0 => y | 1 => 0 | 2 => 255 | _ => if y.testBit 7 then 255 else 0
/-- BYSEL (R112). -/
def byselLane (x : Args) : Nat :=
  let h := x.b * 2 ^ 32 + x.a
  (List.range 4).foldr (fun k acc => byselByte h ((x.c >>> (6 * k)) % 64) + 256 * acc) 0
/-- DOT4 (R111). -/
def dot4Lane (x : Args) : Nat × Flags :=
  let sg := x.ty == 4
  let t := (List.range 4).foldl (fun acc k => acc + elemInt 8 sg (x.a >>> (8 * k)) * elemInt 8 sg (x.b >>> (8 * k)))
    (elemInt 32 sg x.c)
  fit x.sat 32 sg t

/-- Iadd: issues in the split in focus. -/
def execIadd (f : W64F) (s : State) := issue (insW64 0x00 f) (laneVal iaddLane) s
/-- IaddC16: issues in the split in focus. -/
def execIaddC16 (f : C16F) (s : State) := issue (insC16 2 f) (laneVal iaddLane) s
/-- IaddW32: issues in the split in focus. -/
def execIaddW32 (f : W32F) (s : State) := issue (insW32 0 f) (laneVal iaddLane) s
/-- Isub: issues in the split in focus. -/
def execIsub (f : W64F) (s : State) := issue (insW64 0x01 f) (laneVal isubLane) s
/-- IsubC16: issues in the split in focus. -/
def execIsubC16 (f : C16F) (s : State) := issue (insC16 3 f) (laneVal isubLane) s
/-- IsubW32: issues in the split in focus. -/
def execIsubW32 (f : W32F) (s : State) := issue (insW32 1 f) (laneVal isubLane) s
/-- Imul: issues in the split in focus. -/
def execImul (f : W64F) (s : State) := issue (insW64 0x02 f) (laneVal imulLane) s
/-- ImulC16: issues in the split in focus. -/
def execImulC16 (f : C16F) (s : State) := issue (insC16 4 f) (laneVal imulLane) s
/-- ImulW32: issues in the split in focus. -/
def execImulW32 (f : W32F) (s : State) := issue (insW32 2 f) (laneVal imulLane) s
/-- Imulh: issues in the split in focus. -/
def execImulh (f : W64F) (s : State) := issue (insW64 0x03 f) (lanePure imulhLane) s
/-- ImulhW32: issues in the split in focus. -/
def execImulhW32 (f : W32F) (s : State) := issue (insW32 3 f) (lanePure imulhLane) s
/-- Imad: issues in the split in focus. -/
def execImad (f : W64F) (s : State) := issue (insW64 0x04 f) (laneVal imadLane) s
/-- Imadw: issues in the split in focus. -/
def execImadw (f : W64F) (s : State) := issue (insW64 0x05 f) (laneVal imadwLane) s
/-- Iaddc: issues in the split in focus. -/
def execIaddc (f : W64F) (s : State) := issue (insW64 0x06 f) (laneCarry iaddcLane) s
/-- Isubb: issues in the split in focus. -/
def execIsubb (f : W64F) (s : State) := issue (insW64 0x07 f) (laneCarry isubbLane) s
/-- Ineg: issues in the split in focus. -/
def execIneg (f : W64F) (s : State) := issue (insW64 0x08 f) (laneVal inegLane) s
/-- InegW32: issues in the split in focus. -/
def execInegW32 (f : W32F) (s : State) := issue (insW32 59 f) (laneVal inegLane) s
/-- Iabs: issues in the split in focus. -/
def execIabs (f : W64F) (s : State) := issue (insW64 0x09 f) (laneVal iabsLane) s
/-- IabsW32: issues in the split in focus. -/
def execIabsW32 (f : W32F) (s : State) := issue (insW32 60 f) (laneVal iabsLane) s
/-- Imin: issues in the split in focus. -/
def execImin (f : W64F) (s : State) := issue (insW64 0x0A f) (lanePure iminLane) s
/-- IminW32: issues in the split in focus. -/
def execIminW32 (f : W32F) (s : State) := issue (insW32 4 f) (lanePure iminLane) s
/-- Imax: issues in the split in focus. -/
def execImax (f : W64F) (s : State) := issue (insW64 0x0B f) (lanePure imaxLane) s
/-- ImaxW32: issues in the split in focus. -/
def execImaxW32 (f : W32F) (s : State) := issue (insW32 5 f) (lanePure imaxLane) s
/-- And: issues in the split in focus. -/
def execAnd (f : W64F) (s : State) := issue (insW64 0x0C f) (lanePure andLane) s
/-- AndC16: issues in the split in focus. -/
def execAndC16 (f : C16F) (s : State) := issue (insC16 5 f) (lanePure andLane) s
/-- AndW32: issues in the split in focus. -/
def execAndW32 (f : W32F) (s : State) := issue (insW32 6 f) (lanePure andLane) s
/-- Or: issues in the split in focus. -/
def execOr (f : W64F) (s : State) := issue (insW64 0x0D f) (lanePure orLane) s
/-- OrC16: issues in the split in focus. -/
def execOrC16 (f : C16F) (s : State) := issue (insC16 6 f) (lanePure orLane) s
/-- OrW32: issues in the split in focus. -/
def execOrW32 (f : W32F) (s : State) := issue (insW32 7 f) (lanePure orLane) s
/-- Xor: issues in the split in focus. -/
def execXor (f : W64F) (s : State) := issue (insW64 0x0E f) (lanePure xorLane) s
/-- XorC16: issues in the split in focus. -/
def execXorC16 (f : C16F) (s : State) := issue (insC16 7 f) (lanePure xorLane) s
/-- XorW32: issues in the split in focus. -/
def execXorW32 (f : W32F) (s : State) := issue (insW32 8 f) (lanePure xorLane) s
/-- Not: issues in the split in focus. -/
def execNot (f : W64F) (s : State) := issue (insW64 0x0F f) (lanePure notLane) s
/-- NotC16: issues in the split in focus. -/
def execNotC16 (f : C16F) (s : State) := issue (insC16 1 f) (lanePure notLane) s
/-- NotW32: issues in the split in focus. -/
def execNotW32 (f : W32F) (s : State) := issue (insW32 58 f) (lanePure notLane) s
/-- Andn: issues in the split in focus. -/
def execAndn (f : W64F) (s : State) := issue (insW64 0x10 f) (lanePure andnLane) s
/-- AndnW32: issues in the split in focus. -/
def execAndnW32 (f : W32F) (s : State) := issue (insW32 9 f) (lanePure andnLane) s
/-- Shl: issues in the split in focus. -/
def execShl (f : W64F) (s : State) := issue (insW64 0x11 f) (lanePure shlLane) s
/-- ShlC16: issues in the split in focus. -/
def execShlC16 (f : C16F) (s : State) := issue (insC16 8 f) (lanePure shlLane) s
/-- ShlW32: issues in the split in focus. -/
def execShlW32 (f : W32F) (s : State) := issue (insW32 10 f) (lanePure shlLane) s
/-- Shrl: issues in the split in focus. -/
def execShrl (f : W64F) (s : State) := issue (insW64 0x12 f) (lanePure shrlLane) s
/-- ShrlC16: issues in the split in focus. -/
def execShrlC16 (f : C16F) (s : State) := issue (insC16 9 f) (lanePure shrlLane) s
/-- ShrlW32: issues in the split in focus. -/
def execShrlW32 (f : W32F) (s : State) := issue (insW32 11 f) (lanePure shrlLane) s
/-- Shra: issues in the split in focus. -/
def execShra (f : W64F) (s : State) := issue (insW64 0x13 f) (lanePure shraLane) s
/-- ShraC16: issues in the split in focus. -/
def execShraC16 (f : C16F) (s : State) := issue (insC16 10 f) (lanePure shraLane) s
/-- ShraW32: issues in the split in focus. -/
def execShraW32 (f : W32F) (s : State) := issue (insW32 12 f) (lanePure shraLane) s
/-- Rotl: issues in the split in focus. -/
def execRotl (f : W64F) (s : State) := issue (insW64 0x14 f) (lanePure rotlLane) s
/-- RotlW32: issues in the split in focus. -/
def execRotlW32 (f : W32F) (s : State) := issue (insW32 13 f) (lanePure rotlLane) s
/-- Funl: issues in the split in focus. -/
def execFunl (f : W64F) (s : State) := issue (insW64 0x15 f) (lanePure funlLane) s
/-- Bfx: issues in the split in focus. -/
def execBfx (f : W64F) (s : State) := issue (insW64 0x16 f) (lanePure bfxLane) s
/-- Bfi: issues in the split in focus. -/
def execBfi (f : W64F) (s : State) := issue (insW64 0x17 f) (lanePure bfiLane) s
/-- Popc: issues in the split in focus. -/
def execPopc (f : W64F) (s : State) := issue (insW64 0x18 f) (lanePure popcLane) s
/-- PopcW32: issues in the split in focus. -/
def execPopcW32 (f : W32F) (s : State) := issue (insW32 14 f) (lanePure popcLane) s
/-- Clz: issues in the split in focus. -/
def execClz (f : W64F) (s : State) := issue (insW64 0x19 f) (lanePure clzLane) s
/-- ClzW32: issues in the split in focus. -/
def execClzW32 (f : W32F) (s : State) := issue (insW32 15 f) (lanePure clzLane) s
/-- Brev: issues in the split in focus. -/
def execBrev (f : W64F) (s : State) := issue (insW64 0x1A f) (lanePure brevLane) s
/-- BrevW32: issues in the split in focus. -/
def execBrevW32 (f : W32F) (s : State) := issue (insW32 16 f) (lanePure brevLane) s
/-- Idiv: issues in the split in focus. -/
def execIdiv (f : W64F) (s : State) := issue (insW64 0x1B f) (laneVal idivLane) s
/-- Irem: issues in the split in focus. -/
def execIrem (f : W64F) (s : State) := issue (insW64 0x1C f) (lanePure iremLane) s
/-- Lea: issues in the split in focus. -/
def execLea (f : W64F) (s : State) := issue (insW64 0x1D f) (lanePure leaLane) s
/-- Iaddw: issues in the split in focus. -/
def execIaddw (f : W64F) (s : State) := issue (insW64 0x1E f) (lanePure iaddwLane) s
/-- Icmp: issues in the split in focus. -/
def execIcmp (f : W64F) (s : State) := issue (insW64 0x1F f) (lanePred icmpLane) s
/-- Bysel: issues in the split in focus. -/
def execBysel (f : W64F) (s : State) := issue (insW64 0x20 f) (lanePure byselLane) s
/-- Dot4: issues in the split in focus. -/
def execDot4 (f : W64F) (s : State) := issue (insW64 0x21 f) (laneVal dot4Lane) s

/-- MOVI (R65). -/
def execMovi (f : W64IF) (s : State) :=
  issue (insW64I 0xF0 f) (capped Ins.dsts fun i s => .done (s.writeLanes i i.ins.d 1 (laneTable i fun _ => i.ins.imm.toNat))) s
/-- IADDI (R65). -/
def execIaddi (f : W64IF) (s : State) :=
  issue (insW64I 0xF2 f) (capped Ins.dsts fun i s => laneValN 1 (fun x =>
    fit (i.ins.mod7 % 2 == 1) 32 true (signedOf 32 x.old + signedOf 32 i.ins.imm.toNat)) i s) s
/-- ANDI (R65). -/
def execAndi (f : W64IF) (s : State) :=
  issue (insW64I 0xF6 f) (capped Ins.dsts fun i s => laneValN 1 (fun x => (x.old &&& i.ins.imm.toNat, 0)) i s) s
/-- ICMPI (R65). -/
def execIcmpi (f : W64IF) (s : State) :=
  issue (insW64I 0xF4 f) (fun i s => let r := s.regs i; .done (s.writeP i (i.ins.mod7 % 8) fun l =>
    compareCc (i.ins.mod7 / 8) 32 (r.x i.ins.d l).toNat i.ins.imm.toNat)) s

end Sys2Proof.Machine
end

