-- ==== Sys2Proof/Machine/Uniform.lean ====
section
/-! DEFINITION. The uniform group (R190, R191) with its short forms, and the uniform forms of W64I (R65). -/

namespace Sys2Proof.Machine

/-- A uniform operation: one value to D, once per issuing split (R90, R190). -/
def uniVal (f : Args → Nat × Flags) : Iss → State → Eff := fun i s =>
  let (v, fl) := f ((s.regs i).args i 0)
  .done ((s.writeUs i i.ins.d i.ins.dsts.length v).flags i fl)
/-- A uniform operation without flags. -/
def uniPure (f : Args → Nat) : Iss → State → Eff := uniVal fun x => (f x, 0)
/-- GSHR (R191). -/
def gshrArgs (x : Args) : Nat := if x.opx = 0 then shrlAt 32 x.a (x.b % 256) else shraAt 32 x.a (x.b % 256)
/-- GCMP (R191). -/
def gcmpEff : Iss → State → Eff := fun i s =>
  let r := s.regs i
  let x := r.args i 0
  let t := compareCc x.cc 32 x.a x.b
  .done (s.writeQ i i.ins.d (mergePred i.ins.opx (r.pred i.ins.d 0) t))
/-- GMOVI (R65). -/
def gmoviEff : Iss → State → Eff := fun i s => .done (s.writeU i i.ins.d i.ins.imm)
/-- GADDI (R65). -/
def gaddiEff : Iss → State → Eff := fun i s => .done (s.writeU i i.ins.d ((s.regs i).x i.ins.d 0 + i.ins.imm))
/-- GCMPI (R65). -/
def gcmpiEff : Iss → State → Eff := fun i s =>
  .done (s.writeQ i (i.ins.mod7 % 8 + 8) (compareCc (i.ins.mod7 / 8) 32 ((s.regs i).x i.ins.d 0).toNat i.ins.imm.toNat))

/-- GADD: issues in the split in focus. -/
def execGadd (f : W64F) (s : State) := issue (insW64 0xB0 f) (uniVal iaddLane) s
/-- GADD_W32 (R51). -/
def execGaddW32 (f : W32F) (s : State) := issue (insW32 41 f) (uniVal iaddLane) s
/-- GSUB: issues in the split in focus. -/
def execGsub (f : W64F) (s : State) := issue (insW64 0xB1 f) (uniVal isubLane) s
/-- GSUB_W32 (R51). -/
def execGsubW32 (f : W32F) (s : State) := issue (insW32 42 f) (uniVal isubLane) s
/-- GMUL: issues in the split in focus. -/
def execGmul (f : W64F) (s : State) := issue (insW64 0xB2 f) (uniVal imulLane) s
/-- GMUL_W32 (R51). -/
def execGmulW32 (f : W32F) (s : State) := issue (insW32 43 f) (uniVal imulLane) s
/-- GMAD: issues in the split in focus. -/
def execGmad (f : W64F) (s : State) := issue (insW64 0xB3 f) (uniVal imadLane) s
/-- GAND: issues in the split in focus. -/
def execGand (f : W64F) (s : State) := issue (insW64 0xB4 f) (uniPure andLane) s
/-- GAND_W32 (R51). -/
def execGandW32 (f : W32F) (s : State) := issue (insW32 44 f) (uniPure andLane) s
/-- GOR: issues in the split in focus. -/
def execGor (f : W64F) (s : State) := issue (insW64 0xB5 f) (uniPure orLane) s
/-- GOR_W32 (R51). -/
def execGorW32 (f : W32F) (s : State) := issue (insW32 45 f) (uniPure orLane) s
/-- GXOR: issues in the split in focus. -/
def execGxor (f : W64F) (s : State) := issue (insW64 0xB6 f) (uniPure xorLane) s
/-- GXOR_W32 (R51). -/
def execGxorW32 (f : W32F) (s : State) := issue (insW32 46 f) (uniPure xorLane) s
/-- GSHL: issues in the split in focus. -/
def execGshl (f : W64F) (s : State) := issue (insW64 0xB7 f) (uniPure fun x => shlAt 32 x.a (x.b % 256)) s
/-- GSHL_W32 (R51). -/
def execGshlW32 (f : W32F) (s : State) := issue (insW32 47 f) (uniPure fun x => shlAt 32 x.a (x.b % 256)) s
/-- GSHR: issues in the split in focus. -/
def execGshr (f : W64F) (s : State) := issue (insW64 0xB8 f) (uniPure gshrArgs) s
/-- GSHR_W32 (R51). -/
def execGshrW32 (f : W32F) (s : State) := issue (insW32 48 f) (uniPure gshrArgs) s
/-- GCMP: issues in the split in focus. -/
def execGcmp (f : W64F) (s : State) := issue (insW64 0xB9 f) (gcmpEff) s
/-- GSEL: issues in the split in focus. -/
def execGsel (f : W64F) (s : State) := issue (insW64 0xBA f) (uniPure fun x => if x.p then x.a else x.b) s
/-- GMIN: issues in the split in focus. -/
def execGmin (f : W64F) (s : State) := issue (insW64 0xBB f) (uniPure iminLane) s
/-- GMIN_W32 (R51). -/
def execGminW32 (f : W32F) (s : State) := issue (insW32 49 f) (uniPure iminLane) s
/-- GMAX: issues in the split in focus. -/
def execGmax (f : W64F) (s : State) := issue (insW64 0xBC f) (uniPure imaxLane) s
/-- GMAX_W32 (R51). -/
def execGmaxW32 (f : W32F) (s : State) := issue (insW32 50 f) (uniPure imaxLane) s
/-- GLEA: issues in the split in focus. -/
def execGlea (f : W64F) (s : State) := issue (insW64 0xBD f) (uniPure leaLane) s
/-- GFADD: issues in the split in focus. -/
def execGfadd (f : W64F) (s : State) := issue (insW64 0xBE f) (uniVal faddLane) s
/-- GFADD_W32 (R51). -/
def execGfaddW32 (f : W32F) (s : State) := issue (insW32 51 f) (uniVal faddLane) s
/-- GFMUL: issues in the split in focus. -/
def execGfmul (f : W64F) (s : State) := issue (insW64 0xBF f) (uniVal fmulLane) s
/-- GFMUL_W32 (R51). -/
def execGfmulW32 (f : W32F) (s : State) := issue (insW32 52 f) (uniVal fmulLane) s
/-- GMOVI (R65). -/
def execGmovi (f : W64IF) (s : State) := issue (insW64I 0xF1 f) gmoviEff s
/-- GADDI (R65). -/
def execGaddi (f : W64IF) (s : State) := issue (insW64I 0xF3 f) gaddiEff s
/-- GCMPI (R65). -/
def execGcmpi (f : W64IF) (s : State) := issue (insW64I 0xF5 f) gcmpiEff s

end Sys2Proof.Machine
end

