-- ==== Sys2Proof/Machine/Dispatch.lean ====
section
/-! DEFINITION. One arm per row of the opcode table: every operation and every event has its meaning. -/

namespace Sys2Proof.Machine

/-- The meaning of one row. -/
def exec (i : Instr) (s : State) : Host.Outcome State Fault Refusal :=
  match i with
  | .iadd f => Sys2Proof.Machine.execIadd f s
  | .iaddC16 f => Sys2Proof.Machine.execIaddC16 f s
  | .iaddW32 f => Sys2Proof.Machine.execIaddW32 f s
  | .isub f => Sys2Proof.Machine.execIsub f s
  | .isubC16 f => Sys2Proof.Machine.execIsubC16 f s
  | .isubW32 f => Sys2Proof.Machine.execIsubW32 f s
  | .imul f => Sys2Proof.Machine.execImul f s
  | .imulC16 f => Sys2Proof.Machine.execImulC16 f s
  | .imulW32 f => Sys2Proof.Machine.execImulW32 f s
  | .imulh f => Sys2Proof.Machine.execImulh f s
  | .imulhW32 f => Sys2Proof.Machine.execImulhW32 f s
  | .imad f => Sys2Proof.Machine.execImad f s
  | .imadw f => Sys2Proof.Machine.execImadw f s
  | .iaddc f => Sys2Proof.Machine.execIaddc f s
  | .isubb f => Sys2Proof.Machine.execIsubb f s
  | .ineg f => Sys2Proof.Machine.execIneg f s
  | .inegW32 f => Sys2Proof.Machine.execInegW32 f s
  | .iabs f => Sys2Proof.Machine.execIabs f s
  | .iabsW32 f => Sys2Proof.Machine.execIabsW32 f s
  | .imin f => Sys2Proof.Machine.execImin f s
  | .iminW32 f => Sys2Proof.Machine.execIminW32 f s
  | .imax f => Sys2Proof.Machine.execImax f s
  | .imaxW32 f => Sys2Proof.Machine.execImaxW32 f s
  | .and f => Sys2Proof.Machine.execAnd f s
  | .andC16 f => Sys2Proof.Machine.execAndC16 f s
  | .andW32 f => Sys2Proof.Machine.execAndW32 f s
  | .or f => Sys2Proof.Machine.execOr f s
  | .orC16 f => Sys2Proof.Machine.execOrC16 f s
  | .orW32 f => Sys2Proof.Machine.execOrW32 f s
  | .xor f => Sys2Proof.Machine.execXor f s
  | .xorC16 f => Sys2Proof.Machine.execXorC16 f s
  | .xorW32 f => Sys2Proof.Machine.execXorW32 f s
  | .not f => Sys2Proof.Machine.execNot f s
  | .notC16 f => Sys2Proof.Machine.execNotC16 f s
  | .notW32 f => Sys2Proof.Machine.execNotW32 f s
  | .andn f => Sys2Proof.Machine.execAndn f s
  | .andnW32 f => Sys2Proof.Machine.execAndnW32 f s
  | .shl f => Sys2Proof.Machine.execShl f s
  | .shlC16 f => Sys2Proof.Machine.execShlC16 f s
  | .shlW32 f => Sys2Proof.Machine.execShlW32 f s
  | .shrl f => Sys2Proof.Machine.execShrl f s
  | .shrlC16 f => Sys2Proof.Machine.execShrlC16 f s
  | .shrlW32 f => Sys2Proof.Machine.execShrlW32 f s
  | .shra f => Sys2Proof.Machine.execShra f s
  | .shraC16 f => Sys2Proof.Machine.execShraC16 f s
  | .shraW32 f => Sys2Proof.Machine.execShraW32 f s
  | .rotl f => Sys2Proof.Machine.execRotl f s
  | .rotlW32 f => Sys2Proof.Machine.execRotlW32 f s
  | .funl f => Sys2Proof.Machine.execFunl f s
  | .bfx f => Sys2Proof.Machine.execBfx f s
  | .bfi f => Sys2Proof.Machine.execBfi f s
  | .popc f => Sys2Proof.Machine.execPopc f s
  | .popcW32 f => Sys2Proof.Machine.execPopcW32 f s
  | .clz f => Sys2Proof.Machine.execClz f s
  | .clzW32 f => Sys2Proof.Machine.execClzW32 f s
  | .brev f => Sys2Proof.Machine.execBrev f s
  | .brevW32 f => Sys2Proof.Machine.execBrevW32 f s
  | .idiv f => Sys2Proof.Machine.execIdiv f s
  | .irem f => Sys2Proof.Machine.execIrem f s
  | .lea f => Sys2Proof.Machine.execLea f s
  | .iaddw f => Sys2Proof.Machine.execIaddw f s
  | .icmp f => Sys2Proof.Machine.execIcmp f s
  | .bysel f => Sys2Proof.Machine.execBysel f s
  | .dot4 f => Sys2Proof.Machine.execDot4 f s
  | .fadd f => Sys2Proof.Machine.execFadd f s
  | .faddC16 f => Sys2Proof.Machine.execFaddC16 f s
  | .faddW32 f => Sys2Proof.Machine.execFaddW32 f s
  | .fsub f => Sys2Proof.Machine.execFsub f s
  | .fsubC16 f => Sys2Proof.Machine.execFsubC16 f s
  | .fsubW32 f => Sys2Proof.Machine.execFsubW32 f s
  | .fmul f => Sys2Proof.Machine.execFmul f s
  | .fmulC16 f => Sys2Proof.Machine.execFmulC16 f s
  | .fmulW32 f => Sys2Proof.Machine.execFmulW32 f s
  | .ffma f => Sys2Proof.Machine.execFfma f s
  | .fmin f => Sys2Proof.Machine.execFmin f s
  | .fminC16 f => Sys2Proof.Machine.execFminC16 f s
  | .fminW32 f => Sys2Proof.Machine.execFminW32 f s
  | .fmax f => Sys2Proof.Machine.execFmax f s
  | .fmaxC16 f => Sys2Proof.Machine.execFmaxC16 f s
  | .fmaxW32 f => Sys2Proof.Machine.execFmaxW32 f s
  | .fminn f => Sys2Proof.Machine.execFminn f s
  | .fminnW32 f => Sys2Proof.Machine.execFminnW32 f s
  | .fmaxn f => Sys2Proof.Machine.execFmaxn f s
  | .fmaxnW32 f => Sys2Proof.Machine.execFmaxnW32 f s
  | .fcmp f => Sys2Proof.Machine.execFcmp f s
  | .fclass f => Sys2Proof.Machine.execFclass f s
  | .fdiv f => Sys2Proof.Machine.execFdiv f s
  | .fdivW32 f => Sys2Proof.Machine.execFdivW32 f s
  | .fsqrt f => Sys2Proof.Machine.execFsqrt f s
  | .fsqrtW32 f => Sys2Proof.Machine.execFsqrtW32 f s
  | .frcp f => Sys2Proof.Machine.execFrcp f s
  | .frcpW32 f => Sys2Proof.Machine.execFrcpW32 f s
  | .frsq f => Sys2Proof.Machine.execFrsq f s
  | .frsqW32 f => Sys2Proof.Machine.execFrsqW32 f s
  | .fexp2 f => Sys2Proof.Machine.execFexp2 f s
  | .fexp2W32 f => Sys2Proof.Machine.execFexp2W32 f s
  | .flog2 f => Sys2Proof.Machine.execFlog2 f s
  | .flog2W32 f => Sys2Proof.Machine.execFlog2W32 f s
  | .fsinpi f => Sys2Proof.Machine.execFsinpi f s
  | .fcospi f => Sys2Proof.Machine.execFcospi f s
  | .ftanh f => Sys2Proof.Machine.execFtanh f s
  | .ftanhW32 f => Sys2Proof.Machine.execFtanhW32 f s
  | .frint f => Sys2Proof.Machine.execFrint f s
  | .frintW32 f => Sys2Proof.Machine.execFrintW32 f s
  | .fldexp f => Sys2Proof.Machine.execFldexp f s
  | .hfma2 f => Sys2Proof.Machine.execHfma2 f s
  | .hadd2 f => Sys2Proof.Machine.execHadd2 f s
  | .hadd2W32 f => Sys2Proof.Machine.execHadd2W32 f s
  | .hmul2 f => Sys2Proof.Machine.execHmul2 f s
  | .hmul2W32 f => Sys2Proof.Machine.execHmul2W32 f s
  | .hmin2 f => Sys2Proof.Machine.execHmin2 f s
  | .hmin2W32 f => Sys2Proof.Machine.execHmin2W32 f s
  | .hmax2 f => Sys2Proof.Machine.execHmax2 f s
  | .hmax2W32 f => Sys2Proof.Machine.execHmax2W32 f s
  | .dadd f => Sys2Proof.Machine.execDadd f s
  | .daddW32 f => Sys2Proof.Machine.execDaddW32 f s
  | .dmul f => Sys2Proof.Machine.execDmul f s
  | .dmulW32 f => Sys2Proof.Machine.execDmulW32 f s
  | .dfma f => Sys2Proof.Machine.execDfma f s
  | .dmin f => Sys2Proof.Machine.execDmin f s
  | .dmax f => Sys2Proof.Machine.execDmax f s
  | .dcmp f => Sys2Proof.Machine.execDcmp f s
  | .ddiv f => Sys2Proof.Machine.execDdiv f s
  | .dsqrt f => Sys2Proof.Machine.execDsqrt f s
  | .cvt f => Sys2Proof.Machine.execCvt f s
  | .cvtn f => Sys2Proof.Machine.execCvtn f s
  | .cvtw f => Sys2Proof.Machine.execCvtw f s
  | .sprs f => Sys2Proof.Machine.execSprs f s
  | .sel f => Sys2Proof.Machine.execSel f s
  | .pset f => Sys2Proof.Machine.execPset f s
  | .pmov f => Sys2Proof.Machine.execPmov f s
  | .rngh f => Sys2Proof.Machine.execRngh f s
  | .sreg f => Sys2Proof.Machine.execSreg f s
  | .mov f => Sys2Proof.Machine.execMov f s
  | .movC16 f => Sys2Proof.Machine.execMovC16 f s
  | .movW32 f => Sys2Proof.Machine.execMovW32 f s
  | .bcast f => Sys2Proof.Machine.execBcast f s
  | .bcastW32 f => Sys2Proof.Machine.execBcastW32 f s
  | .readl f => Sys2Proof.Machine.execReadl f s
  | .readlW32 f => Sys2Proof.Machine.execReadlW32 f s
  | .vfree f => Sys2Proof.Machine.execVfree f s
  | .vfreeW32 f => Sys2Proof.Machine.execVfreeW32 f s
  | .shfl f => Sys2Proof.Machine.execShfl f s
  | .shflW32 f => Sys2Proof.Machine.execShflW32 f s
  | .vred f => Sys2Proof.Machine.execVred f s
  | .vredW32 f => Sys2Proof.Machine.execVredW32 f s
  | .vscan f => Sys2Proof.Machine.execVscan f s
  | .vote f => Sys2Proof.Machine.execVote f s
  | .ballot f => Sys2Proof.Machine.execBallot f s
  | .matchLanes f => Sys2Proof.Machine.execMatchLanes f s
  | .brd f => Sys2Proof.Machine.execBrd f s
  | .brany f => Sys2Proof.Machine.execBrany f s
  | .brall f => Sys2Proof.Machine.execBrall f s
  | .brnone f => Sys2Proof.Machine.execBrnone f s
  | .jmp f => Sys2Proof.Machine.execJmp f s
  | .jmpi f => Sys2Proof.Machine.execJmpi f s
  | .call f => Sys2Proof.Machine.execCall f s
  | .calli f => Sys2Proof.Machine.execCalli f s
  | .ret f => Sys2Proof.Machine.execRet f s
  | .retW32 f => Sys2Proof.Machine.execRetW32 f s
  | .exit f => Sys2Proof.Machine.execExit f s
  | .exitW32 f => Sys2Proof.Machine.execExitW32 f s
  | .yield f => Sys2Proof.Machine.execYield f s
  | .yieldW32 f => Sys2Proof.Machine.execYieldW32 f s
  | .loopg f => Sys2Proof.Machine.execLoopg f s
  | .nop f => Sys2Proof.Machine.execNop f s
  | .nopW32 f => Sys2Proof.Machine.execNopW32 f s
  | .ld f => Sys2Proof.Machine.execLd f s
  | .st f => Sys2Proof.Machine.execSt f s
  | .lds f => Sys2Proof.Machine.execLds f s
  | .sts f => Sys2Proof.Machine.execSts f s
  | .ldfe f => Sys2Proof.Machine.execLdfe f s
  | .stfe f => Sys2Proof.Machine.execStfe f s
  | .feset f => Sys2Proof.Machine.execFeset f s
  | .atom f => Sys2Proof.Machine.execAtom f s
  | .atoms f => Sys2Proof.Machine.execAtoms f s
  | .red f => Sys2Proof.Machine.execRed f s
  | .redo f => Sys2Proof.Machine.execRedo f s
  | .fence f => Sys2Proof.Machine.execFence f s
  | .pref f => Sys2Proof.Machine.execPref f s
  | .drop f => Sys2Proof.Machine.execDrop f s
  | .gld f => Sys2Proof.Machine.execGld f s
  | .gst f => Sys2Proof.Machine.execGst f s
  | .gadd f => Sys2Proof.Machine.execGadd f s
  | .gaddW32 f => Sys2Proof.Machine.execGaddW32 f s
  | .gsub f => Sys2Proof.Machine.execGsub f s
  | .gsubW32 f => Sys2Proof.Machine.execGsubW32 f s
  | .gmul f => Sys2Proof.Machine.execGmul f s
  | .gmulW32 f => Sys2Proof.Machine.execGmulW32 f s
  | .gmad f => Sys2Proof.Machine.execGmad f s
  | .gand f => Sys2Proof.Machine.execGand f s
  | .gandW32 f => Sys2Proof.Machine.execGandW32 f s
  | .gor f => Sys2Proof.Machine.execGor f s
  | .gorW32 f => Sys2Proof.Machine.execGorW32 f s
  | .gxor f => Sys2Proof.Machine.execGxor f s
  | .gxorW32 f => Sys2Proof.Machine.execGxorW32 f s
  | .gshl f => Sys2Proof.Machine.execGshl f s
  | .gshlW32 f => Sys2Proof.Machine.execGshlW32 f s
  | .gshr f => Sys2Proof.Machine.execGshr f s
  | .gshrW32 f => Sys2Proof.Machine.execGshrW32 f s
  | .gcmp f => Sys2Proof.Machine.execGcmp f s
  | .gsel f => Sys2Proof.Machine.execGsel f s
  | .gmin f => Sys2Proof.Machine.execGmin f s
  | .gminW32 f => Sys2Proof.Machine.execGminW32 f s
  | .gmax f => Sys2Proof.Machine.execGmax f s
  | .gmaxW32 f => Sys2Proof.Machine.execGmaxW32 f s
  | .glea f => Sys2Proof.Machine.execGlea f s
  | .gfadd f => Sys2Proof.Machine.execGfadd f s
  | .gfaddW32 f => Sys2Proof.Machine.execGfaddW32 f s
  | .gfmul f => Sys2Proof.Machine.execGfmul f s
  | .gfmulW32 f => Sys2Proof.Machine.execGfmulW32 f s
  | .wait f => Sys2Proof.Machine.execWait f s
  | .waitW32 f => Sys2Proof.Machine.execWaitW32 f s
  | .sleept f => Sys2Proof.Machine.execSleept f s
  | .sleeptProm f => Sys2Proof.Machine.execSleeptProm f s
  | .plvl f => Sys2Proof.Machine.execPlvl f s
  | .regclm f => Sys2Proof.Machine.execRegclm f s
  | .regrel f => Sys2Proof.Machine.execRegrel f s
  | .bar f => Sys2Proof.Machine.execBar f s
  | .dqpush f => Sys2Proof.Machine.execDqpush f s
  | .dqpop f => Sys2Proof.Machine.execDqpop f s
  | .dqsteal f => Sys2Proof.Machine.execDqsteal f s
  | .lnch f => Sys2Proof.Machine.execLnch f s
  | .trap f => Sys2Proof.Machine.execTrap f s
  | .eret f => Sys2Proof.Machine.execEret f s
  | .mfsr f => Sys2Proof.Machine.execMfsr f s
  | .mtsr f => Sys2Proof.Machine.execMtsr f s
  | .tlbinv f => Sys2Proof.Machine.execTlbinv f s
  | .bkpt f => Sys2Proof.Machine.execBkpt f s
  | .mld f => Sys2Proof.Machine.execMld f s
  | .mst f => Sys2Proof.Machine.execMst f s
  | .mshp f => Sys2Proof.Machine.execMshp f s
  | .mmov f => Sys2Proof.Machine.execMmov f s
  | .mzero f => Sys2Proof.Machine.execMzero f s
  | .emsk f => Sys2Proof.Machine.execEmsk f s
  | .mma f => Sys2Proof.Machine.execMma f s
  | .mmas f => Sys2Proof.Machine.execMmas f s
  | .mcnt f => Sys2Proof.Machine.execMcnt f s
  | .mqch f => Sys2Proof.Machine.execMqch f s
  | .mmrg f => Sys2Proof.Machine.execMmrg f s
  | .mmrgPeer f => Sys2Proof.Machine.execMmrgPeer f s
  | .mdrn f => Sys2Proof.Machine.execMdrn f s
  | .mdrna f => Sys2Proof.Machine.execMdrna f s
  | .macz f => Sys2Proof.Machine.execMacz f s
  | .sctrd f => Sys2Proof.Machine.execSctrd f s
  | .sctadv f => Sys2Proof.Machine.execSctadv f s
  | .sctadvAmax f => Sys2Proof.Machine.execSctadvAmax f s
  | .sctadvOff f => Sys2Proof.Machine.execSctadvOff f s
  | .bcpy f => Sys2Proof.Machine.execBcpy f s
  | .bfill f => Sys2Proof.Machine.execBfill f s
  | .frz f => Sys2Proof.Machine.execFrz f s
  | .thaw f => Sys2Proof.Machine.execThaw f s
  | .frzq f => Sys2Proof.Machine.execFrzq f s
  | .pbar f => Sys2Proof.Machine.execPbar f s
  | .pflush f => Sys2Proof.Machine.execPflush f s
  | .steptag f => Sys2Proof.Machine.execSteptag f s
  | .stepcm f => Sys2Proof.Machine.execStepcm f s
  | .stepab f => Sys2Proof.Machine.execStepab f s
  | .snapreq f => Sys2Proof.Machine.execSnapreq f s
  | .coll f => Sys2Proof.Machine.execColl f s
  | .sigadd f => Sys2Proof.Machine.execSigadd f s
  | .sigwait f => Sys2Proof.Machine.execSigwait f s
  | .movi f => Sys2Proof.Machine.execMovi f s
  | .gmovi f => Sys2Proof.Machine.execGmovi f s
  | .iaddi f => Sys2Proof.Machine.execIaddi f s
  | .gaddi f => Sys2Proof.Machine.execGaddi f s
  | .icmpi f => Sys2Proof.Machine.execIcmpi f s
  | .gcmpi f => Sys2Proof.Machine.execGcmpi f s
  | .andi f => Sys2Proof.Machine.execAndi f s
  | .runSelect core part => Sys2Proof.Machine.execRunSelect core part s
  | .runBoundary core part => Sys2Proof.Machine.execRunBoundary core part s
  | .joinTimeout gid j => Sys2Proof.Machine.execJoinTimeout gid j s
  | .runRotation gid slot => Sys2Proof.Machine.execRunRotation gid slot s
  | .stallRotation gid slot => Sys2Proof.Machine.execStallRotation gid slot s
  | .instructionFetchFill core ctx line => Sys2Proof.Machine.execInstructionFetchFill core ctx line s
  | .loadReturn id => Sys2Proof.Machine.execLoadReturn id s
  | .settleCommit gid slot => Sys2Proof.Machine.execSettleCommit gid slot s
  | .trapEntry core part => Sys2Proof.Machine.execTrapEntry core part s
  | .sleeptWake gid slot => Sys2Proof.Machine.execSleeptWake gid slot s
  | .clockRestart core grains => Sys2Proof.Machine.execClockRestart core grains s
  | .levelRaiseSettled dom => Sys2Proof.Machine.execLevelRaiseSettled dom s
  | .regclmClaimServed blk => Sys2Proof.Machine.execRegclmClaimServed blk s
  | .regpoolDeadlock blk => Sys2Proof.Machine.execRegpoolDeadlock blk s
  | .emptyOrphan blk => Sys2Proof.Machine.execEmptyOrphan blk s
  | .barrierComplete owner lvl id unit => Sys2Proof.Machine.execBarrierComplete owner lvl id unit s
  | .groupRetire gid => Sys2Proof.Machine.execGroupRetire gid s
  | .remoteScratchpadAccess id => Sys2Proof.Machine.execRemoteScratchpadAccess id s
  | .dqstealArrival id => Sys2Proof.Machine.execDqstealArrival id s
  | .tlOperation gid => Sys2Proof.Machine.execTlOperation gid s
  | .fusionHoldEnd quad req => Sys2Proof.Machine.execFusionHoldEnd quad req s
  | .priorityAging quad req => Sys2Proof.Machine.execPriorityAging quad req s
  | .anvilPass quad => Sys2Proof.Machine.execAnvilPass quad s
  | .passResult quad req => Sys2Proof.Machine.execPassResult quad req s
  | .accumulatorPortGrant quad => Sys2Proof.Machine.execAccumulatorPortGrant quad s
  | .mdrnaArrival id => Sys2Proof.Machine.execMdrnaArrival id s
  | .peerMergeTransfer quad req => Sys2Proof.Machine.execPeerMergeTransfer quad req s
  | .mxComplete gid => Sys2Proof.Machine.execMxComplete gid s
  | .pageWalk core ctx va => Sys2Proof.Machine.execPageWalk core ctx va s
  | .homeAccess id => Sys2Proof.Machine.execHomeAccess id s
  | .l1Eviction core line => Sys2Proof.Machine.execL1Eviction core line s
  | .redoArrival id => Sys2Proof.Machine.execRedoArrival id s
  | .faultRecordWrite ctx => Sys2Proof.Machine.execFaultRecordWrite ctx s
  | .fresp die v => Sys2Proof.Machine.execFresp die v s
  | .firmwareResume gid slot => Sys2Proof.Machine.execFirmwareResume gid slot s
  | .tongsChunk die engine ctx => Sys2Proof.Machine.execTongsChunk die engine ctx s
  | .wbqEntry id => Sys2Proof.Machine.execWbqEntry id s
  | .wbqDrain die => Sys2Proof.Machine.execWbqDrain die s
  | .pflushComplete id => Sys2Proof.Machine.execPflushComplete id s
  | .stepcmOperation ctx => Sys2Proof.Machine.execStepcmOperation ctx s
  | .stepabOperation ctx => Sys2Proof.Machine.execStepabOperation ctx s
  | .snapshotLine die => Sys2Proof.Machine.execSnapshotLine die s
  | .freezeNotice die page => Sys2Proof.Machine.execFreezeNotice die page s
  | .freezeAck die page => Sys2Proof.Machine.execFreezeAck die page s
  | .sealingEnd page => Sys2Proof.Machine.execSealingEnd page s
  | .gather die page => Sys2Proof.Machine.execGather die page s
  | .gatherEnd page => Sys2Proof.Machine.execGatherEnd page s
  | .lqprodWrite q v => Sys2Proof.Machine.execLqprodWrite q v s
  | .recordStart q => Sys2Proof.Machine.execRecordStart q s
  | .predecessorRead q n => Sys2Proof.Machine.execPredecessorRead q n s
  | .gridComplete grid => Sys2Proof.Machine.execGridComplete grid s
  | .blockPlacement grid at_ => Sys2Proof.Machine.execBlockPlacement grid at_ s
  | .gateRequest quad => Sys2Proof.Machine.execGateRequest quad s
  | .quadWake quad => Sys2Proof.Machine.execQuadWake quad s
  | .ktvalWrite ctx w v => Sys2Proof.Machine.execKtvalWrite ctx w v s
  | .swout ctx => Sys2Proof.Machine.execSwout ctx s
  | .swoutComplete ctx => Sys2Proof.Machine.execSwoutComplete ctx s
  | .swin ctx at_ => Sys2Proof.Machine.execSwin ctx at_ s
  | .clamp ctx => Sys2Proof.Machine.execClamp ctx s
  | .release ctx => Sys2Proof.Machine.execRelease ctx s
  | .destroy ctx => Sys2Proof.Machine.execDestroy ctx s
  | .mclmpClamp ctx v => Sys2Proof.Machine.execMclmpClamp ctx v s
  | .mclmpRelease ctx v => Sys2Proof.Machine.execMclmpRelease ctx v s
  | .todev host => Sys2Proof.Machine.execTodev host s
  | .tohost host => Sys2Proof.Machine.execTohost host s
  | .handoverDone => Sys2Proof.Machine.execHandoverDone s
  | .registerWrite host off v => Sys2Proof.Machine.execRegisterWrite host off v s
  | .steprecWrite ctx v => Sys2Proof.Machine.execSteprecWrite ctx v s
  | .regionEnable ctx r v => Sys2Proof.Machine.execRegionEnable ctx r v s
  | .enableSweepEnd ctx r => Sys2Proof.Machine.execEnableSweepEnd ctx r s
  | .scrub die v => Sys2Proof.Machine.execScrub die v s
  | .powerFailure => Sys2Proof.Machine.execPowerFailure s
  | .bellowsInterval now cur => Sys2Proof.Machine.execBellowsInterval now cur s
  | .currentLimit dom => Sys2Proof.Machine.execCurrentLimit dom s
  | .thermalTrip tmax => Sys2Proof.Machine.execThermalTrip tmax s
  | .bringUp b => Sys2Proof.Machine.execBringUp b s
  | .attestationRequest nonce => Sys2Proof.Machine.execAttestationRequest nonce s
  | .nullFlit port f => Sys2Proof.Machine.execNullFlit port f s
  | .rdFlit port f => Sys2Proof.Machine.execRdFlit port f s
  | .rddFlit port f => Sys2Proof.Machine.execRddFlit port f s
  | .wrFlit port f => Sys2Proof.Machine.execWrFlit port f s
  | .wackFlit port f => Sys2Proof.Machine.execWackFlit port f s
  | .atFlit port f => Sys2Proof.Machine.execAtFlit port f s
  | .atdFlit port f => Sys2Proof.Machine.execAtdFlit port f s
  | .rdoFlit port f => Sys2Proof.Machine.execRdoFlit port f s
  | .frznFlit port f => Sys2Proof.Machine.execFrznFlit port f s
  | .fackFlit port f => Sys2Proof.Machine.execFackFlit port f s
  | .coldFlit port f => Sys2Proof.Machine.execColdFlit port f s
  | .barmFlit port f => Sys2Proof.Machine.execBarmFlit port f s
  | .strFlit port f => Sys2Proof.Machine.execStrFlit port f s
  | .bulkFlit port f => Sys2Proof.Machine.execBulkFlit port f s
  | .badFlit port f => Sys2Proof.Machine.execBadFlit port f s
  | .flitCrcFailure port => Sys2Proof.Machine.execFlitCrcFailure port s
  | .fabfailWrite w v => Sys2Proof.Machine.execFabfailWrite w v s
  | .egctlEnable v => Sys2Proof.Machine.execEgctlEnable v s
  | .egrbldGo v => Sys2Proof.Machine.execEgrbldGo v s
  | .rebuildStripe => Sys2Proof.Machine.execRebuildStripe s
  | .collectiveComplete job key seq => Sys2Proof.Machine.execCollectiveComplete job key seq s
  | .sigaddApplied id => Sys2Proof.Machine.execSigaddApplied id s
  | .sigwaitRetest gid slot => Sys2Proof.Machine.execSigwaitRetest gid slot s
  | .hostWrite ctx pa data => Sys2Proof.Machine.execHostWrite ctx pa data s
  | .dieTlbinvCommand die ctx kind reach va => Sys2Proof.Machine.execDieTlbinvCommand die ctx kind reach va s
  | .clockStop core => Sys2Proof.Machine.execClockStop core s
  | .throttling tmax => Sys2Proof.Machine.execThrottling tmax s
  | .flitReplay port => Sys2Proof.Machine.execFlitReplay port s
  | .nearBufferEviction die line => Sys2Proof.Machine.execNearBufferEviction die line s
  | .softError e => Sys2Proof.Machine.execSoftError e s

end Sys2Proof.Machine
end

