-- ==== Sys2Proof/Machine/Step.lean ====
section
/-! DEFINITION. One step: the row that the agenda names, or one move of a core. -/

namespace Sys2Proof.Machine

/-- What every step ends with: a fresh free value for the next, and requests stamped as they become eligible (R242). -/
def State.close (s : State) : State := ({ s with fresh := s.fresh + 1 } : State).stampEligible
/-- Ends a step. -/
def closed (o : Host.Outcome State Fault Refusal) : Host.Outcome State Fault Refusal :=
  match o with
  | .next s => .next s.close
  | .fault f => .fault f
  | .refused r => .refused r
/-- The issue of the instruction that a partition's run has next (R153 to R156): the decoded row runs in the partition in
focus, and is accounted for. -/
noncomputable def State.issueStep (s : State) (core part : Nat) (w : Words) : Host.Outcome State Fault Refusal :=
  let s0 : State := { s with focus := (core, part) }
  match (s.part core part).run with
  | none => .fault .noSplit
  | some r =>
    match w.instr with
    | .error _ => .next (s0.reservedTrap r.gid r.slot w)
    | .ok i =>
      match exec i s0 with
      | .next s1 => .next (s1.accountIssue (s0.issAt r.gid r.slot (insOfWords w)))
      | o => o
/-- A core makes a move. -/
noncomputable def State.doMove (s : State) (core : Nat) (m : Move) : Host.Outcome State Fault Refusal :=
  let s0 := s.readied core m
  match m with
  | .run part w => s0.issueStep core part w
  | .lost _ gid slot c a => .next (s0.fetchTrap gid slot c a)
  | .tick => .next (s0.cycleEnd core)
  | m => match m.row core with
    | some i => exec i s0
    | none => .next s0
/-- One move of a core whose clock runs (R168), or first of a lower core with which it competes in the cycle (R164). -/
noncomputable def State.coreStep (s : State) (core : Nat) : Host.Outcome State Fault Refusal :=
  if !s.on || !(s.core core).running then .refused (.notEnabled "CORE_CYCLE")
  else match s.rival core (s.nextMove core) with
    | some a => match s.doMove a (s.nextMove a) with
      | .next t => .next { t with focus := s.focus }
      | o => o
    | none => s.doMove core (s.nextMove core)
/-- One step. -/
noncomputable def step (s : State) : Host.Outcome State Fault Refusal :=
  match s.agenda with
  | [] => closed (s.coreStep s.focus.1)
  | .core c :: rest => closed (State.coreStep { s with agenda := rest } c)
  | .event i :: rest =>
    if i.words.isNone then closed (exec i { s with agenda := rest }) else .refused .badAgenda

/-- A state that fetches a word next: one group of one block with every budget whole runs in the core and partition 0, all
its lanes bound at address 0, where the instruction cache holds the word's bytes and zeros after them. -/
def State.withFetchWord (s : State) (nbits w : Nat) : State :=
  let bytes := bytesOf 64 (w % 2 ^ nbits)
  let lanes : List Lane := List.replicate 32 { lst := .bound }
  let slots : List Slot := { valid := true, amask := BitVec.allOnes 32 } :: List.replicate 3 {}
  let g : Group := { lanes := lanes, slots := slots, cap := 128, budG := 160, budM := 16, budC := 8 }
  let c : Core := { s.core 0 with
    running := true, phase := 0, icache := [{ ctx := 0, line := 0, bytes := some bytes, cause := .pageNotPresent }]
    parts := { run := some { gid := 0, slot := 0 } } :: List.replicate 11 {} }
  { s with
    on := true, groups := [(0, g)], blocks := [(0, { cores := [0], groups := [0], ngroups := 1 })]
    cores := s.cores.set 0 c, focus := (0, 0), agenda := [] }

end Sys2Proof.Machine
end

