-- ==== Sys2Proof/Safety.lean ====
section
/-! DEFINITION. What the claims mean by a safe step, the invariant of memory they rest on, what it is for an instruction to be
ready to issue, and what an instruction leaves unchanged. -/

namespace Sys2Proof.Machine

/-- A step that does not end in a fault. The one fault is raised where an operation has no split to issue it. -/
def SafeStep (s : State) : Prop := ∀ f, step s ≠ .fault f

/-- Memory at home has its canonical form: addresses strictly rising and no entry equal to what an unlisted address
reads as. -/
def State.memOk (s : State) : Prop := Mem.wf s.mem = true

/-- Instruction `i` issues as `x` with nothing in its way: the partition in focus runs a split that stands there (R90), no
settle point holds it (R159), it passes the encoding checks (R70) and its source words pass theirs (R314). -/
structure Ready (s : State) (i : Instr) (x : Iss) : Prop where
  word : i.words.map insOfWords = some x.ins
  issuer : s.issuer x.ins = some x
  settled : s.unsettled x = false
  checks : x.ins.check (s.bounds x) = none
  sound : s.badSource x = none

/-- Beyond the issuing group and what its partition holds, nothing of the package has changed: no byte of memory, no other
group, no block, no other partition, no counter of a core. -/
structure Local (s t : State) (x : Iss) : Prop where
  rest : t = { s with groups := t.groups, cores := t.cores }
  others : ∀ g, g ≠ x.gid → t.group g = s.group g
  cores : ∀ c, c ≠ x.core → t.core c = s.core c
  core : t.core x.core = { s.core x.core with parts := (t.core x.core).parts }
  parts : ∀ p, p ≠ x.part → t.part x.core p = s.part x.core p
  part : t.part x.core x.part = { s.part x.core x.part with
    run := (t.part x.core x.part).run, bank := (t.part x.core x.part).bank, bankBad := (t.part x.core x.part).bankBad }

/-- The issuing group has changed in nothing but registers, flags and where its lanes stand. -/
def RegsOnly (s t : State) (x : Iss) : Prop :=
  let g := t.group x.gid
  g = { s.group x.gid with
    lanes := g.lanes, slots := g.slots, names := g.names, g := g.g, p := g.p, q := g.q, fpstat := g.fpstat, regBad := g.regBad }

/-- The split goes on: its lanes stand at the next instruction, the others where they stood, and the run ends after an
instruction with E = 1 (R93, R156). -/
structure Passes (s t : State) (x : Iss) : Prop where
  lanes : ∀ l, l < 32 → (t.group x.gid).lane l =
    if x.active.getLsbD l then { (s.group x.gid).lane l with lpc := x.next } else (s.group x.gid).lane l
  slot : (t.group x.gid).slot x.slot = { (s.group x.gid).slot x.slot with
    spc := x.next, replay := none, mark := none, claim := .none, nstall := 0, stallAt := none, fedone := false, fesent := none, fearr := false }
  slots : ∀ k, k ≠ x.slot → (t.group x.gid).slot k = (s.group x.gid).slot k
  run : (t.part x.core x.part).run = if x.ins.f.e.toNat = 1 then
      (s.part x.core x.part).run.map fun r => if r.gid = x.gid ∧ r.slot = x.slot then { r with ended := true, cut := false } else r
    else (s.part x.core x.part).run

/-- The names an instruction reads for the last time, which it may free (R180); a handler's registers are never freed. -/
def Iss.lastOnes (x : Iss) : List Nat := if x.handler then [] else x.ins.lastNames

/-- What an instruction that only writes registers leaves. `dst` gives, for a register code and a lane, the word written there;
`pd` does so for a predicate code; `fl` are the flags raised. Every other register, predicate and flag is as it was, but for
lane registers read for the last time. -/
structure Result (s t : State) (x : Iss) (dst : Nat → Nat → Option Word) (pd : Nat → Nat → Option Bool) (fl : Flags) : Prop where
  here : Local s t x
  only : RegsOnly s t x
  passes : Passes s t x
  written : ∀ c l w, l < 32 → dst c l = some w → (t.regs x).x c l = w
  kept : ∀ c l, l < 32 → dst c l = none → c ∉ x.lastOnes → (t.regs x).x c l = (s.regs x).x c l
  preds : ∀ c l, l < 32 → (t.regs x).pred c l = (pd c l).getD ((s.regs x).pred c l)
  flags : (t.group x.gid).fpstat = if x.handler then (s.group x.gid).fpstat else (s.group x.gid).fpstat ||| fl

/-- Writes nothing. -/
def noReg : Nat → Nat → Option Word := fun _ _ => none
/-- Writes no predicate. -/
def noPred : Nat → Nat → Option Bool := fun _ _ => none
/-- The executing lanes receive `n` words of a value in the lane registers from D on (R104). -/
def toLanes (x : Iss) (n : Nat) (v : Nat → Nat) : Nat → Nat → Option Word := fun c l =>
  if x.ins.d ≤ c ∧ c < x.ins.d + n ∧ c < 128 ∧ x.exec.getLsbD l = true then some (BitVec.ofNat 32 (v l >>> (32 * (c - x.ins.d)))) else none
/-- `n` uniform registers from a code on receive the words of a value; code 288 receives none (R55, R190). -/
def toUniform (d n v : Nat) : Nat → Nat → Option Word := fun c _ =>
  if d ≤ c ∧ c < d + n ∧ 128 ≤ c ∧ c < 288 then some (BitVec.ofNat 32 (v >>> (32 * (c - d)))) else none
/-- The executing lanes receive a value in a lane predicate; p7 keeps its constant (R56). -/
def toPred (x : Iss) (d : Nat) (v : Nat → Bool) : Nat → Nat → Option Bool := fun c l =>
  if c = d ∧ d < 7 ∧ x.exec.getLsbD l = true then some (v l) else none
/-- A uniform predicate q0 to q3, codes 8 to 11, receives a value (R56). -/
def toQ (d : Nat) (v : Bool) : Nat → Nat → Option Bool := fun c _ => if c = d ∧ 8 ≤ d ∧ d < 12 then some v else none
/-- The flags that the executing lanes raise (R43). -/
def raised (x : Iss) (f : Nat → Flags) : Flags := x.exec.lanes.foldl (fun acc l => acc ||| f l) 0

/-- A slot once its instruction has issued: a replay, a wait, a claim and a stall are over (R81, R187, R302). -/
def Slot.issued (y : Slot) : Slot :=
  { y with replay := none, mark := none, claim := .none, nstall := 0, stallAt := none, fedone := false, fesent := none, fearr := false }

/-- The run a partition issues, ended by a transfer of its split (R93). -/
def Iss.ended (x : Iss) (p : Part) : Option Run :=
  p.run.map fun r => if r.gid = x.gid ∧ r.slot = x.slot then { r with ended := true, cut := false } else r

/-- What a control transfer that divides no lanes into a join leaves: active lane l stands at `dest l`, registers that `dst` names
are written, and the run ends; the lanes are parted into splits at the boundary (R84, R93). -/
structure Transfers (s t : State) (x : Iss) (dest : Nat → CodeAddr) (dst : Nat → Nat → Option Word) : Prop where
  here : Local s t x
  only : RegsOnly s t x
  lanes : ∀ l, l < 32 → (t.group x.gid).lane l =
    if x.active.getLsbD l then { (s.group x.gid).lane l with lpc := dest l } else (s.group x.gid).lane l
  slot : (t.group x.gid).slot x.slot = ((s.group x.gid).slot x.slot).issued
  slots : ∀ k, k ≠ x.slot → (t.group x.gid).slot k = (s.group x.gid).slot k
  run : (t.part x.core x.part).run = x.ended (s.part x.core x.part)
  written : ∀ c l w, l < 32 → dst c l = some w → (t.regs x).x c l = w
  kept : ∀ c l, l < 32 → dst c l = none → (t.regs x).x c l = (s.regs x).x c l
  preds : ∀ c l, l < 32 → (t.regs x).pred c l = (s.regs x).pred c l
  flags : (t.group x.gid).fpstat = (s.group x.gid).fpstat

/-- An instruction that puts work under way has done so and gone on: no byte of memory, no register, predicate or flag, no tile,
accumulator or system register has changed, and no other group; only loads, counted operations and the names of destinations
have been entered in the issuing group (R140, R173, R179). -/
structure Kept (s t : State) (x : Iss) : Prop where
  mem : t.mem = s.mem
  others : ∀ g, g ≠ x.gid → t.group g = s.group g
  group : t.group x.gid = { s.group x.gid with
    lanes := (t.group x.gid).lanes, slots := (t.group x.gid).slots, names := (t.group x.gid).names, loads := (t.group x.gid).loads,
    ops := (t.group x.gid).ops, issued := (t.group x.gid).issued, tl := (t.group x.gid).tl }
  regs : ∀ c l, l < 32 → (t.regs x).x c l = (s.regs x).x c l
  preds : ∀ c l, l < 32 → (t.regs x).pred c l = (s.regs x).pred c l
  cores : ∀ c, t.core c = { s.core c with l1 := (t.core c).l1, parts := (t.core c).parts }
  parts : ∀ c p, t.part c p = { s.part c p with run := (t.part c p).run }
  passes : Passes s t x

/-- The lane function of the operations of R110, R116 and R123 whose result goes to D, by op8 (R66). -/
def laneRule : Nat → Option (Args → Nat × Flags)
  | 0x00 => some iaddLane | 0x01 => some isubLane | 0x02 => some imulLane | 0x03 => some fun x => (imulhLane x, 0)
  | 0x04 => some imadLane | 0x05 => some imadwLane | 0x08 => some inegLane | 0x09 => some iabsLane
  | 0x0A => some fun x => (iminLane x, 0) | 0x0B => some fun x => (imaxLane x, 0) | 0x0C => some fun x => (andLane x, 0)
  | 0x0D => some fun x => (orLane x, 0) | 0x0E => some fun x => (xorLane x, 0) | 0x0F => some fun x => (notLane x, 0)
  | 0x10 => some fun x => (andnLane x, 0) | 0x11 => some fun x => (shlLane x, 0) | 0x12 => some fun x => (shrlLane x, 0)
  | 0x13 => some fun x => (shraLane x, 0) | 0x14 => some fun x => (rotlLane x, 0) | 0x15 => some fun x => (funlLane x, 0)
  | 0x16 => some fun x => (bfxLane x, 0) | 0x17 => some fun x => (bfiLane x, 0) | 0x18 => some fun x => (popcLane x, 0)
  | 0x19 => some fun x => (clzLane x, 0) | 0x1A => some fun x => (brevLane x, 0) | 0x1B => some idivLane
  | 0x1C => some fun x => (iremLane x, 0) | 0x1D => some fun x => (leaLane x, 0) | 0x1E => some fun x => (iaddwLane x, 0)
  | 0x20 => some fun x => (byselLane x, 0) | 0x21 => some dot4Lane
  | 0x30 => some faddLane | 0x31 => some fsubLane | 0x32 => some fmulLane | 0x33 => some ffmaLane | 0x34 => some fminLane
  | 0x35 => some fmaxLane | 0x36 => some fminnLane | 0x37 => some fmaxnLane | 0x39 => some fun x => (fclassLane x, 0)
  | 0x3A => some fdivLane | 0x3B => some fsqrtLane | 0x3C => some frcpLane | 0x3D => some frsqLane | 0x3E => some fexp2Lane
  | 0x3F => some flog2Lane | 0x40 => some fsinpiLane | 0x41 => some fcospiLane | 0x42 => some ftanhLane | 0x43 => some frintLane
  | 0x44 => some fldexpLane | 0x45 => some ffmaLane | 0x46 => some faddLane | 0x47 => some fmulLane | 0x48 => some minByOpx
  | 0x49 => some maxByOpx | 0x4A => some faddLane | 0x4B => some fmulLane | 0x4C => some ffmaLane | 0x4D => some minByOpx
  | 0x4E => some maxByOpx | 0x50 => some fdivLane | 0x51 => some fsqrtLane | 0x60 => some cvtLane
  | 0x64 => some fun x => (selLane x, 0) | 0x67 => some fun x => (rngh x.a x.b, 0) | 0x6A => some fun x => (x.a, 0)
  | _ => none

/-- The function of the uniform operations of R190, by op8. -/
def uniformRule : Nat → Option (Args → Nat × Flags)
  | 0xB0 => some iaddLane | 0xB1 => some isubLane | 0xB2 => some imulLane | 0xB3 => some imadLane
  | 0xB4 => some fun x => (x.a &&& x.b, 0) | 0xB5 => some fun x => (x.a ||| x.b, 0) | 0xB6 => some fun x => (x.a ^^^ x.b, 0)
  | 0xB7 => some fun x => (shlAt 32 x.a (x.b % 256), 0) | 0xB8 => some fun x => (gshrArgs x, 0)
  | 0xBA => some fun x => (if x.p then x.a else x.b, 0) | 0xBB => some fun x => (iminLane x, 0) | 0xBC => some fun x => (imaxLane x, 0)
  | 0xBD => some fun x => (leaLane x, 0) | 0xBE => some faddLane | 0xBF => some fmulLane
  | _ => none

/-- What an access is: its kind, the lanes it belongs to, its physical address, width and operand bytes, whether it is performed at
home, and the load it returns to (R140, R141, R147). -/
def Access.form (a : Access) : AccKind × Mask × Nat × Nat × List (Nat × List Byte) × Bool × Option Nat :=
  (a.kind, a.lanes, a.pa, a.w, a.apps, a.home, a.load)
/-- Accesses of these forms have started, after the write-back of a release where one was made (R150, R268). -/
def Starts (s t : State) (fs : List (AccKind × Mask × Nat × Nat × List (Nat × List Byte) × Bool × Option Nat)) : Prop :=
  ∃ rels news, t.accs = s.accs ++ rels ++ news ∧ (∀ a ∈ rels, a.kind = .rel ∨ a.kind = .relWait) ∧ news.map Access.form = fs ∧
    ∀ a ∈ news, a.done = false ∧ a.sent = false
/-- One load has been entered, last, for D (R140, R160); the loads before it stand as they were, where none has its name. -/
def Loads (s t : State) (x : Iss) (l : PLoad) : Prop :=
  (∃ olds, (t.group x.gid).loads = olds ++ [l] ∧ ((∀ o ∈ (s.group x.gid).loads, o.seq ≠ l.seq) → olds = (s.group x.gid).loads)) ∧
    l.handler = x.handler ∧ l.dst = x.ins.d

/-- Handler entry for a trap (R193, R194): the system registers are set, the handler bank is cleared and belongs to the split, the split and
its active lanes stand at TVEC, and nothing else of the group changes. -/
structure Entered (s t : State) (gid slot : Nat) (tr : Trap) : Prop where
  sys : (t.group gid).sys = { (s.group gid).sys with
    tpc := tr.pc.setWidth 64, tcause := BitVec.ofNat 64 tr.cause.code, taddr := tr.addr, tlanes := tr.lanes,
    tinfo := tr.info.setWidth 64, tstat := BitVec.ofNat 64 ((if tr.rpl then 2 ^ 31 else 0) + slot) }
  mine : (t.group gid).slot slot = { (s.group gid).slot slot with
    mode := .handler, spc := (s.group gid).sys.tvec.setWidth 56, active := ((s.group gid).slot slot).amask, replay := none }
  theirs : ∀ k, k ≠ slot → (t.group gid).slot k = (s.group gid).slot k
  lanes : ∀ l, l < 32 → (t.group gid).lane l = if ((s.group gid).slot slot).amask.getLsbD l then
    { (s.group gid).lane l with lpc := (s.group gid).sys.tvec.setWidth 56 } else (s.group gid).lane l
  group : t.group gid = { s.group gid with
    sys := (t.group gid).sys, lanes := (t.group gid).lanes, slots := (t.group gid).slots }
  part : t.part (s.group gid).core (s.group gid).part = { s.part (s.group gid).core (s.group gid).part with
    bank := {}, bankBad := [], owner := some (gid, slot), run := (t.part (s.group gid).core (s.group gid).part).run
    last := (t.part (s.group gid).core (s.group gid).part).last, lastSys := (s.group gid).sys }
  mem : t.mem = s.mem
  others : ∀ g, g ≠ gid → t.group g = s.group g

/-- A trap of this split is routed to a handler that can be entered at once: it runs no handler itself, no split of its group is in
handler mode or suspended, nothing is clamped, TVEC is set and the partition's bank is free with no trap waiting (R192, R193). -/
def State.handlerOpen (s : State) (gid slot : Nat) : Prop :=
  (s.group gid).trapBusy = false ∧ ((s.group gid).slot slot).mode ≠ .handler ∧ (s.group gid).pend = [] ∧ s.groupClamped gid = false ∧ (s.group gid).sys.tvec ≠ 0 ∧
    (s.part (s.group gid).core (s.group gid).part).owner = none ∧ (s.part (s.group gid).core (s.group gid).part).trapq = []

/-- One more engine operation of a class is outstanding in the issuing group (R173). -/
def Counts (s t : State) (x : Iss) (cls : Nat) : Prop :=
  (t.group x.gid).counter cls = (s.group x.gid).counter cls + 1 ∧ (t.group x.gid).issuedOf cls = (s.group x.gid).issuedOf cls + 1
/-- A request for the operation stands in the table of the issuing quad, alone or fused with the quarters of others (R239, R241). -/
def Enters (s t : State) (x : Iss) : Prop :=
  ∃ e ∈ (t.quad (quadOf x.core)).table, e.gid = x.gid ∧ e.op = x.ins.op ∧ (s.group x.gid).issuedOf 2 ∈ e.n ∧
    e.d = x.ins.d ∧ e.a = x.ins.a ∧ e.b = x.ins.b ∧ e.c = x.ins.c ∧ e.m12 = x.ins.m12 ∧ (e.er, e.ec) = s.edges x ∧ ∀ q ∈ x.quarters, q ∈ e.q
end Sys2Proof.Machine
end

