-- ==== Sys2Proof/Certificates/Slice0/Obligations.lean ====
section
/-! DEFINITION. The statements for the provers: what every instruction and every event does where it completes, where it traps, what it leaves
unchanged; that decoding inverts encoding; that a step keeps memory canonical. -/

open Sys2Proof Sys2Proof.Machine

/-! The register-writing instructions (R104, R110 to R137, R190, R191). -/

/-- Every lane operation of R110, R116 and R123 whose result goes to D, in its W64, W32 and C16 forms, completes: each executing lane
receives its result, the flags are raised, and nothing else changes. -/
def Obligations.LaneOperationsWriteTheirResults : Prop :=
  ∀ (i : Instr) (s : State) (x : Iss) (f : Args → Nat × Flags),
    Ready s i x → laneRule x.ins.op = some f → s.overCap x x.ins.dsts = false →
    ∃ t, exec i s = .next t ∧
      Result s t x (toLanes x x.ins.dsts.length fun l => (f ((s.regs x).args x l)).1) noPred
        (raised x fun l => (f ((s.regs x).args x l)).2)

/-- Every uniform operation of R190 but GCMP, in its W64 and W32 forms, completes once per issuing split with its result in the uniform
registers D names. -/
def Obligations.UniformOperationsWriteTheirResults : Prop :=
  ∀ (i : Instr) (s : State) (x : Iss) (f : Args → Nat × Flags),
    Ready s i x → uniformRule x.ins.op = some f →
    ∃ t, exec i s = .next t ∧
      Result s t x (toUniform x.ins.d x.ins.dsts.length (f ((s.regs x).args x 0)).1) noPred (f ((s.regs x).args x 0)).2

/-- IADDC and ISUBB complete: sum and difference with carry to D, the carry out to the predicate C names (R111). -/
def Obligations.CarryOperationsWriteSumAndCarry : Prop :=
  ∀ (f : W64F) (s : State) (x : Iss), s.overCap x x.ins.dsts = false →
    let a (l : Nat) : Nat := ((s.regs x).args x l).a
    let b (l : Nat) : Nat := ((s.regs x).args x l).b
    let c (l : Nat) : Nat := ((s.regs x).pred x.ins.c l).toNat
    (Ready s (.iaddc f) x → ∃ t, exec (.iaddc f) s = .next t ∧
      Result s t x (toLanes x 1 fun l => (a l + b l + c l) % 2 ^ 32) (toPred x x.ins.c fun l => decide (a l + b l + c l ≥ 2 ^ 32)) 0) ∧
    (Ready s (.isubb f) x → ∃ t, exec (.isubb f) s = .next t ∧
      Result s t x (toLanes x 1 fun l => wrapTo 32 ((a l : Int) - b l - c l)) (toPred x x.ins.c fun l => decide ((a l : Int) - b l - c l < 0)) 0)

/-- ICMP, FCMP and DCMP complete: the predicate D names is set, ANDed or ORed by OPX in the executing lanes (R115, R120). -/
def Obligations.ComparesWriteTheirPredicate : Prop :=
  ∀ (f : W64F) (s : State) (x : Iss),
    let v (l : Nat) : Args := (s.regs x).args x l
    (Ready s (.icmp f) x → ∃ t, exec (.icmp f) s = .next t ∧
      Result s t x noReg (toPred x x.ins.d fun l => mergePred x.ins.opx ((s.regs x).pred x.ins.d l)
        (compareCc x.ins.c (if x.ins.ty = 10 then 64 else 32) (v l).a (v l).b)) 0) ∧
    ∀ i, (i = .fcmp f ∨ i = .dcmp f) → Ready s i x → ∃ t, exec i s = .next t ∧
      let c (l : Nat) : Bool × Flags := fcmpNum x.ins.c ((tyFmt x.ins.ty).decode (v l).a) ((tyFmt x.ins.ty).decode (v l).b)
      Result s t x noReg (toPred x x.ins.d fun l => mergePred x.ins.opx ((s.regs x).pred x.ins.d l) (c l).1) (raised x fun l => (c l).2)

/-- The W64I forms and GCMP complete with the results of R65 and R191. -/
def Obligations.ImmediateFormsWriteTheirResults : Prop :=
  ∀ (f : W64IF) (s : State) (x : Iss),
    let old (l : Nat) : Word := (s.regs x).x x.ins.d l
    let was (l : Nat) : Nat := ((s.regs x).args x l).old
    let sum (l : Nat) : Nat × Flags := fit (x.ins.mod7 % 2 == 1) 32 true (signedOf 32 (was l) + signedOf 32 x.ins.imm.toNat)
    (Ready s (.movi f) x → s.overCap x x.ins.dsts = false → ∃ t, exec (.movi f) s = .next t ∧
      Result s t x (toLanes x 1 fun _ => x.ins.imm.toNat) noPred 0) ∧
    (Ready s (.iaddi f) x → s.overCap x x.ins.dsts = false → ∃ t, exec (.iaddi f) s = .next t ∧
      Result s t x (toLanes x 1 fun l => (sum l).1) noPred (raised x fun l => (sum l).2)) ∧
    (Ready s (.andi f) x → s.overCap x x.ins.dsts = false → ∃ t, exec (.andi f) s = .next t ∧
      Result s t x (toLanes x 1 fun l => was l &&& x.ins.imm.toNat) noPred 0) ∧
    (Ready s (.icmpi f) x → ∃ t, exec (.icmpi f) s = .next t ∧
      Result s t x noReg (toPred x (x.ins.mod7 % 8) fun l => compareCc (x.ins.mod7 / 8) 32 (old l).toNat x.ins.imm.toNat) 0) ∧
    (Ready s (.gmovi f) x → ∃ t, exec (.gmovi f) s = .next t ∧ Result s t x (toUniform x.ins.d 1 x.ins.imm.toNat) noPred 0) ∧
    (Ready s (.gaddi f) x → ∃ t, exec (.gaddi f) s = .next t ∧
      Result s t x (toUniform x.ins.d 1 (old 0 + x.ins.imm).toNat) noPred 0) ∧
    (Ready s (.gcmpi f) x → ∃ t, exec (.gcmpi f) s = .next t ∧
      Result s t x noReg (toQ (x.ins.mod7 % 8 + 8) (compareCc (x.ins.mod7 / 8) 32 (old 0).toNat x.ins.imm.toNat)) 0) ∧
    ∀ g, Ready s (.gcmp g) x → ∃ t, exec (.gcmp g) s = .next t ∧
      Result s t x noReg (toQ x.ins.d (mergePred x.ins.opx ((s.regs x).pred x.ins.d 0)
        (compareCc x.ins.c 32 ((s.regs x).args x 0).a ((s.regs x).args x 0).b))) 0

/-- MOV, READL, PSET and PMOV complete (R128, R131, R179). A MOV of a register to itself without a last-read bit changes nothing. -/
def Obligations.MovesWriteTheirResults : Prop :=
  ∀ (i : Instr) (s : State) (x : Iss), Ready s i x →
    (x.ins.op = 0x69 → (x.ins.selfMove = true → ∃ t, exec i s = .next t ∧ Result s t x noReg noPred 0) ∧
      (x.ins.selfMove = false → s.overCap x x.ins.dsts = false → ∃ t, exec i s = .next t ∧
        Result s t x (toLanes x x.ins.dsts.length fun l => ((s.regs x).args x l).a) noPred 0)) ∧
    (x.ins.op = 0x6B → ∃ t, exec i s = .next t ∧
      let pick := if x.ins.opx = 0 then some (((s.regs x).x x.ins.b 0).toNat % 32) else x.exec.lowest
      let v : Word := match pick with | some l => if x.exec.getLsbD l then (s.regs x).x x.ins.a l else 0 | none => 0
      Result s t x (toUniform x.ins.d 1 v.toNat) noPred 0) ∧
    (x.ins.op = 0x65 → ∃ t, exec i s = .next t ∧
      Result s t x noReg (toPred x x.ins.d fun l =>
        let a := (s.regs x).pred x.ins.a l
        let b := (s.regs x).pred x.ins.b l
        if x.ins.opx = 0 then a && b else if x.ins.opx = 1 then a || b else if x.ins.opx = 2 then xor a b else a && !b) 0) ∧
    (x.ins.op = 0x66 → x.ins.opx = 0 → s.overCap x x.ins.dsts = false → ∃ t, exec i s = .next t ∧
      Result s t x (toLanes x 1 fun l => (List.range 12).foldr (fun k acc => ((s.regs x).pred k l).toNat + 2 * acc) 0) noPred 0) ∧
    (x.ins.op = 0x66 → x.ins.opx = 1 → ∃ t, exec i s = .next t ∧
      Result s t x noReg (fun c l => if c < 7 ∧ x.exec.getLsbD l = true then some (((s.regs x).x x.ins.a l).getLsbD c) else none) 0)

/-- VFREE completes: the name it gives loses its LIVE bits in the executing lanes and is freed when none is left in a lane of the group
and no load is pending on it; no other register changes (R180, R182). -/
def Obligations.VfreeFreesItsName : Prop :=
  ∀ (i : Instr) (s : State) (x : Iss), Ready s i x → x.ins.op = 0x6C →
    ∃ t, exec i s = .next t ∧ Local s t x ∧ RegsOnly s t x ∧ Passes s t x ∧
      (∀ c l, c ≠ x.ins.a → (t.regs x).x c l = (s.regs x).x c l) ∧ (∀ c l, (t.regs x).pred c l = (s.regs x).pred c l) ∧
      (t.group x.gid).fpstat = (s.group x.gid).fpstat ∧
      (t.group x.gid).name? x.ins.a = ((s.group x.gid).name? x.ins.a).bind fun e =>
        if e.live &&& ~~~x.exec &&& (s.group x.gid).liveLanes = 0 ∧ (s.group x.gid).loadPending x.ins.a = false then none
        else some { e with live := e.live &&& ~~~x.exec }

/-- CVTN, CVTW and SPRS complete when their format slot is one they accept and the elements fit (R29, R125, R126, R127). -/
def Obligations.SlotConversionsWriteTheirResults : Prop :=
  ∀ (f : W64F) (s : State) (x : Iss),
    let slot := s.fmtSlot x.gid x.ins.c
    let w := (slotFormat slot).width
    let n := if w = 16 ∧ x.ins.opx = 0 then 2 else 1
    let v (l : Nat) : Args := (s.regs x).args x l
    let y (l : Nat) : Nat × Flags :=
      let h := rngh (v l).a (v l).b
      let p := narrowTo slot x.ins.rm (Fmt.fp32.decode (v l).a) (h % 2 ^ 16)
      let q := narrowTo slot x.ins.rm (Fmt.fp32.decode (v l).b) (h / 2 ^ 16)
      (putBits (putBits (v l).old (2 * x.ins.opx * w) w p.1) ((2 * x.ins.opx + 1) * w) w q.1, p.2 ||| q.2)
    let z (l : Nat) : Nat × Flags := roundTo .fp32 false 0 ((slotFormat slot).decode (((v l).a >>> (x.ins.b * w)) % 2 ^ w))
    (Ready s (.cvtn f) x → s.overCap x x.ins.dsts = false → slotOk slot = true → slotFmt slot ≠ 0 → slotScale slot = 0 →
      (2 * x.ins.opx + 2) * w ≤ 32 → ∃ t, exec (.cvtn f) s = .next t ∧
        Result s t x (toLanes x 1 fun l => (y l).1) noPred (raised x fun l => (y l).2)) ∧
    (Ready s (.cvtw f) x → s.overCap x x.ins.dsts = false → slotOk slot = true → slotFmt slot ≠ 0 → slotScale slot = 0 →
      (x.ins.b + 1) * w ≤ 32 → ∃ t, exec (.cvtw f) s = .next t ∧
        Result s t x (toLanes x 1 fun l => (z l).1) noPred (raised x fun l => (z l).2)) ∧
    (Ready s (.sprs f) x → slotOk slot = true → slotFmt slot ∉ [0, 6, 7] → slotScale slot = 0 →
      (w ≠ 16 → x.ins.b = 0) → (n = 2 → x.ins.d ≠ 288 → x.ins.d % 2 = 0 ∧ (x.handler = true → x.ins.d + 2 ≤ 16)) →
      s.overCap x (if x.ins.d = 288 then [] else (List.range n).map (x.ins.d + ·)) = false → ∃ t, exec (.sprs f) s = .next t ∧
        Result s t x (toLanes x n fun l => sprsLane (slotFormat slot) x.ins.opx (v l).a (v l).b) noPred 0)

/-- SHFL, VRED, VSCAN, VOTE, BALLOT and MATCH complete with the results of R38, R39 and R134 to R137. -/
def Obligations.CrossLaneOperationsWriteTheirResults : Prop :=
  ∀ (i : Instr) (s : State) (x : Iss), Ready s i x → s.overCap x x.ins.dsts = false →
    let r := s.regs x
    let n := x.ins.width
    let src (l : Nat) : Option Nat := (shflSrc x.ins.opx (r.x x.ins.b l).toNat l).filter fun j => x.active.getLsbD j
    let votes := (x.exec.lanes.filter fun l => r.pred x.ins.a l).length
    (x.ins.op = 0x70 → ∃ t, exec i s = .next t ∧
      Result s t x (toLanes x n fun l => r.xs x.ins.a n ((src l).getD l))
        (if x.ins.c = 288 then noPred else toPred x x.ins.c fun l => (src l).isSome) 0) ∧
    (x.ins.op = 0x71 → ∃ t, exec i s = .next t ∧
      let v := redTree x.ins.c x.ins.ty x.ins.rm 5 (contributions x r n) 0
      Result s t x (toLanes x n fun _ => v.1.getD 0) noPred v.2) ∧
    (x.ins.op = 0x72 → ∃ t, exec i s = .next t ∧
      let v := scanSteps x.ins.c x.ins.ty x.ins.rm [1, 2, 4, 8, 16] (contributions x r n) 0
      Result s t x (toLanes x n fun l => (v.1.getD l none).getD 0) noPred v.2) ∧
    (x.ins.op = 0x73 → ∃ t, exec i s = .next t ∧
      Result s t x noReg (toPred x x.ins.d fun _ =>
        if x.ins.opx = 0 then votes == x.exec.lanes.length else if x.ins.opx = 1 then decide (votes > 0)
        else if x.ins.opx = 2 then votes == 0 || votes == x.exec.lanes.length else decide (2 * votes > x.exec.lanes.length)) 0) ∧
    (x.ins.op = 0x74 → ∃ t, exec i s = .next t ∧
      Result s t x (toLanes x 1 fun _ => if x.ins.opx = 0 then (Mask.ofFn fun l => x.exec.getLsbD l && r.pred x.ins.a l).toNat else 0) noPred 0) ∧
    (x.ins.op = 0x75 → ∃ t, exec i s = .next t ∧
      Result s t x (toLanes x 1 fun l => if x.ins.opx = 0 then
        (Mask.ofFn fun j => x.exec.getLsbD j && r.xs x.ins.a n j == r.xs x.ins.a n l).toNat else 0) noPred 0)

/-- SREG completes with the value of its special register; with OPX = 1 it returns FPSTAT and clears it (R44, R130). -/
def Obligations.SregReadsItsRegister : Prop :=
  ∀ (f : W64F) (s : State) (x : Iss), Ready s (.sreg f) x → s.overCap x x.ins.dsts = false →
    let n := x.ins.width
    let v (l : Nat) : Nat := s.special x x.ins.a l % 2 ^ (32 * n)
    let clears : Bool := x.ins.opx == 1 && x.exec != 0 && !x.handler
    ∃ t, exec (.sreg f) s = .next t ∧ Local s t x ∧ RegsOnly s t x ∧ Passes s t x ∧
      (∀ c l w, l < 32 → toLanes x n v c l = some w → (t.regs x).x c l = w) ∧
      (∀ c l, l < 32 → toLanes x n v c l = none → (t.regs x).x c l = (s.regs x).x c l) ∧
      (∀ c l, l < 32 → (t.regs x).pred c l = (s.regs x).pred c l) ∧
      (t.group x.gid).fpstat = if clears then 0 else (s.group x.gid).fpstat

/-! The control group (R87, R92 to R101). -/

/-- BRD that makes no join, BRANY, BRALL, BRNONE, JMP, JMPI within its target set, and LOOPG complete: each active lane stands at the
address the spec gives it (R94, R95, R96, R100), and only LOOPG writes a register. -/
def Obligations.BranchesSendTheirLanes : Prop :=
  ∀ (i : Instr) (s : State) (x : Iss), Ready s i x →
    let r := s.regs x
    let n := x.exec.lanes.length
    let c := (x.exec.lanes.filter fun l => r.pred x.ins.a l).length
    let all (b : Bool) : Nat → CodeAddr := fun _ => if b then x.target else x.next
    (x.ins.op = 0x80 → x.ins.jdist = 0 → ∃ t, exec i s = .next t ∧
      Transfers s t x (fun l => if x.exec.getLsbD l && r.pred x.ins.a l then x.target else x.next) noReg) ∧
    (x.ins.op = 0x81 → ∃ t, exec i s = .next t ∧ Transfers s t x (all (decide (0 < n ∧ 0 < c))) noReg) ∧
    (x.ins.op = 0x82 → ∃ t, exec i s = .next t ∧ Transfers s t x (all (decide (0 < n ∧ c = n))) noReg) ∧
    (x.ins.op = 0x83 → ∃ t, exec i s = .next t ∧ Transfers s t x (all (decide (0 < n ∧ c = 0))) noReg) ∧
    (x.ins.op = 0x84 → ∃ t, exec i s = .next t ∧ Transfers s t x (fun l => if x.exec.getLsbD l then x.target else x.next) noReg) ∧
    (x.ins.op = 0x85 → s.outside x false = 0 → ∃ t, exec i s = .next t ∧
      Transfers s t x (fun l => if x.exec.getLsbD l then x.indirect r l else x.next) noReg) ∧
    (x.ins.op = 0x8B → x.exec = 0 → ∃ t, exec i s = .next t ∧ Transfers s t x (fun _ => x.next) noReg) ∧
    (x.ins.op = 0x8B → x.exec ≠ 0 → ∃ t, exec i s = .next t ∧
      let w := r.u (x.ins.d - 128) - 1
      Transfers s t x (fun _ => if w ≠ 0 then x.target else x.next) (toUniform x.ins.d 1 w.toNat))

/-- BRD with a join distance completes: its lanes part and a join record is made at PC + 16 × JDIST for the active lanes (R94). Making one:
lanes that now have two or more addresses leave their old join sets and form the new record's; lanes that stand at one address make none
(R87). Where eight records stand, those that the new one's lanes leave empty go first, and where none is, the one of the highest JAGE, among
those the one made first, is dropped, its held lanes becoming bindable parked lanes at its address (R87). That the records left empty go first
is the model's choice (log 63, DEDUCED). -/
def Obligations.DividedLanesFormAJoin : Prop :=
  (∀ (f : W64F) (s : State) (x : Iss), Ready s (.brd f) x → x.ins.jdist ≠ 0 →
      ∃ t, exec (.brd f) s = .next t ∧ Local s t x ∧
        t.group x.gid = ((((s.group x.gid).modLanes x.active fun l y => { y with
          lpc := if x.exec.getLsbD l && (s.regs x).pred x.ins.a l then x.target else x.next }).createJoin
            (x.pc + BitVec.ofNat 56 (16 * x.ins.jdist)) x.active (s.cycle x.core)).modSlot x.slot Slot.issued) ∧
        t.part x.core x.part = { s.part x.core x.part with run := x.ended (s.part x.core x.part) }) ∧
  (∀ (g : Group) (jpc : CodeAddr) (lanes : Mask) (cyc : Nat),
      let live := lanes &&& g.liveLanes
      let parted := ∃ k l, k < 32 ∧ l < 32 ∧ live.getLsbD k = true ∧ live.getLsbD l = true ∧ (g.lane k).lpc ≠ (g.lane l).lpc
      (¬ parted → g.createJoin jpc lanes cyc = g) ∧
      (parted → g.joins.length < 8 → ∃ id, (∀ j ∈ g.joins, j.id ≠ id) ∧ id < 8 ∧
        g.createJoin jpc lanes cyc = { g with
          joins := (g.joins.map fun j => { j with jset := j.jset &&& ~~~live }) ++ [{ id := id, jpc := jpc, jset := live, since := none, made := g.stamp }]
          lanes := laneIdx.map fun l => if live.getLsbD l then { g.lane l with jid := some id } else g.lane l
          stamp := g.stamp + 1 }) ∧
      let new (id : Nat) : Join := { id := id, jpc := jpc, jset := live, since := none, made := g.stamp }
      let kept := (g.joins.map fun (j : Join) => { j with jset := j.jset &&& ~~~live }).filter fun j => j.jset != 0
      (parted → 8 ≤ g.joins.length → kept.length < 8 → ∃ id, (∀ j ∈ kept, j.id ≠ id) ∧ id < 8 ∧ g.createJoin jpc lanes cyc = { g with
        joins := kept ++ [new id]
        lanes := laneIdx.map fun l => if live.getLsbD l then { g.lane l with jid := some id } else g.lane l
        stamp := g.stamp + 1 }) ∧
      (parted → g.joins.length = 8 → kept.length = 8 → (kept.map (·.id)).Nodup →
        ∃ j ∈ kept, (∀ k ∈ kept, k.age cyc < j.age cyc ∨ (k.age cyc = j.age cyc ∧ j.made ≤ k.made)) ∧
          ∃ id, (∀ k ∈ kept, k.id ≠ j.id → k.id ≠ id) ∧ id < 8 ∧ g.createJoin jpc lanes cyc = { g with
            joins := kept.filter (·.id != j.id) ++ [new id]
            lanes := laneIdx.map fun l => if live.getLsbD l then { g.lane l with jid := some id }
              else if j.jset.getLsbD l then (if (g.lane l).lst = .held
                then { g.lane l with jid := none, lst := .parked, lpc := j.jpc, passed := 0, parkedAt := g.stamp }
                else { g.lane l with jid := none })
              else g.lane l
            stamp := g.stamp + 1 }))

/-- CALL and CALLI complete while no executing lane's return stack is full: the address after the call is pushed, the depth rises by one
and the lane stands at its target; CALLI also makes a join there (R97). -/
def Obligations.CallsPushTheirReturn : Prop :=
  ∀ (f : W64F) (s : State) (x : Iss), (∀ l, l < 32 → x.exec.getLsbD l = true → ((s.group x.gid).lane l).rdep < 8) →
    let sent (dest : Nat → CodeAddr) : Group := (s.group x.gid).modLanes x.active fun l y =>
      if x.exec.getLsbD l then { y with rstk := y.rstk.set y.rdep x.next, rdep := y.rdep + 1, lpc := dest l } else { y with lpc := x.next }
    (Ready s (.call f) x → ∃ t, exec (.call f) s = .next t ∧ Local s t x ∧
      t.group x.gid = (sent fun _ => x.target).modSlot x.slot Slot.issued ∧
      t.part x.core x.part = { s.part x.core x.part with run := x.ended (s.part x.core x.part) }) ∧
    (Ready s (.calli f) x → s.outside x true = 0 → ∃ t, exec (.calli f) s = .next t ∧ Local s t x ∧
      t.group x.gid = ((sent (x.indirect (s.regs x))).createJoin x.next x.active (s.cycle x.core)).modSlot x.slot Slot.issued ∧
      t.part x.core x.part = { s.part x.core x.part with run := x.ended (s.part x.core x.part) })

/-- RET and EXIT complete outside a handler: an executing lane with a return address goes there, one without exits where it stands, EXIT
exits every executing lane, and an active lane that does not execute goes on (R98). Exiting lanes keep their LPC, leave every join set and
every load that has returned to them (what is still to come is discarded as it returns), lose their LIVE bits, and change nothing else of
their group; a name left is one that stood before, with its LIVE bits less the exited lanes (R98, R180). In a handler RET and EXIT complete
too, and exit the same lanes. -/
def Obligations.ReturnsAndExitsEndTheirLanes : Prop :=
  (∀ (i : Instr) (s : State) (x : Iss), Ready s i x → x.handler = false →
      let g := s.group x.gid
      let out := Mask.ofFn fun l => x.exec.getLsbD l && (g.lane l).rdep == 0
      (x.ins.op = 0x88 → ∃ t, exec i s = .next t ∧ Local s t x ∧
        t.group x.gid = ((g.modLanes x.active fun l y => if out.getLsbD l then y else if x.exec.getLsbD l then
          { y with rdep := y.rdep - 1, lpc := y.rstk.getD (y.rdep - 1) 0 } else { y with lpc := x.next }).exitLanes out).modSlot x.slot Slot.issued ∧
        t.part x.core x.part = { s.part x.core x.part with run := x.ended (s.part x.core x.part) }) ∧
      (x.ins.op = 0x89 → ∃ t, exec i s = .next t ∧ Local s t x ∧
        t.group x.gid = ((g.modLanes x.active fun l y => if x.exec.getLsbD l then y else { y with lpc := x.next }).exitLanes x.exec).modSlot x.slot Slot.issued ∧
        t.part x.core x.part = { s.part x.core x.part with run := x.ended (s.part x.core x.part) })) ∧
  (∀ (i : Instr) (s : State) (x : Iss), Ready s i x → x.handler = true → (x.ins.op = 0x88 ∨ x.ins.op = 0x89) →
      ∃ t, exec i s = .next t ∧ t.mem = s.mem ∧ ∀ l, l < 32 → ((t.group x.gid).lane l).lst =
        if x.exec.getLsbD l = true ∧ (x.ins.op = 0x89 ∨ ((s.group x.gid).lane l).rdep = 0) then .exited else ((s.group x.gid).lane l).lst) ∧
  (∀ (g : Group) (m : Mask),
      (∀ l, l < 32 → (g.exitLanes m).lane l =
        if m.getLsbD l then { g.lane l with lst := .exited, bar := none, jid := none } else g.lane l) ∧
      (g.exitLanes m).joins = g.joins.map (fun j => { j with jset := j.jset &&& ~~~m }) ∧
      (g.exitLanes m).loads = (g.loads.map fun l => if l.uni then l else
        { l with lanes := l.lanes &&& ~~~(m &&& l.got), gone := l.gone ||| (l.lanes &&& m &&& ~~~l.got) }).filter (fun l => l.uni || l.lanes != 0) ∧
      (∀ n e, (g.exitLanes m).name? n = some e → ∃ e₀, g.name? n = some e₀ ∧ e = { e₀ with live := e₀.live &&& ~~~m }) ∧
      g.exitLanes m = { g with
        lanes := (g.exitLanes m).lanes, joins := (g.exitLanes m).joins, loads := (g.exitLanes m).loads, names := (g.exitLanes m).names })

/-- NOP and YIELD complete: the split stands at the next instruction with every register as it was (R99). -/
def Obligations.NopAndYieldOnlyGoOn : Prop :=
  ∀ (i : Instr) (s : State) (x : Iss), Ready s i x →
    (x.ins.op = 0x8C → ∃ t, exec i s = .next t ∧ Result s t x noReg noPred 0) ∧
    (x.ins.op = 0x8A → ∃ t, exec i s = .next t ∧ Local s t x ∧
      t.group x.gid = ((s.group x.gid).moveSplit x.slot x.active x.next).modSlot x.slot (fun y =>
        { y.issued with youngest := if x.exec = 0 then y.youngest else true }) ∧
      t.part x.core x.part = { s.part x.core x.part with run := x.ended (s.part x.core x.part) })

/-! Memory instructions (R138 to R152, R199 to R205, R283 to R287). -/

/-- LD and ST complete where every executing lane's address is aligned and translates: LD enters one load for D and one read for each
lane, ST one write of each lane's bytes, at l1 or at home (R140, R141, R143, R150). No register, flag, tile or byte of memory changes; a ST
under AMX may also record in the scale table (R262). -/
def Obligations.LoadsAndStoresStartTheirAccesses : Prop :=
  ∀ (f : W64F) (s : State) (x : Iss),
    let r := s.regs x
    let w := wdBytes x.ins.wd
    let la := x.addrs (r.gaddr x)
    x.misaligned false w la = none →
    (Ready s (.ld f) x → s.loadCount x < 32 → s.overCap x x.ins.dsts = false → (s.lanesAt x .read la).2 = [] → x.exec ≠ 0 →
      ∃ t l, exec (.ld f) s = .next t ∧ Kept s t x ∧ Loads s t x l ∧ l.n = x.ins.dsts.length ∧ l.lanes = x.exec ∧ l.got = 0 ∧
        Starts s t ((s.lanesAt x .read la).1.map fun a => (.read, laneBit a.1, a.2.2, w, [(a.1, [])], s.atHome x a.2.2, some l.seq))) ∧
    (Ready s (.ld f) x → s.loadCount x < 32 → s.overCap x x.ins.dsts = false → x.exec = 0 →
      ∃ t, exec (.ld f) s = .next t ∧ Kept s t x ∧ t.accs = s.accs ∧ (t.group x.gid).loads = (s.group x.gid).loads) ∧
    (Ready s (.st f) x → (s.lanesAt x .write la).2 = [] →
      ∃ t, exec (.st f) s = .next t ∧ Kept s t x ∧
        Starts s t ((s.lanesAt x .write la).1.map fun a => (.write, laneBit a.1, a.2.2, w, [(a.1, r.data x w a.1)], s.atHome x a.2.2, none)))

/-- GLD and GST complete where their one address is aligned and translates; without an executing lane they do nothing (R144). -/
def Obligations.UniformLoadsAndStoresStartOneAccess : Prop :=
  ∀ (f : W64F) (s : State) (x : Iss) (pa : Nat),
    let r := s.regs x
    let w := wdBytes x.ins.wd
    let ctx := (s.group x.gid).ctx
    let step := (s.group x.gid).step.toNat
    (Ready s (.gld f) x → x.exec ≠ 0 → r.gaddr x 0 % w = 0 → s.laneAccess x.core ctx step .read (r.gaddr x 0) = .ok pa → s.loadCount x < 32 →
      ∃ t l, exec (.gld f) s = .next t ∧ Kept s t x ∧ Loads s t x l ∧ l.n = x.ins.dsts.length ∧ l.uni = true ∧
        Starts s t [(.read, x.exec, pa, w, [(0, [])], s.atHome x pa, some l.seq)]) ∧
    (Ready s (.gst f) x → x.exec ≠ 0 → r.gaddr x 0 % w = 0 → s.laneAccess x.core ctx step .write (r.gaddr x 0) = .ok pa →
      ∃ t, exec (.gst f) s = .next t ∧ Kept s t x ∧ Starts s t [(.write, x.exec, pa, w, [(0, r.data x w 0)], s.atHome x pa, none)]) ∧
    ∀ i, (i = .gld f ∨ i = .gst f) → Ready s i x → x.exec = 0 → ∃ t, exec i s = .next t ∧ Kept s t x ∧ t.accs = s.accs

/-- ATOM and RED complete where every executing lane's address is aligned and translates: one access for each location, its lanes in
increasing order; ATOM also enters a load, unless its D is 288 (R140, R147, R284). -/
def Obligations.AtomicsStartOneAccessPerLocation : Prop :=
  ∀ (f : W64F) (s : State) (x : Iss),
    let r := s.regs x
    let w := atyBytes x.ins.aty
    let la := x.addrs (r.gaddr x)
    let forms (n : Need) (k : AccKind) (load : Option Nat) := (groupBy ((s.lanesAt x n la).1.map fun a => (a.1, a.2.2))).map fun g =>
      (k, Mask.ofFn (fun l => g.2.contains l), g.1, w, g.2.map fun l => (l, r.operand x l), true, load)
    x.misaligned false w la = none → x.exec ≠ 0 →
    (Ready s (.atom f) x → x.ins.d ≠ 288 → (s.lanesAt x .atomic la).2 = [] → s.loadCount x < 32 → s.overCap x x.ins.dsts = false →
      ∃ t l, exec (.atom f) s = .next t ∧ Kept s t x ∧ Loads s t x l ∧ l.n = x.ins.dsts.length ∧ l.lanes = x.exec ∧ l.got = 0 ∧
        Starts s t (forms .atomic (.atom x.ins.wd x.ins.aty) (some l.seq))) ∧
    (Ready s (.atom f) x → x.ins.d = 288 → (s.lanesAt x .quiet la).2 = [] → s.overCap x x.ins.dsts = false →
      ∃ t, exec (.atom f) s = .next t ∧ Kept s t x ∧ (t.group x.gid).loads = (s.group x.gid).loads ∧
        Starts s t (forms .quiet (.atom x.ins.wd x.ins.aty) none)) ∧
    (Ready s (.red f) x → (s.lanesAt x .atomic la).2 = [] →
      ∃ t, exec (.red f) s = .next t ∧ Kept s t x ∧ Starts s t (forms .atomic (.red x.ins.wd x.ins.aty) none))

/-- PREF and DROP complete whatever their addresses: PREF reads the whole lines that translate and are not stepped, for no register, and
changes nothing the model holds with PL = 1; DROP drops the lines that translate (R149, R367). That PL = 1 starts nothing, and that PL = 0 is
one access of 64 bytes for no register, is the model's choice (log 110, DEDUCED), as is which pages of another package are stepped (log 34). -/
def Obligations.PrefetchAndDropComplete : Prop :=
  ∀ (f : W64F) (s : State) (x : Iss),
    let la := (x.addrs ((s.regs x).gaddr x)).filter fun a => a.2 % 4 == 0
    (Ready s (.pref f) x → ∃ t, exec (.pref f) s = .next t ∧ Kept s t x ∧
      Starts s t (if x.ins.pl = 1 then [] else
        ((s.lanesAt x .read la).1.filter fun a => (s.carried a.2.2 0).isNone).map fun a => (.read, 0, lineOf a.2.2 * 64, 64, [], false, none))) ∧
    (Ready s (.drop f) x → ∃ t, exec (.drop f) s = .next t ∧ Kept s t x ∧
      Starts s t (la.filterMap fun a => match s.translate x.core (s.group x.gid).ctx .write a.2 with
        | .ok pa => some (.drop x.ins.lastBit, laneBit a.1, lineOf pa * 64, 64, [], false, none)
        | .error _ => none))

/-- FENCE completes once the accesses it orders have been performed: at once without an executing lane; else when the release it makes
waits for nothing and, unless it is a release alone, no read of its lanes is under way; an acquire of wide scope then drops what the L1
holds valid and clean, but for frozen copies (R268, R283). That an earlier RED of its lanes does not hold an acquire back is the model's choice
(log 118, DESIGN CHOICE). -/
def Obligations.FenceCompletesWhenOrdered : Prop :=
  ∀ (f : W64F) (s : State) (x : Iss), Ready s (.fence f) x →
    (x.exec = 0 ∨ ((x.ins.sem = 1 ∨ s.releaseDone x x.ins.sco = (true, s)) ∧ (x.ins.sem = 2 ∨ s.readsUnder x.gid x.exec = false))) →
    ∃ t, exec (.fence f) s = .next t ∧ Kept s t x ∧ t.accs = s.accs ∧
      ∀ line, t.l1Line (s.l1Of x.core) line = if x.exec ≠ 0 ∧ (x.ins.sem = 1 ∨ x.ins.sem = 3) ∧ s.wide x.core x.ins.sco = true then
        (s.l1Line (s.l1Of x.core) line).cleaned else s.l1Line (s.l1Of x.core) line

/-- REDO completes where every executing lane's address is aligned and translates and its index lies below its count: one contribution for
each lane leaves, and the split waits for the answers (R285, R286). -/
def Obligations.OrderedReductionContributes : Prop :=
  ∀ (f : W64F) (s : State) (x : Iss),
    let r := s.regs x
    let la := x.addrs fun l => r.xs x.ins.a 2 l
    let tag (l : Nat) : Nat := (r.x x.ins.b l).toNat
    let ok := (s.lanesAt x .atomic la).1
    Ready s (.redo f) x → ((s.group x.gid).slot x.slot).redo = [] → x.misaligned false (atyBytes x.ins.aty) la = none →
    (∀ a ∈ la, tag a.1 % 4096 ≤ tag a.1 / 4096 % 4096) → (s.lanesAt x .atomic la).2 = [] → x.exec ≠ 0 →
    ∃ t news, exec (.redo f) s = .next t ∧ t.mem = s.mem ∧ t.redos = s.redos ++ news ∧
      (news.map fun m => (m.gid, m.slot, m.lane, m.pa, m.aop, m.aty, m.rslot, m.n, m.idx, m.val)) =
        (ok.map fun a => (x.gid, x.slot, a.1, a.2.2, x.ins.wd, x.ins.aty, tag a.1 / 2 ^ 24, tag a.1 / 4096 % 4096 + 1, tag a.1 % 4096,
          ofBytes (r.operand x a.1))) ∧
      ((t.group x.gid).slot x.slot).redo = news.map (·.id) ∧
      (∀ l, (t.group x.gid).lane l = (s.group x.gid).lane l) ∧
      (∀ c l, l < 32 → (t.regs x).x c l = (s.regs x).x c l) ∧ (∀ c l, l < 32 → (t.regs x).pred c l = (s.regs x).pred c l) ∧
      ∀ g, g ≠ x.gid → t.group g = s.group g

/-- LDS, STS and ATOMS complete where every executing lane's address is aligned and inside its rank: each access is performed at once or is
under way to its bank, and one at its own core's bank that no release holds back and no earlier access of its lanes precedes is performed at
once; what is performed follows the lanes' order (R143, R147, R199, R202, R204). ATOMS with D = 288 needs words that pass their check, as lost
data is reported as it issues (log 69, DEDUCED). -/
def Obligations.ScratchpadAccessesArePerformedOrUnderWay : Prop :=
  ∀ (f : W64F) (s : State) (x : Iss),
    let r := s.regs x
    let b := s.blockOf x
    let bk := (s.group x.gid).blk
    let w := wdBytes x.ins.wd
    let wa := atyBytes x.ins.aty
    let la := x.addrs (r.saddr x)
    let room := s.loadCount x < 32 ∧ s.overCap x x.ins.dsts = false
    let free (m : Mask) (a : Nat) : Prop := b.coreOf a = x.core ∧ (s.releaseFor x).1 = [] ∧ s.spadDeps x.gid m a = []
    let maskOf (ls : List Nat) : Mask := Mask.ofFn fun l => ls.contains l
    let waits (t : State) (k a w : Nat) (apps : List (Nat × List Byte)) (load : Option Nat) : Prop :=
      ∃ m ∈ t.spads, m.kind = k ∧ m.gid = x.gid ∧ m.blk = bk ∧ m.addr = a ∧ m.w = w ∧ m.apps = apps ∧ m.load = load ∧ m.done = false
    (Ready s (.lds f) x → room → x.misaligned false w la = none → x.outOfExtent b w la = none → x.exec ≠ 0 →
      ∃ t l, exec (.lds f) s = .next t ∧ Kept s t x ∧ Loads s t x l ∧ l.n = x.ins.dsts.length ∧ l.lanes = x.exec ∧ (∀ k, t.block k = s.block k) ∧
        (∀ n, n < 32 → x.exec.getLsbD n = true → waits t 0 (r.saddr x n) w [(n, [])] (some l.seq) ∨
          (l.got.getLsbD n = true ∧ (n, loadWords x.ins.wd l.n (b.read (r.saddr x n) w)) ∈ l.vals)) ∧
        ∀ n, n < 32 → x.exec.getLsbD n = true → free (maskOf [n]) (r.saddr x n) → l.got.getLsbD n = true) ∧
    (Ready s (.sts f) x → x.misaligned false w la = none → x.outOfExtent b w la = none →
      ∃ (t : State) (now : List Nat), exec (.sts f) s = .next t ∧ Kept s t x ∧ (∀ k, k ≠ bk → t.block k = s.block k) ∧ now.Sublist x.exec.lanes ∧
        t.block bk = now.foldl (fun b n => b.write (r.saddr x n) (r.data x w n)) b ∧
        (∀ n, n < 32 → x.exec.getLsbD n = true → n ∈ now ∨ waits t 1 (r.saddr x n) w [(n, r.data x w n)] none) ∧
        ∀ n, n < 32 → x.exec.getLsbD n = true → (∀ k, k ≤ n → x.exec.getLsbD k = true → r.saddr x k = r.saddr x n → free (maskOf [k]) (r.saddr x n)) → n ∈ now) ∧
    (Ready s (.atoms f) x → x.ins.d = 288 → s.overCap x x.ins.dsts = false → x.misaligned false wa la = none → x.outOfExtent b wa la = none →
      (∀ a ∈ la, b.badAt a.2 wa = false) →
      let msg (g : Nat × List Nat) := g.2.map fun n => (n, r.operand x n)
      ∃ (t : State) (now : List (Nat × List Nat)), exec (.atoms f) s = .next t ∧ Kept s t x ∧ (t.group x.gid).loads = (s.group x.gid).loads ∧
        (∀ k, k ≠ bk → t.block k = s.block k) ∧ now.Sublist (groupBy la) ∧
        t.block bk = now.foldl (fun b g => (b.perform (x.spadMsg s 2 g.1 wa (msg g) none)).1) b ∧
        (∀ g ∈ groupBy la, g ∈ now ∨ waits t 2 g.1 wa (msg g) none) ∧ ∀ g ∈ groupBy la, free (maskOf g.2) g.1 → g ∈ now) ∧
    (Ready s (.atoms f) x → x.ins.d ≠ 288 → room → x.misaligned false wa la = none → x.outOfExtent b wa la = none → x.exec ≠ 0 →
      let msg (g : Nat × List Nat) := g.2.map fun n => (n, r.operand x n)
      ∃ (t : State) (l : PLoad) (now : List (Nat × List Nat)), exec (.atoms f) s = .next t ∧ Kept s t x ∧ Loads s t x l ∧ l.n = x.ins.dsts.length ∧ l.lanes = x.exec ∧ (∀ k, k ≠ bk → t.block k = s.block k) ∧
        now.Sublist (groupBy la) ∧
        t.block bk = now.foldl (fun b g => (b.perform (x.spadMsg s 2 g.1 wa (msg g) (some l.seq))).1) b ∧
        (∀ g ∈ groupBy la, (g ∈ now ∧ ∀ n ∈ g.2, l.got.getLsbD n = true) ∨ waits t 2 g.1 wa (msg g) (some l.seq)) ∧
        ∀ g ∈ groupBy la, free (maskOf g.2) g.1 → g ∈ now)

/-- LDFE, STFE and FESET complete at their own core's bank when their addresses pass the checks and the words are as they need them: LDFE
reads full words and empties them where it takes, STFE writes empty words and fills them, FESET sets a range, or at another core's bank leaves
for it (R145, R146, R202, R204). A LDFE or STFE whose step was done as it stood stalled only goes on: one at another core's bank always comes
to that, its step being done where it arrives (the model's choice, log 102, DEDUCED). -/
def Obligations.FullEmptyOperationsComplete : Prop :=
  ∀ (f : W64F) (s : State) (x : Iss),
    let r := s.regs x
    let b := s.blockOf x
    let bk := (s.group x.gid).blk
    let la := x.addrs (r.saddr x)
    let n := (r.x x.ins.c 0).toNat
    let start := r.saddr x 0
    (∀ i, (i = .ldfe f ∨ i = .stfe f) → Ready s i x → s.feDone x = true → ∃ t, exec i s = .next t ∧ Kept s t x ∧ t.blocks = s.blocks) ∧
    (Ready s (.ldfe f) x → s.feDone x = false → s.feAway x la = false → s.loadCount x < 32 → s.overCap x x.ins.dsts = false → x.feCheck b la = none → s.feReady x = true → x.exec ≠ 0 →
      ∃ t l, exec (.ldfe f) s = .next t ∧ Kept s t x ∧ Loads s t x l ∧ l.n = x.ins.dsts.length ∧ l.lanes = x.exec ∧ l.got = x.exec ∧
        (∀ a ∈ la, (a.1, loadWords 4 l.n (b.read a.2 4)) ∈ l.vals) ∧ (∀ k, k ≠ bk → t.block k = s.block k) ∧
        t.block bk = if x.ins.pl = 1 then la.foldl (fun b a => b.setFull a.2 false) b else b) ∧
    (Ready s (.stfe f) x → s.feDone x = false → s.feAway x la = false → x.feCheck b la = none → s.feReady x = true → (x.ins.sem = 2 → x.exec ≠ 0 → s.releaseDone x x.ins.sco = (true, s)) →
      ∃ t, exec (.stfe f) s = .next t ∧ Kept s t x ∧ (∀ k, k ≠ bk → t.block k = s.block k) ∧
        t.block bk = la.foldl (fun b a => (b.write a.2 (bytesOf 4 (r.x x.ins.c a.1).toNat)).setFull a.2 true) b) ∧
    (Ready s (.feset f) x → (x.exec = 0 ∨ (start % 4 = 0 ∧ (n = 0 ∨ (b.spadOk start 4 = true ∧ spadOff start + 4 * n ≤ b.spad)))) →
      let here := b.coreOf start = x.core ∧ s.feOrdered x [(0, start)] = true
      ∃ t, exec (.feset f) s = .next t ∧ Kept s t x ∧ (∀ k, k ≠ bk → t.block k = s.block k) ∧
        (x.exec = 0 ∨ n = 0 → t.block bk = b ∧ t.spads = s.spads) ∧
        (x.exec ≠ 0 → n ≠ 0 → here → t.block bk = (List.range n).foldl (fun b k => b.setFull (start + 4 * k) (x.ins.pl == 1)) b) ∧
        (x.exec ≠ 0 → n ≠ 0 → ¬ here → t.block bk = b ∧ ∃ m, t.spads = s.spads ++ [m] ∧ m.kind = 3 ∧ m.gid = x.gid ∧ m.blk = bk ∧ m.addr = start ∧
          m.w = 4 * n ∧ m.aop = x.ins.pl ∧ m.done = false))

/-! The core group (R160, R170, R173 to R177, R187, R215 to R220, R341) and traps (R192 to R197). -/

/-- WAIT completes when the counter of its class is at most N and no older failure is left to report; it drops what the L1 holds clean,
but for class MX, and for class TL only where the block's span is wide enough (R174, R268, R282). SLEEPT completes at its time, or when
its promise has been kept (R177). That a WAIT drops clean lines whether or not it covers an operation, class TL by the span and MX never, is
the model's choice (log 74, DEDUCED). -/
def Obligations.WaitsCompleteWhenDue : Prop :=
  ∀ (i : Instr) (s : State) (x : Iss) (f : W64F), Ready s i x →
    let cls := x.ins.m12 / 512
    (x.ins.op = 0xC0 → (s.group x.gid).counter cls ≤ x.ins.m12 % 64 → (s.group x.gid).toReport cls (x.ins.m12 % 64) = none →
      ∃ t, exec i s = .next t ∧ Kept s t x ∧ t.accs = s.accs ∧
        ∀ line, t.l1Line (s.l1Of x.core) line =
          if cls = 2 ∨ (cls = 1 ∧ s.wide x.core ((s.blockOf x).span + 1) = false) then s.l1Line (s.l1Of x.core) line else (s.l1Line (s.l1Of x.core) line).cleaned) ∧
    (i = .sleept f → x.ins.m12 / 512 = 0 → (s.regs x).xs x.ins.a 2 0 ≤ (s.core x.core).time →
      ∃ t, exec i s = .next t ∧ Kept s t x) ∧
    (i = .sleeptProm f → x.ins.m12 / 512 = 1 → (s.sleepOp x).bind (s.group x.gid).bcOp = none →
      ∃ t, exec i s = .next t ∧ Kept s t x)

/-- PLVL, REGREL and a REGCLM whose claim has been served complete: PLVL sets the group's request, at most 3, and the domain is told;
REGREL gives cap of its group back to the block's pool (R170, R187). -/
def Obligations.LevelsAndCapsChange : Prop :=
  ∀ (f : W64F) (s : State) (x : Iss),
    let g := s.group x.gid
    let v := if x.ins.m12 / 2048 = 1 then x.ins.m12 % 4 else min ((s.regs x).x x.ins.a 0).toNat 3
    (Ready s (.plvl f) x → exec (.plvl f) s = .next (((s.modGroup x.gid fun g => { g with level := v }).relevel (domOf x.core)).advance x)) ∧
    (Ready s (.regclm f) x → (g.slot x.slot).claim = .served → ∃ t, exec (.regclm f) s = .next t ∧ Kept s t x) ∧
    (Ready s (.regrel f) x → (s.block g.blk).isLocal = true → g.footprint + x.ins.m12 ≤ g.cap →
      ∃ t, exec (.regrel f) s = .next t ∧ Passes s t x ∧ t.mem = s.mem ∧
        (t.group x.gid).cap = g.cap - x.ins.m12 ∧ (t.block g.blk).pool = (s.block g.blk).pool + x.ins.m12 ∧
        (∀ k, k ≠ g.blk → t.block k = s.block k) ∧ (∀ c l, l < 32 → (t.regs x).x c l = (s.regs x).x c l) ∧
        (∀ c l, l < 32 → (t.regs x).pred c l = (s.regs x).pred c l))

/-- BAR completes once its release is performed: the split's lanes wait at the barrier they name, at the address of the BAR, and its slot
is free (R215, R216, R217). -/
def Obligations.BarrierHoldsItsLanes : Prop :=
  ∀ (f : W64F) (s : State) (x : Iss),
    let lvl := x.ins.m12 / 512
    let desc := ((s.regs x).x x.ins.a 0).toNat
    Ready s (.bar f) x → (4 ≤ lvl → desc % 2 ^ 20 ≠ 0 ∧ (lvl = 4 → desc / 2 ^ 20 = 0)) →
    s.releaseDone { x with exec := x.active } lvl = (true, s) →
    ∃ t, exec (.bar f) s = .next t ∧ t.mem = s.mem ∧ (∀ g, g ≠ x.gid → t.group g = s.group g) ∧
      (∀ l, l < 32 → (t.group x.gid).lane l = if x.active.getLsbD l then { (s.group x.gid).lane l with
          lst := .barrier, lpc := x.pc, bar := some { lvl := lvl, id := x.ins.m12 % 16, desc := if 4 ≤ lvl then desc else 0, pc := x.pc, mark := 0 } }
        else (s.group x.gid).lane l) ∧
      ((t.group x.gid).slot x.slot).valid = false ∧ (∀ k, k ≠ x.slot → (t.group x.gid).slot k = (s.group x.gid).slot k) ∧
      (∀ c l, l < 32 → (t.regs x).x c l = (s.regs x).x c l) ∧ ∀ c l, l < 32 → (t.regs x).pred c l = (s.regs x).pred c l

/-- The deque instructions complete: DQPUSH enters at the bottom and answers 1, or 0 at 256 entries; DQPOP takes from the bottom and
answers 0 when there is nothing; DQSTEAL enters a uniform load, answered at once for its own core or one of another die, else by a steal
under way (R219, R220). -/
def Obligations.DequeOperationsComplete : Prop :=
  ∀ (f : W64F) (s : State) (x : Iss),
    let r := s.regs x
    let q := (s.core x.core).deque
    let v := ((s.regs x).x x.ins.a 0).toNat
    (Ready s (.dqpush f) x → s.releaseDone { x with exec := x.active } 3 = (true, s) →
      ∃ t, exec (.dqpush f) s = .next t ∧ t.mem = s.mem ∧ Passes s t x ∧
        (t.core x.core).deque = (if q.length < 256 then q ++ [BitVec.ofNat 64 (r.xs x.ins.a 2 0)] else q) ∧
        (∀ c l w, toUniform x.ins.c 1 (if q.length < 256 then 1 else 0) c l = some w → (t.regs x).x c l = w) ∧
        (∀ c l, l < 32 → toUniform x.ins.c 1 0 c l = none → (t.regs x).x c l = r.x c l)) ∧
    (Ready s (.dqpop f) x →
      ∃ t, exec (.dqpop f) s = .next t ∧ t.mem = s.mem ∧ Passes s t x ∧
        (t.core x.core).deque = q.dropLast ∧
        (∀ c l w, c ≠ x.ins.c → toUniform x.ins.d 2 ((q.getLast?).getD 0).toNat c l = some w → (t.regs x).x c l = w) ∧
        (∀ c l w, toUniform x.ins.c 1 (if q = [] then 0 else 1) c l = some w → (t.regs x).x c l = w) ∧
        (∀ c l, l < 32 → toUniform x.ins.d 2 0 c l = none → toUniform x.ins.c 1 0 c l = none → (t.regs x).x c l = r.x c l)) ∧
    (Ready s (.dqsteal f) x → s.loadCount x < 32 →
      ∃ t l, exec (.dqsteal f) s = .next t ∧ t.mem = s.mem ∧ Passes s t x ∧ Loads s t x l ∧
        (∀ c l, l < 32 → (t.regs x).x c l = r.x c l) ∧ (∀ g, g ≠ x.gid → t.group g = s.group g) ∧
        (511 < v ∨ dieOf v ≠ dieOf x.core → l.got = 1 ∧ t.steals = s.steals ∧ ∀ w ∈ l.vals, w.2 = [0, 0] ∨ w.2 = [0]) ∧
        (v ≤ 511 → dieOf v = dieOf x.core → v ≠ x.core → l.got = 0 ∧ ∃ id, t.steals = s.steals ++
          [{ id := id, gid := x.gid, src := x.core, tgt := v, d := x.ins.d, c := x.ins.c, load := l.seq, ctx := (s.group x.gid).ctx }]) ∧
        (v = x.core → v ≤ 511 → l.got = 1 ∧ t.steals = s.steals ∧ ((s.core v).ctx = some (s.group x.gid).ctx → (t.core v).deque = (s.core v).deque.tail)))

/-- LNCH completes when its record is aligned, readable and sound and its queue is one the context may fill and is not full: the record is
written at the queue's tail and PI advances (R341). -/
def Obligations.LaunchEntersItsRecord : Prop :=
  ∀ (f : W64F) (s : State) (x : Iss) (pas : List Nat) (bs : List Byte),
    let va := (s.regs x).xs x.ins.a 2 0
    let q := ((s.regs x).x x.ins.b 0).toNat
    let ctx := (s.group x.gid).ctx
    let s1 := s.linesRead (.lane x.gid x.slot) x.core pas
    let at_ := s1.recordPa (s.lq q) (s.lq q).pi
    Ready s (.lnch f) x → va % 256 = 0 → q ≤ 63 → (s.lq q).en = true → (s.lq q).src = true → (s.lq q).ctx = ctx →
    s.releaseDone { x with exec := x.active } 4 = (true, s) → ((s.lq q).pi + 2 ^ 32 - (s.lq q).ci) % 2 ^ 32 < (s.lq q).size →
    s.fetchRecord x va 4 = .bytes pas bs → s1.recordBad ctx (dwordsOf bs) = none → s1.wbqRoom at_ = true →
    exec (.lnch f) s = .next (((s1.homeBytes at_ bs).setLq q { s.lq q with pi := ((s.lq q).pi + 1) % 2 ^ 32 }).advance x)

/-- A trap whose handler can be entered is entered in the same step (R192, R193, R194): a trap of another cause than PAGE_NOT_PRESENT, and
than BKPT under a debugger. A trap with no handler to take it clamps its context: one raised in a handler, and one with TVEC = 0 (R192,
R351); its group stands unchanged at its instruction, which is the model's choice (log 101, DESIGN CHOICE). -/
def Obligations.TrapsEnterTheirHandlerOrClamp : Prop :=
  (∀ (s : State) (gid slot : Nat) (tr : Trap), s.handlerOpen gid slot → tr.cause ≠ .pageNotPresent →
      (tr.cause = .bkpt → (s.ctx (s.group gid).ctx).debug = false) → Entered s (s.raise gid slot tr) gid slot tr) ∧
  (∀ (s : State) (gid slot : Nat) (tr : Trap),
      (((s.group gid).slot slot).mode = .handler ∨ (tr.cause ≠ .pageNotPresent ∧ (tr.cause = .bkpt → (s.ctx (s.group gid).ctx).debug = false) ∧
        (s.group gid).sys.tvec = 0)) →
      ((s.raise gid slot tr).ctx (s.group gid).ctx).state = .clamped ∧ (s.raise gid slot tr).group gid = s.group gid)

/-- TRAP and BKPT complete wherever they issue: the split stands at the next instruction and takes a trap there with TLANES the active
lanes, TADDR 0 and TINFO the number TRAP gives, 0 for BKPT (R195, R197); where the handler can be entered it is entered in the same step, by
BKPT where no debugger takes it (R192, R193). -/
def Obligations.SoftwareTrapsEnterTheHandler : Prop :=
  ∀ (f : W64F) (s : State) (x : Iss),
    let tr (c : Cause) (n : Nat) : Trap := { cause := c, pc := x.next, addr := 0, lanes := x.active, info := BitVec.ofNat 32 n, rpl := false }
    let past := s.modGroup x.gid fun g => g.moveSplit x.slot x.active x.next
    (Ready s (.trap f) x → ∃ t, exec (.trap f) s = .next t ∧ t = past.raise x.gid x.slot (tr .software (x.ins.m12 % 256)) ∧
      (s.handlerOpen x.gid x.slot → Entered s t x.gid x.slot (tr .software (x.ins.m12 % 256)))) ∧
    (Ready s (.bkpt f) x → ∃ t, exec (.bkpt f) s = .next t ∧ t = past.raise x.gid x.slot (tr .bkpt 0) ∧
      (s.handlerOpen x.gid x.slot → (s.ctx (s.group x.gid).ctx).debug = false → Entered s t x.gid x.slot (tr .bkpt 0)))

/-- ERET, MFSR, MTSR and TLBINV execute only in a split that runs a trap handler; anywhere else each faults PRIV, unless an ILLEGAL_OPCODE
comes first in the order of checks (R68). -/
def Obligations.HandlerInstructionsNeedAHandler : Prop :=
  ∀ (i : Instr) (s : State) (x : Iss), x.ins.op ∈ [0xCB, 0xCC, 0xCD, 0xCE] →
    (Ready s i x → x.handler = true) ∧
    (i.words.map insOfWords = some x.ins → s.issuer x.ins = some x → s.unsettled x = false → x.handler = false →
      x.ins.check { s.bounds x with handler := true } ≠ some .illegalOpcode →
      exec i s = .next (s.raise x.gid x.slot { cause := .priv, pc := x.pc, addr := x.pc.setWidth 64, lanes := x.active, info := x.ins.raw, rpl := false }))

/-- ERET completes: the split runs on at TPC with its active lanes, as a replay of TLANES where RPL is set, and the bank is free (R196);
that what loads of the handler would still bring is dropped is the model's choice (log 105, DEDUCED). -/
def Obligations.ReturnFromTrapResumes : Prop :=
  ∀ (f : W64F) (s : State) (x : Iss), Ready s (.eret f) x → (s.part x.core x.part).trapq = [] → (s.group x.gid).pend = [] →
    (s.group x.gid).hparked = 0 → (∀ k, k ≠ x.slot → ((s.group x.gid).slot k).mode ≠ .handler) →
    let g := s.group x.gid
    ∃ t, exec (.eret f) s = .next t ∧ t.mem = s.mem ∧
      (t.group x.gid).slot x.slot = { g.slot x.slot with
        mode := .running, spc := g.sys.tpc.setWidth 56, active := 0, mark := none
        replay := if g.sys.tstat.getLsbD 31 then some (g.sys.tlanes &&& (g.slot x.slot).active &&& (g.slot x.slot).amask) else none } ∧
      (∀ l, l < 32 → (t.group x.gid).lane l = if (g.slot x.slot).amask.getLsbD l then { g.lane l with lpc := g.sys.tpc.setWidth 56 } else g.lane l) ∧
      t.group x.gid = { g with lanes := (t.group x.gid).lanes, slots := (t.group x.gid).slots, loads := g.loads.filter fun l => !l.handler } ∧
      (t.part x.core x.part).owner = none ∧ (t.part x.core x.part).bank = {}

/-- MFSR completes with the word of the system register it names in its uniform register, MTSR writes the bits of the word that may be
written and no other register, TLBINV removes the matching translations once no Tongs operation uses one (R194, R197, R295, R296): those of
the TLBs its reach names and of the outer ones that serve them, which is the model's choice, as is what it waits for (log 109, DEDUCED). -/
def Obligations.SystemRegistersAreReadAndWritten : Prop :=
  ∀ (f : W64F) (s : State) (x : Iss),
    let g := s.group x.gid
    let v := (s.regs x).x x.ins.a 0
    let w := x.ins.opx
    (Ready s (.mfsr f) x → ∃ t, exec (.mfsr f) s = .next t ∧
      Result s t x (toUniform x.ins.d 1 ((g.sys.get x.ins.a >>> (32 * w)) % 2 ^ 32)) noPred 0) ∧
    (Ready s (.mtsr f) x → ∃ t, exec (.mtsr f) s = .next t ∧ Passes s t x ∧
      t.group x.gid = { g with lanes := (t.group x.gid).lanes, slots := (t.group x.gid).slots, sys :=
        if x.ins.d = 0 then { g.sys with tvec := putWord g.sys.tvec w v 0xFFFFFFFFFFFFFE }
        else if x.ins.d = 1 then { g.sys with tpc := putWord g.sys.tpc w v 0xFFFFFFFFFFFFFE }
        else if x.ins.d = 4 then { g.sys with tlanes := v }
        else if x.ins.d = 6 then { g.sys with tstat := putWord g.sys.tstat w v 0x80000000 } else g.sys } ∧
      t.mem = s.mem ∧ (∀ j, j ≠ x.gid → t.group j = s.group j) ∧ ∀ c p, t.part c p = { s.part c p with run := (t.part c p).run }) ∧
    (Ready s (.tlbinv f) x → s.tongsHolds g.ctx (x.ins.m12 / 256 % 4) x.core = false → exec (.tlbinv f) s = .next ((s.tlbDrop (x.ins.m12 / 1024) (s.ctx g.ctx).asid ((s.regs x).xs x.ins.a 2 0)
      (x.ins.m12 / 256 % 4) x.core).advance x))

/-! Tiles, matrix operations, counted arithmetic and the scale table (R207 to R264). -/

/-- With no executing lane a tile or matrix operation goes on and does nothing: no operation, request, load, count, tile, scratchpad, plane or
scale table changes (R209, R231, R250, R263). -/
def Obligations.TileOperationsNeedALane : Prop :=
  ∀ (i : Instr) (s : State) (x : Iss), Ready s i x → x.exec = 0 → 0xD0 ≤ x.ins.op → x.ins.op ≤ 0xDF →
    ∃ t, exec i s = .next t ∧ Kept s t x ∧ t.quads = s.quads ∧ t.ctxs = s.ctxs ∧
      (t.group x.gid).ops = (s.group x.gid).ops ∧ (t.group x.gid).tl = (s.group x.gid).tl ∧ (t.group x.gid).loads = (s.group x.gid).loads ∧
      (t.group x.gid).issued = (s.group x.gid).issued ∧ (t.group x.gid).names = (s.group x.gid).names ∧ t.blocks = s.blocks ∧ t.dies = s.dies

/-- MLD, MST, MMOV and MZERO complete when their descriptor passes TILECHECK and the TL counter has room: one operation is queued behind
those before it, with the addresses, shape and format it captured (R211, R212, R213). That MMOV takes its source's shape and slot as it
issues is the model's choice (log 67, DEDUCED). -/
def Obligations.TileOperationsAreQueued : Prop :=
  ∀ (f : W64F) (s : State) (x : Iss),
    let tile := (s.group x.gid).tile x.ins.d
    let word := s.fmtSlot x.gid tile.slot
    let rb := rowBytes tile.cols (slotFormat word).width
    let base := (s.regs x).saddr x 0
    let p0 := ((s.regs x).x x.ins.c 0).toNat
    let pitch := if p0 = 0 then rb else p0
    let plane := ((s.regs x).x (x.ins.c + 1) 0).toNat
    let b := s.blockOf x
    let sound := tile.shaped = true ∧ slotOk word = true ∧ base % 4 = 0 ∧ pitch % 4 = 0 ∧
      (∀ a ∈ rowAddrs base pitch tile.rows, b.extentAddr a rb = none) ∧ (slotScale word = 2 → b.extentAddr plane (planeBytes tile.rows tile.cols) = none)
    let queued (t : State) (k : Nat) (q : TlOp → Prop) : Prop := Kept s t x ∧ Counts s t x 1 ∧
      ∃ o, (t.group x.gid).tl = (s.group x.gid).tl ++ [o] ∧ o.kind = k ∧ o.tile = x.ins.d ∧ o.n = (s.group x.gid).issuedOf 1 ∧ q o
    s.counterFull x.gid 1 = false → x.exec ≠ 0 →
    (Ready s (.mld f) x → sound → ∃ t, exec (.mld f) s = .next t ∧ queued t 0 fun o =>
      o.base = base ∧ o.pitch = pitch ∧ o.plane = plane ∧ o.rows = tile.rows ∧ o.cols = tile.cols ∧ o.fmt = word) ∧
    (Ready s (.mst f) x → sound → rb ≤ pitch → ∃ t, exec (.mst f) s = .next t ∧ queued t 1 fun o =>
      o.base = base ∧ o.pitch = pitch ∧ o.plane = plane ∧ o.rows = tile.rows ∧ o.cols = tile.cols ∧ o.fmt = word) ∧
    (Ready s (.mmov f) x → ∃ t, exec (.mmov f) s = .next t ∧ queued t 2 fun o =>
      let A := (s.group x.gid).tile x.ins.a
      o.src = x.ins.a ∧ o.rows = A.rows ∧ o.cols = A.cols ∧ o.slot = A.slot ∧ o.shaped = A.shaped) ∧
    (Ready s (.mzero f) x → ∃ t, exec (.mzero f) s = .next t ∧ queued t 3 fun _ => True)

/-- MSHP gives a tile its shape, EMSK sets an edge mask, and SCTADV.amax and SCTADV.off arm and disarm recording: nothing else of the group
changes but where its lanes stand. SCTADV advances the context's scale table and SCTRD enters a load with the maximum of an entry (R210, R232,
R262, R263). -/
def Obligations.ShapesMasksAndScalesAreSet : Prop :=
  ∀ (f : W64F) (s : State) (x : Iss),
    let r := s.regs x
    let g := s.group x.gid
    let v := (r.x x.ins.a 0).toNat
    let word := s.fmtSlot x.gid x.ins.c
    let m : Dword := if x.ins.opx = 0 then BitVec.ofNat 64 (r.xs x.ins.a 2 0) else BitVec.ofNat 64 (2 ^ min v 64 - 1)
    let set (t : State) (h : Group) : Prop := t.group x.gid = { h with lanes := (t.group x.gid).lanes, slots := (t.group x.gid).slots } ∧
      Passes s t x ∧ t.mem = s.mem ∧ t.ctxs = s.ctxs ∧ ∀ j, j ≠ x.gid → t.group j = s.group j
    x.exec ≠ 0 →
    (Ready s (.mshp f) x → slotOk word = true → bitsOf v 31 27 = 0 → bitsOf v 15 9 = 0 → v % 512 ≠ 0 → v % 512 ≤ 256 → bitsOf v 26 16 ≠ 0 →
      bitsOf v 26 16 ≤ 1024 → v % 512 * rowBytes (bitsOf v 26 16) (slotFormat word).width ≤ 8192 →
      ∃ t, exec (.mshp f) s = .next t ∧ set t (g.setTile x.ins.d { g.tile x.ins.d with
        rows := v % 512, cols := bitsOf v 26 16, slot := x.ins.c, shaped := true })) ∧
    (Ready s (.emsk f) x → ∃ t, exec (.emsk f) s = .next t ∧ set t { g with edges := g.edges.set x.ins.d m }) ∧
    (Ready s (.sctadvAmax f) x → ∃ t, exec (.sctadvAmax f) s = .next t ∧ set t { g with amxEn := true, amxIdx := v % 256 }) ∧
    (Ready s (.sctadvOff f) x → ∃ t, exec (.sctadvOff f) s = .next t ∧ set t { g with amxEn := false }) ∧
    (Ready s (.sctadv f) x → s.recordsWait x = false → ∃ t, exec (.sctadv f) s = .next t ∧ Kept s t x ∧
      t.ctx g.ctx = { s.ctx g.ctx with scale := (s.ctx g.ctx).scale.advance (r.x x.ins.a 0) } ∧ ∀ c, c ≠ g.ctx → t.ctx c = s.ctx c) ∧
    (Ready s (.sctrd f) x → s.recordsWait x = false → s.loadCount x < 32 → ∃ t l, exec (.sctrd f) s = .next t ∧ Kept s t x ∧ Loads s t x l ∧
      l.got = 1 ∧ t.ctxs = s.ctxs ∧ (x.ins.d ≠ 288 → l.vals = [(x.ins.d, [BitVec.ofNat 32 ((s.ctx g.ctx).scale.top (v % 256))])]))

/-- MMA, MMAS, MDRN, MDRNA and MACZ complete when their tiles, slots and shapes pass and the table and the counter have room: the
operation is counted and its request stands in the quad's table (R233, R235 to R239, R241). -/
def Obligations.MatrixOperationsEnterTheTable : Prop :=
  ∀ (f : W64F) (s : State) (x : Iss),
    let g := s.group x.gid
    let r := s.regs x
    let X := g.tile x.ins.a
    let Y := g.tile x.ins.b
    let Z := g.tile x.ins.c
    let D := g.tile x.ins.d
    let sa := s.fmtSlot x.gid x.ins.sa
    let sb := s.fmtSlot x.gid x.ins.sb
    let sc := s.fmtSlot x.gid Z.slot
    let sd := s.fmtSlot x.gid D.slot
    let h := opShapes x.ins.ta x.ins.tb X Y
    let k := opShapes false x.ins.tb X Y
    let o := if x.ins.b = 288 then 0 else (r.x x.ins.b 0).toNat
    let v := (r.x x.ins.b 0).toNat
    let done (i : Instr) : Prop := ∃ t, exec i s = .next t ∧ Kept s t x ∧ Counts s t x 2 ∧ Enters s t x
    let two := X.shaped = true ∧ Y.shaped = true ∧ slotOk sa = true ∧ slotOk sb = true ∧ x.ins.sa = X.slot ∧ x.ins.sb = Y.slot ∧ pairOk sa sb = true
    x.exec ≠ 0 → s.mxFull x = false →
    (Ready s (.mma f) x → two → h.2.1 = h.2.2.1 → h.1 ≤ 64 → h.2.2.2 ≤ 64 →
      (slotScale sa = 1 ∨ slotScale sb = 1 → x.ins.operandOk (s.bounds x) kgp x.ins.c = true ∧ s.badAmong x [x.ins.c, x.ins.c + 1] = none) →
      (slotScale sa ≠ 1 → slotScale sb ≠ 1 → x.ins.c = 0) → done (.mma f)) ∧
    (Ready s (.mmas f) x → two → Z.shaped = true → slotOk sc = true → sparseFmt sa = true → slotScale sa = 0 → slotScale sb ≠ 1 →
      slotFormat sc = .int4 → slotScale sc = 0 → k.2.1 % 2 = 0 → k.2.2.1 = 2 * k.2.1 → k.1 ≤ 64 → k.2.2.2 ≤ 64 → Z.rows = k.1 →
      2 * Z.cols = k.2.1 → done (.mmas f)) ∧
    (Ready s (.mdrn f) x → D.shaped = true → slotOk sd = true → slotScale sd ≠ 2 → bitsOf o 31 22 = 0 → bitsOf o 15 6 = 0 →
      o % 64 + D.rows ≤ 64 → bitsOf o 21 16 + D.cols ≤ 64 → done (.mdrn f)) ∧
    (Ready s (.mdrna f) x → bitsOf v 31 19 = 0 → bitsOf v 15 11 = 0 → v % 2 ^ 11 < (s.block g.blk).ngroups →
      (v % 2 ^ 11 = g.index → bitsOf v 18 16 ≠ x.ins.a) → done (.mdrna f)) ∧
    (Ready s (.macz f) x → done (.macz f))

/-- MCNT, MQCH and the two forms of MMRG complete when their operands pass, no plane makes them wait and no depth passes 127: the request
stands in the table, and the records of the planes change at issue (R248, R250, R251, R254 to R257). MCNT owns its plane and adds to its
depths; MQCH leaves DEPTH 0 in its bands; MMRG gives the destination the sums of the depths and the source's fields, and the source depth 0,
and MMRG.peer sets XFER of its source; a plane then without depth and XFER is released. That its counters and FAIL stay until the request that
released it has run (log 135, DEDUCED), and that a merge copies FMT, MODE, TSA and TSB of a source of depth 0 (log 27, DEDUCED), is the model's
choice. -/
def Obligations.CountedOperationsEnterTheTable : Prop :=
  ∀ (f : W64F) (s : State) (x : Iss),
    let g := s.group x.gid
    let X := g.tile x.ins.a
    let Y := g.tile x.ins.b
    let sa := s.fmtSlot x.gid x.ins.sa
    let sb := s.fmtSlot x.gid x.ins.sb
    let h := opShapes x.ins.ta x.ins.tb X Y
    let qd := quadOf x.core
    let p := s.plane qd x.ins.d
    let a := s.plane qd x.ins.a
    let int4 := slotFormat sa == .int4
    let blk := slotScale sa == 2
    let q := x.quarters
    let v := ((s.regs x).x x.ins.b 0).toNat
    let freed (p : Plane) : Plane := if p.xfer = false ∧ p.depth.all (· == 0) = true then
      { p with owner := none, fmt := 0, mode := 0, tsa := false, tsb := false, depth := [0, 0, 0, 0] } else p
    let zeroed (p : Plane) : Plane := { p with depth := p.depth.mapIdx fun k d => if q.contains k then 0 else d }
    let merged (d a : Plane) : Plane := { d with
      owner := some x.gid, fmt := a.fmt, mode := a.mode, tsa := a.tsa, tsb := a.tsb
      depth := d.depth.mapIdx fun k d => if q.contains k then d + a.dep k else d }
    let two (k : Nat) : Prop := (s.quad k).planes.length = 2
    x.exec ≠ 0 → s.mxFull x = false →
    (Ready s (.mcnt f) x → X.shaped = true → Y.shaped = true → slotOk sa = true → slotOk sb = true → x.ins.sa = X.slot → x.ins.sb = Y.slot →
      h.2.1 = h.2.2.1 → h.1 ≤ 64 → h.2.2.2 ≤ 64 → slotFormat sa = slotFormat sb → (slotFormat sa = .e2m1 ∨ slotFormat sa = .int4) →
      (slotScale sa = 2 ↔ slotScale sb = 2) → (slotScale sa = 2 → x.ins.c < g.budC) → (slotScale sa ≠ 2 → x.ins.c = 0) → p.blocks x.gid = false →
      (p.opened = true → p.fmt = int4.toNat ∧ p.mode = blk.toNat ∧ p.tsa = (slotScale sa == 1) ∧ p.tsb = (slotScale sb == 1)) →
      (slotScale sa ≠ 2 → ∀ k ∈ q, p.dep k + h.2.1 ≤ 127) →
      ∃ t, exec (.mcnt f) s = .next t ∧ Kept s t x ∧ Counts s t x 2 ∧ Enters s t x ∧ (x.ins.d < 2 → (s.quad qd).planes.length = 2 →
        t.plane qd x.ins.d = { p with
          owner := some x.gid, fmt := int4.toNat, mode := blk.toNat, tsa := slotScale sa == 1, tsb := slotScale sb == 1
          depth := if blk then p.depth else p.depth.mapIdx fun k d => if q.contains k then d + h.2.1 else d })) ∧
    (Ready s (.mqch f) x → a.owner = some x.gid → (a.tsa = false → a.tsb = false → x.ins.b = 0) →
      (a.tsa = true ∨ a.tsb = true → x.ins.operandOk (s.bounds x) kgp x.ins.b = true ∧ s.badAmong x [x.ins.b, x.ins.b + 1] = none) →
      ∃ t, exec (.mqch f) s = .next t ∧ Kept s t x ∧ Counts s t x 2 ∧ Enters s t x ∧
        (x.ins.a < 2 → two qd → t.plane qd x.ins.a = freed (zeroed a) ∧ ∀ k, k ≠ x.ins.a → t.plane qd k = s.plane qd k)) ∧
    (Ready s (.mmrg f) x → x.ins.a ≠ x.ins.d → p.blocks x.gid = false → a.blocks x.gid = false → mergeFault p a q = none →
      ∃ t, exec (.mmrg f) s = .next t ∧ Kept s t x ∧ Counts s t x 2 ∧ Enters s t x ∧
        (x.ins.a < 2 → x.ins.d < 2 → two qd → t.plane qd x.ins.d = freed (merged p a) ∧ t.plane qd x.ins.a = freed (zeroed a))) ∧
    (∀ sg, Ready s (.mmrgPeer f) x → bitsOf v 31 17 = 0 → bitsOf v 15 11 = 0 → v % 2 ^ 11 < (s.block g.blk).ngroups → v % 2 ^ 11 ≠ g.index →
      s.memberGid g.blk (v % 2 ^ 11) = some sg → (s.quad (quadOf (s.group sg).core)).table.length < 64 → p.blocks x.gid = false →
      (s.plane (quadOf (s.group sg).core) (bitsOf v 16 16)).blocks sg = false →
      mergeFault p (s.plane (quadOf (s.group sg).core) (bitsOf v 16 16)) q = none →
      let sq := quadOf (s.group sg).core
      let sp := bitsOf v 16 16
      let z := s.plane sq sp
      ∃ t, exec (.mmrgPeer f) s = .next t ∧ Kept s t x ∧ Counts s t x 2 ∧ Enters s t x ∧
        (x.ins.d < 2 → two qd → two sq →
          (¬ (qd = sq ∧ x.ins.d = sp) → t.plane qd x.ins.d = freed (merged p z) ∧ t.plane sq sp = { zeroed z with xfer := true }) ∧
          (qd = sq → x.ins.d = sp → t.plane sq sp = { merged p z with xfer := true })))

/-! The engine group (R304 to R323, R363 to R373, R396 to R402). -/

/-- BCPY and BFILL complete when their descriptor passes and counter, queue and loads have room: the operation is queued at the engine of
the issuing core and, unless D is 288, its promise, TIME plus the estimate of R310, is returned to D (R160, R173, R176, R304 to R306). What
a chunk costs where a side does not translate or spans pages is the model's choice (log 12, DEDUCED). -/
def Obligations.CopiesAndFillsAreQueued : Prop :=
  ∀ (i : Instr) (s : State) (x : Iss) (fill : Bool), Ready s i x → x.ins.op = (if fill then 0xE1 else 0xE0) →
    let o := s.descriptor x fill
    let die := dieOf x.core
    let key := tongsKey (engineOf x.core) (s.group x.gid).ctx
    let promise := (s.core x.core).time + s.estimate die (engineOf x.core) (s.group x.gid).ctx o
    s.tongsCheck x o = none → s.counterFull x.gid 0 = false → ((s.die die).tongs.getD key {}).ops.length < 128 →
    (x.ins.d ≠ 288 → s.loadCount x < 32) →
    ∃ t, exec i s = .next t ∧ Kept s t x ∧ Counts s t x 0 ∧
      (∃ id deps, ((t.die die).tongs.getD key {}).ops = ((s.die die).tongs.getD key {}).ops ++
        [{ o with id := id, n := (s.group x.gid).issuedOf 0, deps := deps }]) ∧
      (x.ins.d ≠ 288 → ∃ l, Loads s t x l ∧ l.uni = true ∧ l.got = 1 ∧ l.vals = [(x.ins.d, [BitVec.ofNat 32 promise])])

/-- FRZ and THAW complete when the range is aligned, translates and makes no page's count overflow or fall below 0: each page of this
package takes its FRZ or THAW step in order (R318 to R320). On one page of this package FRZ makes an OPEN page SEALING with count 1, else
counts one more; THAW counts one less, and a SEALED page whose count falls to 0 becomes THAWING (R318). A page that two addresses of a range
name takes its step twice, which is the model's choice (log 107, DEDUCED). -/
def Obligations.FreezesCountTheirPages : Prop :=
  (∀ (i : Instr) (s : State) (x : Iss) (thaw : Bool) (ps : List (Nat × Nat)), Ready s i x → x.ins.op = (if thaw then 0xE3 else 0xE2) →
      let va := (s.regs x).xs x.ins.a 2 0
      let n := ((s.regs x).x x.ins.b 0).toNat
      let here := (ps.filter fun p => p.2 / 2 ^ 25 == s.pkg).map Prod.snd
      va % 2 ^ 17 = 0 → n ≠ 0 → n ≤ 4096 → s.counterFull x.gid 5 = false →
      s.rangePages thaw x.core (s.group x.gid).ctx va n = .ok ps → s.releaseDone { x with exec := BitVec.allOnes 32 } 5 = (true, s) →
      (if thaw then s.thawFault ps else s.frzFault ps) = none →
      ∃ t, exec i s = .next t ∧ t.mem = s.mem ∧ Passes s t x ∧
        t.dies = (here.foldl (fun s p => if thaw then s.thawStep p else s.frzStep p) s).dies ∧
        (t.group x.gid).issuedOf 5 = (s.group x.gid).issuedOf 5 + 1 ∧ (∀ g, g ≠ x.gid → t.group g = s.group g) ∧
        (∀ c l, l < 32 → (t.regs x).x c l = (s.regs x).x c l) ∧ ∀ c l, l < 32 → (t.regs x).pred c l = (s.regs x).pred c l) ∧
  (∀ (s : State) (page : Nat), page / 2 ^ 25 = s.pkg → (homeDie (page * 2 ^ 17)).isSome = true →
      let was := s.dirEnt page
      (was = none → ∃ e, (s.frzStep page).dirEnt page = some e ∧ e.count = 1 ∧ e.state = .sealing) ∧
      (∀ e, was = some e → (s.frzStep page).dirEnt page = some { e with
        count := e.count + 1, cut := if e.count = 0 ∧ e.state = .sealing then e.cut ++ s.thawsOf page else e.cut }) ∧
      (∀ e, was = some e → ∃ e', (s.thawStep page).dirEnt page = some e' ∧ e'.count = e.count - 1 ∧
        e'.state = if e.count ≤ 1 ∧ e.state = .sealed then .thawing else e.state) ∧
      (∀ p, p ≠ page → (s.frzStep page).dirEnt p = s.dirEnt p ∧ (s.thawStep page).dirEnt p = s.dirEnt p))

/-- FRZQ completes for an address that a load could read, once no acquire of its lanes is under way: a load answered at once, with the
directory entry where the page is this package's (R273, R323). What another package answers is left open (log 3). -/
def Obligations.FreezeQueryReturnsItsEntry : Prop :=
  ∀ (f : W64F) (s : State) (x : Iss) (pa : Nat), Ready s (.frzq f) x →
    s.laneAccess x.core (s.group x.gid).ctx (s.group x.gid).step.toNat .read ((s.regs x).xs x.ins.a 2 0) = .ok pa →
    s.depsOf x.gid x.active pa 0 false = [] → s.loadCount x < 32 →
    ∃ t l, exec (.frzq f) s = .next t ∧ Kept s t x ∧ Loads s t x l ∧ l.uni = true ∧ l.got = 1 ∧
      (pkgOf pa = s.pkg → x.ins.d ≠ 288 →
        let v := match s.dirEnt (pageOf pa) with | some e => e.bits | none => 0
        l.vals = [(x.ins.d, [BitVec.ofNat 32 v, BitVec.ofNat 32 (v / 2 ^ 32)])])

/-- PBAR writes the L1 back and makes later writes of its group younger; PFLUSH, STEPCM and STEPAB queue their operation; STEPTAG sets the
group's step tag; SNAPREQ enters its snapshot (R363, R364, R369 to R371, R373). -/
def Obligations.PersistOperationsComplete : Prop :=
  ∀ (f : W64F) (s : State) (x : Iss),
    let g := s.group x.gid
    let r := s.regs x
    let v := (r.x x.ins.a 0).toNat
    let c := s.ctx g.ctx
    let w (k : Nat) : Nat := (r.x (x.ins.a + k) 0).toNat
    let reg := s.region g.ctx (w 0 % 16)
    let die := (homeDie reg.pa0).getD 0
    let queued (t : State) (kind st : Nat) : Prop := Kept s t x ∧ Counts s t x 4 ∧
      ∃ p, (t.ctx g.ctx).psq = c.psq ++ [p] ∧ p.kind = kind ∧ p.gid = x.gid ∧ p.n = g.issuedOf 4 ∧ p.s = st ∧ p.epoch = g.issuedOf 0
    (Ready s (.pbar f) x → exec (.pbar f) s = .next (((s.wbAll (s.l1Of x.core)).modGroup x.gid fun g => { g with epoch := g.epoch + 1 }).advance x)) ∧
    (Ready s (.pflush f) x → s.counterFull x.gid 4 = false → ∃ t, exec (.pflush f) s = .next t ∧ queued t 0 0) ∧
    (Ready s (.stepcm f) x → c.rec_ ≠ 0 → (v = c.stepC ∨ v = c.stepC + 1) → s.counterFull x.gid 4 = false →
      ∃ t, exec (.stepcm f) s = .next t ∧ queued t 1 v) ∧
    (Ready s (.stepab f) x → c.rec_ ≠ 0 → v = c.stepC + 1 → s.counterFull x.gid 4 = false → ∃ t, exec (.stepab f) s = .next t ∧ queued t 2 v) ∧
    (Ready s (.steptag f) x → r.x x.ins.a 0 ≠ BitVec.allOnes 32 → ∃ t, exec (.steptag f) s = .next t ∧ Passes s t x ∧ t.mem = s.mem ∧
      (∀ j, j ≠ x.gid → t.group j = s.group j) ∧
      t.group x.gid = { g with step := r.x x.ins.a 0, lanes := (t.group x.gid).lanes, slots := (t.group x.gid).slots }) ∧
    (Ready s (.snapreq f) x → reg.en = true → w 0 < 16 → (w 2 + 2 ^ 32 * w 3) % 64 = 0 →
      ((s.die die).snaps.any fun n => n.ctx == g.ctx && n.rgn == w 0 % 16) = false → s.counterFull x.gid 4 = false → w 1 = c.stepC →
      ∃ t, exec (.snapreq f) s = .next t ∧ Kept s t x ∧ Counts s t x 4 ∧ ∃ n, (t.die die).snaps = (s.die die).snaps ++ [n] ∧
        n.gid = x.gid ∧ n.n = g.issuedOf 4 ∧ n.ctx = g.ctx ∧ n.rgn = w 0 % 16 ∧ n.step = w 1 ∧ n.dst = w 2 + 2 ^ 32 * w 3 ∧ n.copied = [])

/-- COLL completes when its operands and its communicator record pass: the group's contribution joins the collective of its job, key and
sequence number, which starts if there is none (R396 to R398). A later member joins a collective under way that agrees with it, one
that disagrees, or repeats a member, fails the collective, and one that comes to a collective that has failed is failed itself (R398, R399). The
message that tells the other packages of a contribution is the model's form (log 15, DESIGN CHOICE). -/
def Obligations.CollectivesTakeTheirContributions : Prop :=
  (∀ (f : W64F) (s : State) (x : Iss) (head bs : List Byte) (p0 pas : List Nat) (key : Nat) (table : List (Nat × Nat)),
      let g := s.group x.gid
      let w (k : Nat) : Nat := ((s.regs x).x (x.ins.a + k) 0).toNat
      let comm := w 0 + 2 ^ 32 * w 1
      let src := w 4 + 2 ^ 32 * w 5
      let dst := w 6 + 2 ^ 32 * w 7
      let n := wordAt head 0
      let seq := w 2 / 2 ^ 16
      let new (m : Member) : Coll :=
        { job := (s.ctx g.ctx).pjob, key := key, seq := seq, op := x.ins.m12 / 1024, ty := x.ins.m12 / 512 % 2
          rop := x.ins.m12 / 256 % 2, count := w 3, table := table, members := [m], partials := [], n := table.length }
      Ready s (.coll f) x → w 3 ≠ 0 → w 3 ≤ 2 ^ 26 → comm % 64 = 0 → src % 4 = 0 → dst % 4 = 0 → s.fetchRecord x comm 1 = .bytes p0 head →
      n ≠ 0 → n ≤ 65536 → s.fetchRecord x comm (1 + (4 * n + 63) / 64) = .bytes pas bs → commRecord bs s.pkg (w 2 % 2 ^ 16) = some (key, table) →
      s.counterFull x.gid 3 = false →
      (s.colls.find? fun c => c.job == (s.ctx g.ctx).pjob && c.key == key && c.seq == seq) = none →
      ∃ t m, exec (.coll f) s = .next t ∧ Kept s t x ∧ Counts s t x 3 ∧
        t.colls = s.colls ++ [new m] ∧
        m.idx = w 2 % 2 ^ 16 ∧ m.gid = x.gid ∧ m.n = g.issuedOf 3 ∧ m.src = src ∧ m.dst = dst ∧ m.data = none) ∧
  (∀ (s : State) (c0 c : Coll) (m : Member), (s.colls.find? fun c => c.job == c0.job && c.key == c0.key && c.seq == c0.seq) = some c →
      let same := c.n = c0.n ∧ c.op = c0.op ∧ c.ty = c0.ty ∧ c.rop = c0.rop ∧ c.count = c0.count
      let join (y : Coll) : Coll := if y.job = c.job ∧ y.key = c.key ∧ y.seq = c.seq then
        { c0 with members := y.members ++ [m], partials := y.partials, ready := y.ready, ended := y.ended } else y
      (c.failed = true → s.contribute c0 m = s.finishOp m.ctx m.gid 3 m.n (some { reason := 2, side := 5, addr := 0 })) ∧
      (c.failed = false → same → (∀ y ∈ c.members, y.idx ≠ m.idx) → (∀ y ∈ c.ready, y.1 ≠ m.idx) →
        s.contribute c0 m = ({ s with colls := s.colls.map join } : State).tellColl c0 3 m.idx) ∧
      (c.failed = false → ¬ same ∨ (∃ y ∈ c.members, y.idx = m.idx) ∨ (∃ y ∈ c.ready, y.1 = m.idx) → (∀ y ∈ (s.contribute c0 m).colls, y.job = c.job → y.key = c.key → y.seq = c.seq → y.failed = true ∧ y.members = [])))

/-- SIGADD completes for an aligned address that translates: the addition is under way, after a release; SIGWAIT completes when the word
has reached the value it waits for, with an acquire, and returns it unless D is 288 (R400 to R402). -/
def Obligations.SignalsComplete : Prop :=
  ∀ (f : W64F) (s : State) (x : Iss) (pa v : Nat),
    let r := s.regs x
    let g := s.group x.gid
    let va := r.xs x.ins.a 2 0
    (Ready s (.sigadd f) x → va % 8 = 0 → s.laneAccess x.core g.ctx g.step.toNat .atomic va = .ok pa → s.counterFull x.gid 3 = false →
      ∃ t a, exec (.sigadd f) s = .next t ∧ Kept s t x ∧ Counts s t x 3 ∧ t.sigs = s.sigs ++ [a] ∧ a.gid = x.gid ∧ a.n = g.issuedOf 3 ∧
        a.pa = pa ∧ a.val = r.xs x.ins.b 2 0 ∧ a.step = g.step.toNat ∧ a.sent = false) ∧
    (Ready s (.sigwait f) x → (x.ins.d ≠ 288 → s.loadCount x < 32) → s.sigTest x = .value v → ∃ t, exec (.sigwait f) s = .next t ∧ Kept s t x ∧
      (x.ins.d ≠ 288 → ∃ l, Loads s t x l ∧ l.uni = true ∧ l.got = 1 ∧ l.vals = [(x.ins.d, [BitVec.ofNat 32 v, BitVec.ofNat 32 (v / 2 ^ 32)])]))

/-! The events (R84 to R88, R98, R153 to R169, R187, R188, R193, R206, R213 to R220, R236 to R257, R267 to R302, R312 to R326, R333 to R375, R380 to R412). -/

/-- The events of a core complete where the rules let them come about: runs are chosen and end, splits rotate, wake and have their loads
and traps, clocks stop and start, claims, deadlocks, orphans and barriers are served, and an exited group retires. The model's choices in it:
where a domain's level stands once a raise has settled (log 26), the order in which accesses of other cores arrive (log 31), what a join whose
age has run out leaves (log 61), when clocks stop and start (log 91), and which free slot binds first (log 94). -/
def Obligations.CoreEventsComplete : Prop :=
  ∀ (s : State) (core part gid slot n : Nat) (line : CodeAddr),
    let cyc := (s.core (s.group gid).core).cyc
    let g := s.group gid
    let b := s.block n
    (∀ r, s.selection core part = some (gid, slot) → r = { gid := gid, slot := slot, next := (s.core core).cyc, passc := s.passOf (quadOf core) } →
      ∃ t, exec (.runSelect core part) s = .next t ∧ t.part core part = { s.part core part with run := some r } ∧
        t.group gid = g.modSlot slot fun x => { x with readyAt := none, youngest := false }) ∧
    (∀ r, (s.part core part).run = some r → s.atBoundary core part = true → exec (.runBoundary core part) s = .next (s.endOfRun core part r)) ∧
    (∀ j, j ∈ g.joins → 4096 ≤ j.age cyc →
      exec (.joinTimeout gid j.id) s = .next (((s.modGroup gid fun g => g.timeoutJoin j.id cyc (s.busySlot gid)).purgeClaims g.blk).testGroup gid)) ∧
    (s.rotates gid slot false = true → exec (.runRotation gid slot) s = .next (s.rotate gid slot)) ∧
    (s.rotates gid slot true = true → exec (.stallRotation gid slot) s = .next (s.rotate gid slot)) ∧
    ((s.lacks core n (line.toNat / 64) = true ∨ s.preloads core n (line.toNat / 64) = true) → s.asked core n (line.toNat / 64) = false →
      (∀ pa ∈ s.codePa core n (line.toNat / 64), s.sweeping pa = false) →
      exec (.instructionFetchFill core n line) s = .next (s.fetchLine core n (line.toNat / 64))) ∧
    (∀ a, (s.accs.find? fun a => a.id == n && a.done) = some a → ∃ t, exec (.loadReturn n) s = .next t ∧
      t.accs = (s.accs.filter fun x => x.id != n) ∧ t.mem = s.mem) ∧
    (∀ w, s.fetchAt gid slot = .words w → s.commits gid slot = true → exec (.settleCommit gid slot) s = .next (s.commitAt gid slot w)) ∧
    (s.entryDue core part = true → exec (.trapEntry core part) s = .next (s.enterPending core part)) ∧
    (s.wakes gid slot = true → ∃ t, exec (.sleeptWake gid slot) s = .next t ∧ t.group gid = g.modSlot slot fun x =>
      { x with asleep := false, stallAt := none, nstall := 0, readyAt := some (s.core g.core).readyFrom }) ∧
    ((s.core core).running = true → (s.residents core = [] ∨ (s.allAsleep core = true ∧ (s.core core).nothingHeld = true)) →
      exec (.clockStop core) s = .next (((s.feCycle core).modCore core fun c => { c with
        running := false, held := [], taken := [], phase := 0 }).sample core)) ∧
    (s.on = true → (s.core core).running = false → (s.quad (quadOf core)).gate = .on → 0 < n → (s.passTime core (n - 1)).wakeCondition core = true →
      (n = 1 ∨ (s.passTime core (n - 2)).anyTimeUp core = false) →
      exec (.clockRestart core n) s = .next (((s.passTime core n).modCore core fun c => { c with
        running := true, level := (s.passTime core n).levelOf core, began := s.fresh + 1, phase := 0, lastSrc := 0, lastThief := 0 }).testCore core)) ∧
    (∀ l, s.power.raising.getD n none = some l → exec (.levelRaiseSettled n) s = .next { s with power := { s.power with
      domLevel := s.power.domLevel.set n (min l (s.granted n)), raising := s.power.raising.set n none } }) ∧
    (∀ c cs, b.claims = c :: cs → c.n ≤ b.pool → exec (.regclmClaimServed n) s =
      .next (((s.setBlock n { b with pool := b.pool - c.n, claims := cs }).modGroup c.gid fun g =>
        ({ g with cap := g.cap + c.n } : Group).modSlot c.slot fun x => { x with claim := .served }).testReady c.gid c.slot)) ∧
    (s.poolDead n = true → s.blockAtEnd n = true → exec (.regpoolDeadlock n) s = .next (s.breakPool n)) ∧
    (s.orphaned n = true → s.blockAtEnd n = true → exec (.emptyOrphan n) s = .next
      ((sortBy (fun x => 4 * x.1 + x.2) (s.orphans n)).foldl (fun s x => s.orphanTrap x.1 x.2) s)) ∧
    (∀ lvl id unit, 1 ≤ lvl → lvl ≤ 3 → s.barDone n lvl id unit = true → (∃ p ∈ s.participants n lvl unit, s.atEnd (s.group p).core = true) →
      exec (.barrierComplete n lvl id unit) s = .next ((s.participants n lvl unit).foldl (fun s gid => s.releaseGroup gid lvl ((s.group gid).waiting lvl id)) s)) ∧
    (∀ lvl id unit, 4 ≤ lvl → s.barFull lvl n id = true → exec (.barrierComplete n lvl id unit) s = .next (s.barFinish lvl n id)) ∧
    (s.retires gid = true → exec (.groupRetire gid) s = .next (s.retire gid)) ∧
    (∀ m ms, s.spads = m :: ms → m.deps = [] →
      let tgt := s.spadTarget m
      let s0 := (({ s with spads := s.spads.filter fun x => x.id != m.id } : State).spadPerform m m.src).dropExited m.gid m.load
      let s1 := if m.kind = 4 then s0.feArrive m else s0
      let s2 := if tgt = m.src then s1 else s1.arrived tgt m.src
      (tgt = m.src ∨ s.mayArrive tgt m.src (s.core tgt).lastSrc = true) →
      exec (.remoteScratchpadAccess m.id) s = .next (if (s.core tgt).running = true then s2 else s2.feCycle tgt)) ∧
    (∀ m ms, s.steals = m :: ms → s.mayArrive m.tgt m.src (s.core m.tgt).lastThief = true → ∃ t, exec (.dqstealArrival m.id) s = .next t ∧ t.mem = s.mem ∧
      t.steals = (s.steals.filter fun x => x.id != m.id) ∧
      ((s.core m.tgt).ctx = some m.ctx → (t.core m.tgt).deque = (s.core m.tgt).deque.tail)) ∧
    ∀ m, (s.sigWaits gid slot = true → exec (.sigwaitRetest gid slot) s = .next (s.testReady gid slot)) ∧
      ((s.sigs.find? fun x => x.id == n) = some m → ∀ t, s.sigApply m = some t → exec (.sigaddApplied n) s = .next t) ∧
      ∀ cells, (s.sigs.find? fun x => x.id == n) = some m → m.sent = false → (∀ d ∈ m.deps, s.pendingId d = false) → pkgOf m.pa = s.pkg →
        (inScm m.pa = true → s.olderWrite m.gid m.epoch m.id = false ∧ s.wbqRoom m.pa = true) → s.sweeping m.pa = false →
        s.anyBad (s.readPas m.pa m.step ++ s.writePas m.pa 8 m.step) = false →
        s.writeCells m.pa m.step (bytesOf 8 ((ofBytes (s.homeRead m.pa 8 m.step) + m.val) % 2 ^ 64)) = some cells →
        exec (.sigaddApplied n) s = .next ((({ s with sigs := s.sigs.filter fun x => x.id != m.id } : State).homeCells cells).finishOp
          m.ctx m.gid 3 m.n none)

/-- The events of a quad and of the engines complete: tile operations run, holds end, requests age, the array and the accumulator port
perform what they grant, results and messages arrive, operations are reported; a Tongs queue performs a chunk, a collective its next part. The
model's choices in it: the message by which a package says that its writes are performed (log 15), that operations fused into one request are
reported together (log 28), what becomes of an MDRNA whose target is gone (log 68), when a TL operation acts at a core's banks (log 113), and
which of several operations of a Tongs queue goes on (log 123), and what an armed MST records of lost words (log 131). -/
def Obligations.EngineEventsComplete : Prop :=
  ∀ (s t : State) (qd n gid : Nat) (e : Req),
    let table := (s.quad qd).table
    let aged (f : Req → Req) : List Req := table.map fun x => if x.id = e.id then f x else x
    (s.tlReady gid = true → (s.tlCores gid).all (s.tlMay (s.group gid).core) = true → exec (.tlOperation gid) s =
      .next ((s.tlCores gid).foldl (fun t c => if c = (s.group gid).core then t.shutCore c else t.arrived c (s.group gid).core) (s.runTl gid))) ∧
    (e ∈ table → e.held = true → ∃ t, exec (.fusionHoldEnd qd e.id) s = .next t ∧
      t.quad qd = { s.quad qd with table := aged fun x => { x with held := false } } ∧ t.groups = s.groups) ∧
    (e ∈ table → e.since.isSome = true → e.aged = false → s.eligible e = true → ∃ t, exec (.priorityAging qd e.id) s = .next t ∧
      t.quad qd = { s.quad qd with table := aged fun x => { x with aged := true } } ∧ t.groups = s.groups) ∧
    (s.granting qd true = some e → exec (.anvilPass qd) s = .next (s.runArray qd e)) ∧
    (s.granting qd true = some e → e.op ≠ 0xD8 → ∃ t, exec (.anvilPass qd) s = .next t ∧ t.groups = s.groups ∧
      let r := (s.group e.gid).runPass e
      (t.quad qd).table = aged fun x => { x with granted := true, data := r.1, flags := r.2.1, failed := r.2.2 }) ∧
    ((table.find? fun e => e.id == n && e.inArray && e.granted && s.working e) = some e → exec (.passResult qd n) s = .next (s.passDone e)) ∧
    (s.granting qd false = some e → exec (.accumulatorPortGrant qd) s = .next (s.runPort qd e)) ∧
    ((s.drains.find? fun e => e.id == n) = some e → s.acceptMdrna e = some t → exec (.mdrnaArrival n) s = .next t) ∧
    ((s.drains.find? fun e => e.id == n) = some e →
      let slot := bitsOf e.word.toNat 18 16
      let named := s.memberGid (s.group e.gid).blk (e.word.toNat % 2 ^ 11)
      ((∀ h, named = some h → (s.group h).budC ≤ slot) → exec (.mdrnaArrival n) s =
        .next (({ s with drains := s.drains.filter fun x => x.id != e.id } : State).endReq e (some { reason := 0x02, side := 5, addr := 0 }) 0)) ∧
      ∀ h, named = some h → slot < (s.group h).budC → (s.quad (quadOf (s.group h).core)).table.length < 64 →
        ∃ t x, exec (.mdrnaArrival n) s = .next t ∧ t.groups = s.groups ∧ t.mem = s.mem ∧
          t.drains = (s.drains.filter fun y => y.id != e.id) ∧
          (t.quad (quadOf (s.group h).core)).table = (s.quad (quadOf (s.group h).core)).table ++ [x] ∧
          x.op = 0x100 ∧ x.gid = h ∧ x.d = slot ∧ x.data = e.data ∧ x.peer = e.gid ∧ x.n = e.n) ∧
    ((table.find? fun e => e.id == n && e.op == 0x101 && s.eligible e) = some e → exec (.peerMergeTransfer qd n) s = .next (s.transfer qd e)) ∧
    (∀ o, (s.group gid).oldest 2 = some o → (∀ x ∈ (s.group gid).mxBatch o, x.work = true) →
      exec (.mxComplete gid) s = .next (s.reportMx gid ((s.group gid).mxBatch o))) ∧
    (∀ engine ctx o, s.tongsReady qd (tongsKey engine ctx) = [o] → s.tongsStep qd engine ctx o = some t →
      exec (.tongsChunk qd engine ctx) s = .next t) ∧
    (∀ engine ctx o, s.tongsReady qd (tongsKey engine ctx) = [o] → o.ended = true →
      exec (.tongsChunk qd engine ctx) s = .next (s.endTongs qd (tongsKey engine ctx) o.id none)) ∧
    (∀ engine ctx, let os := s.tongsReady qd (tongsKey engine ctx)
      2 ≤ os.length → (∃ o ∈ os, (s.draw.2.tongsStep qd engine ctx o).isSome = true) →
      ∃ o ∈ os, ∃ t, s.draw.2.tongsStep qd engine ctx o = some t ∧ exec (.tongsChunk qd engine ctx) s = .next t) ∧
    (∀ job key seq c, s.collOf job key seq = some c → s.collStep c = some t → exec (.collectiveComplete job key seq) s = .next t) ∧
    ∀ job key seq c, s.collOf job key seq = some c → c.allHere s.pkg = true → c.allReady s.pkg = true → c.allThere s.pkg = true →
      (∀ m ∈ c.members, m.data.isSome = true ∧ m.paused = false ∧ m.deps = [] ∧
        (linePieces m.dst (c.receives s.pkg m.idx).length).length ≤ m.wrote) →
      (∀ p ∈ c.others s.pkg, s.reachable p = true) →
      ((∀ p ∈ c.others s.pkg, p ∈ c.ended ∧ s.pkg ∈ c.ended) → exec (.collectiveComplete job key seq) s = .next (s.collEnd c)) ∧
      (c.others s.pkg ≠ [] → s.pkg ∉ c.ended → exec (.collectiveComplete job key seq) s =
        .next ((s.modColl c fun x => { x with ended := x.ended ++ [s.pkg] }).tellColl c 2 0))

/-- The events of memory, of translation and of faults complete: walks fill the TLBs, accesses are performed at home, lines leave L1 and
near buffer, reductions arrive, records are written and answered, and errors strike and are scrubbed. The model's choices in it: which entry of
a full TLB a new one replaces (log 18), how long an error is remembered (log 19), where a contribution waits (log 24) and which TLBs a command
reaches (log 109), where SEQ goes on when a context number is used again (log 133), and what an answer does to a clamped queue (log 134). -/
def Obligations.MemoryEventsComplete : Prop :=
  ∀ (s t : State) (core ctx n gid slot : Nat) (v : Dword),
    let c := s.ctx ctx
    let line := bitsOf v.toNat 53 6
    (s.on = true → core < 512 → c.valid = true → s.tlbMiss core ctx v.toNat = true → ∃ t, exec (.pageWalk core ctx v) s = .next t ∧ t.mem = s.mem ∧
      t.groups = s.groups ∧ ∀ e, s.walk ctx v.toNat = .ok e →
        (v.toNat < 2 ^ 56 → (e.rd = true ∨ e.w = true ∨ e.x = true) → (t.core core).utlb = (e :: (s.core core).utlb).take 48 ∧
          (t.quad (quadOf core)).qtlb = (e :: (s.quad (quadOf core)).qtlb).take 1024 ∧
          (t.die (dieOf core)).dtlb = (e :: (s.die (dieOf core)).dtlb).take 16384) ∧
        (2 ^ 56 ≤ v.toNat ∨ (e.rd = false ∧ e.w = false ∧ e.x = false) → t = s)) ∧
    (∀ a, (s.accs.find? fun a => a.id == n && !a.waiting) = some a → s.performNow a = some t → exec (.homeAccess n) s = .next t) ∧
    (∀ a, (s.accs.find? fun a => a.id == n && !a.waiting) = some a → s.performNow a = none → s.heldAtHome a = true →
      exec (.homeAccess n) s = .next { s with accs := s.accs.map fun x => if x.id = n then { x with waiting := true } else x }) ∧
    (((s.core core).l1.get? n).isSome = true → ∃ t, exec (.l1Eviction core n) s = .next t ∧ t.l1Line core n = {} ∧
      ((s.l1Line core n).bad = 0 → t.mem = s.mem ∧ t.groups = s.groups)) ∧
    (((s.die core).near.get? n).isSome = true → exec (.nearBufferEviction core n) s =
      .next (s.setDie core { s.die core with near := (s.die core).near.erase n })) ∧
    (∀ m, (s.redos.find? fun m => m.id == n) = some m → s.redoArrive m = some t → exec (.redoArrival n) s = .next t) ∧
    (∀ m d, (s.redos.find? fun m => m.id == n) = some m → m.sent = false → (∀ k ∈ m.deps, s.pendingId k = false) →
      pkgOf m.pa = s.pkg → homeDie m.pa = some d → s.coded m.pa = false →
      let l1 := s.l1Of m.core
      let s1 := s.dropLine l1 m.pa
      let r := (s.die d).redo.getD m.rslot { ctx := m.ctx, addr := m.pa, aop := m.aop, aty := m.aty, n := m.n, vals := [], sco := 0 }
      let r1 : RedoSlot := { r with vals := r.vals.set m.idx m.val, sco := max r.sco m.sco }
      let agrees : Prop := r.ctx = m.ctx ∧ r.addr = m.pa ∧ r.aop = m.aop ∧ r.aty = m.aty ∧ r.n = m.n ∧ r.vals.get? m.idx = none
      ((s.l1Line l1 (lineOf m.pa)).dirty ≠ 0 → exec (.redoArrival n) s = .next (s.wbLine l1 (lineOf m.pa))) ∧
      ((s.l1Line l1 (lineOf m.pa)).dirty = 0 → s.wbs l1 (lineOf m.pa) = [] →
        (¬ agrees → exec (.redoArrival n) s = .next (s1.redoAnswer m .refused)) ∧
        (agrees → r1.vals.length < m.n → exec (.redoArrival n) s =
          .next ((s1.modDie d fun x => { x with redo := x.redo.set m.rslot r1 }).redoAnswer m .taken)) ∧
        (∀ u, agrees → m.n ≤ r1.vals.length → s1.redoApply r1 = some u → exec (.redoArrival n) s =
          .next ((u.modDie d fun x => { x with redo := x.redo.erase m.rslot }).redoAnswer m .taken)))) ∧
    (∀ m, (s.redos.find? fun m => m.id == n) = some m → m.sent = false → (∀ k ∈ m.deps, s.pendingId k = false) →
      let l1 := s.l1Of m.core
      (s.l1Line l1 (lineOf m.pa)).dirty = 0 → s.wbs l1 (lineOf m.pa) = [] →
        (pkgOf m.pa = s.pkg → s.coded m.pa = true → exec (.redoArrival n) s = .next ((s.dropLine l1 m.pa).redoAnswer m (.lost .pageProtection))) ∧
        (pkgOf m.pa ≠ s.pkg → s.reachable (pkgOf m.pa) = false → exec (.redoArrival n) s =
          .next ((s.dropLine l1 m.pa).redoAnswer m (.lost .dataError)))) ∧
    (∀ r rs, c.waiting = r :: rs → c.frqFull = false →
      exec (.faultRecordWrite ctx) s = .next ((s.setCtx ctx { c with waiting := rs }).putRecord ctx r)) ∧
    (s.on = true → n < 4 → exec (.fresp n v) s = .next (s.answer v)) ∧
    (s.answered gid slot = true → exec (.firmwareResume gid slot) s = .next (s.firmwareDone gid slot)) ∧
    (s.on = true → n < 4 → pkgOf (line * 64) = s.pkg → homeDie (line * 64) = some n → s.wbqRoom (line * 64) = true →
      ∃ t, exec (.scrub n v) s = .next t ∧ t.mem = (List.range 64).foldl (fun m k => Mem.write m (64 * line + k) 0) s.mem ∧
        (t.die n).errset = (s.die n).errset.filter (· != line)) ∧
    (s.on = true → n < 4 → (pkgOf (line * 64) ≠ s.pkg ∨ homeDie (line * 64) ≠ some n) → exec (.scrub n v) s = .next s) ∧
    (∀ kind reach, s.on = true → n < 4 → kind < 2 → reach < 4 →
      exec (.dieTlbinvCommand n ctx kind reach v) s = .next (s.tlbDrop kind c.asid v.toNat reach (128 * n))) ∧
    ∀ e, s.on = true → s.hasPlace e.place = true → exec (.softError e) s = .next (s.strike e)

/-- The events of the write-back queues, of steps and of freezing complete: writes enter the queue and the queue drains, flushes, commits,
aborts and snapshots go on, regions are enabled and swept, and pages are sealed and gathered die by die. The model's choices in it: an abort goes
line by line (log 35), the enable sweep is one step (log 36), and what other packages and their homes do with notices (logs 56 and 57); that a FRZ
is finished as sealing ends is log 121. -/
def Obligations.PersistAndFreezeEventsComplete : Prop :=
  ∀ (s t : State) (ctx n r page die : Nat) (v : Dword),
    let c := s.ctx ctx
    let reg := s.region ctx r
    let off : Region := { reg with ctl := v &&& 0x7FFFFF }
    let masked := v &&& 0x003FFFFFFFFFFFC0
    (∀ a, (s.accs.find? fun a => a.id == n && a.waiting) = some a → s.performNow a = some t → exec (.wbqEntry n) s = .next t) ∧
    (∀ e es, (s.die die).wbq = e :: es → exec (.wbqDrain die) s = .next (s.setDie die { s.die die with
      wbq := es, scm := e.foldl (fun m c => Mem.write m c.1 c.2) (s.die die).scm })) ∧
    (∀ p, s.psOp n = some (ctx, p) → p.kind = 0 → s.psReady p = true → exec (.pflushComplete n) s = .next (s.endPs ctx p)) ∧
    (∀ p, c.stepHead = some p → p.kind = 1 → s.psReady p = true → p.s ≤ c.stepC → exec (.stepcmOperation ctx) s = .next (s.endPs ctx p)) ∧
    (∀ p s1, c.stepHead = some p → p.kind = 1 → s.psReady p = true → c.stepC < p.s → s.writeRec ctx p.s = some s1 →
      exec (.stepcmOperation ctx) s = .next ((s1.setStep ctx p.s).endPs ctx p)) ∧
    (∀ p, c.stepHead = some p → s.abortStep ctx p = some t → exec (.stepabOperation ctx) s = .next t) ∧
    (∀ p, c.stepHead = some p → p.kind = 2 → s.psReady p = true → (p.s ≤ c.stepC ∨ s.sweepAt ctx p.stage = none) →
      exec (.stepabOperation ctx) s = .next (s.endPs ctx p)) ∧
    (∀ x, ((s.die die).snaps.find? fun n => !n.paused && !n.deps.any s.pendingId) = some x → s.snapStep die x = some t →
      exec (.snapshotLine die) s = .next t) ∧
    (∀ x, ((s.die die).snaps.find? fun n => !n.paused && !n.deps.any s.pendingId) = some x →
      (s.snapLine x = none → exec (.snapshotLine die) s = .next (s.endSnap die x none)) ∧
      ∀ l pa, s.snapLine x = some l →
        let tags := s.tags x.ctx x.rgn l
        let src := s.versionPa x.ctx x.rgn l (pickVersion tags.1 tags.2 x.step)
        let x1 : Snap := { x with copied := x.copied ++ [l], deps := [] }
        let s1 := s.homeBytes pa (s.bytes src 64)
        s.sweeping (s.versionPa x.ctx x.rgn l false) = false → s.anyBad [(s.region x.ctx x.rgn).tags + 8 * l, src] = false →
        s.snapDest die x (x.dst + 64 * l) = .ok pa → pkgOf pa = s.pkg → (s.erasure.en = true → s.erasure.inData pa = false) → s.wbqRoom pa = true →
        exec (.snapshotLine die) s = .next (if s1.snapLine x1 = none then s1.endSnap die x none else s1.modSnap die x.id fun _ => x1)) ∧
    (s.on = true → ctx < 64 → exec (.steprecWrite ctx v) s = .next (if (c.regions.any (·.en)) = true then s else
      if masked = 0 then s.setCtx ctx { c with stepRec := masked }
      else (s.setCtx ctx { c with stepRec := masked }).setStep ctx (s.word (s.pkg * 2 ^ 42 + masked.toNat % 2 ^ 42) 4))) ∧
    (s.on = true → ctx < 64 → r < 16 → v.getLsbD 31 = true → exec (.regionEnable ctx r v) s = .next (if reg.en = true then s else
      s.setRegion ctx r (if s.regionBad ctx off = true then off else { off with ctl := off.ctl ||| 0xC0000000 }))) ∧
    (reg.en = true → reg.ctl.getLsbD 30 = true → (s.die ((homeDie reg.tags).getD 0)).wbq = [] → ∃ t, exec (.enableSweepEnd ctx r) s = .next t ∧
      t.region ctx r = (if r < c.regions.length then { reg with ctl := reg.ctl &&& ~~~(0x40000000 : Dword) } else reg) ∧
      t.mem = (s.sweepCells ctx r fun k => decide (k > c.stepC)).foldl (fun m c => Mem.write m c.1 c.2) s.mem) ∧
    (die < 4 → s.tellDie die page = some t → exec (.freezeNotice die page) s = .next t) ∧
    (∀ e, die < 4 → s.dirEnt page = some e → e.state = .sealing → die ∈ e.await → die ∉ e.told →
      exec (.freezeNotice die page) s = .next ((s.addFilter die page).setDir page (some { e with told := e.told ++ [die] }))) ∧
    (∀ m, die < 4 → s.dirEnt page = none → s.noticeOf page false = some m → die ∈ m.todo → exec (.freezeNotice die page) s =
      .next ((s.addFilter die page).setNotice { m with todo := m.todo.filter (· != die), wait := m.wait ++ [die] })) ∧
    (die < 4 → s.ackDie die page = some t → exec (.freezeAck die page) s = .next t) ∧
    (∀ e, die < 4 → s.quiet die page = true → s.dirEnt page = some e → e.state = .sealing → die ∈ e.await → die ∈ e.told →
      exec (.freezeAck die page) s = .next (s.setDir page (some { e with await := e.await.filter (· != die) }))) ∧
    (∀ m, die < 4 → s.quiet die page = true → s.dirEnt page = none → s.noticeOf page false = some m → die ∈ m.wait →
      exec (.freezeAck die page) s = .next (s.setNotice { m with wait := m.wait.filter (· != die) })) ∧
    (∀ e, page / 2 ^ 25 = s.pkg → s.dirEnt page = some e → e.state = .sealing → e.await = [] → s.heldWrites page = false →
      exec (.sealingEnd page) s = .next (if e.count = 0 then (s.startGather page { e with cut := [] }).pageDone page false e.cut
        else (s.setDir page (some { e with state := .sealed, told := [], cut := [] })).pageDone page true [])) ∧
    (page / 2 ^ 25 ≠ s.pkg → s.pageAwaited page false = true → s.reachable (page / 2 ^ 25) = true →
      exec (.sealingEnd page) s = .next (s.pageDone page false [])) ∧
    (die < 4 → s.gatherDie die page = some t → exec (.gather die page) s = .next t) ∧
    (∀ e, die < 4 → s.dirEnt page = some e → e.state = .thawing → die ∈ e.await → exec (.gather die page) s =
      .next ((s.dropFrozen die page).setDir page (some { e with await := e.await.filter (· != die) }))) ∧
    (∀ m, die < 4 → s.dirEnt page = none → s.noticeOf page true = some m → die ∈ m.todo → exec (.gather die page) s =
      .next ((s.dropFrozen die page).setNotice { m with todo := m.todo.filter (· != die) })) ∧
    (∀ e, page / 2 ^ 25 = s.pkg → s.dirEnt page = some e → e.state = .thawing → e.await = [] →
      exec (.gatherEnd page) s = .next (((if e.count = 0 then s.dropFilter page else s).setDir page (if e.count = 0 then none
        else some { e with state := .sealed, hdie := [], pkf := 0, told := [] })).pageDone page true [])) ∧
    (page / 2 ^ 25 ≠ s.pkg → s.pageAwaited page true = true → s.reachable (page / 2 ^ 25) = true →
      exec (.gatherEnd page) s = .next (s.pageDone page true []))

/-- The events of launch, contexts, host and power complete: queues are filled and records start, grids place their blocks and complete,
quads are gated and wake, contexts switch, clamp and end, registers are written, and power fails, is limited and comes up. A SWIN of one saved
block with one group seats it where the Hearth chooses, with its planes and its handler bank as they were saved (R350). The save area, the
measurement registers, the records and the predecessors that cannot be read, the write-backs of a mode change, a gating or a switch-out in
one step, commands that do not fit STATE, what a SWIN waits for, what an I3C reset and a power failure keep, host writes within one line, and
what the Hearth and a hand-over read are the model's choices (logs 8, 21, 22, 38, 40, 41, 42, 45, 53, 54, 78). -/
def Obligations.PackageEventsComplete : Prop :=
  ∀ (s t : State) (q n ctx grid off : Nat) (host : Bool) (v : Dword),
    let lq := s.lq q
    let c := s.ctx ctx
    let pi := v.toNat % 2 ^ 32
    let h := s.hand
    let p := s.power
    (s.hostUp = true → q < 64 → ∃ t, exec (.lqprodWrite q v) s = .next t ∧
      (s.power.stage ≥ 7 → s.linkClamped = false → t = if lq.src = true ∨ (pi + 2 ^ 32 - lq.ci) % 2 ^ 32 > lq.size then s.clampLink else s.setLq q { lq with pi := pi }) ∧
      (s.power.stage < 7 ∨ s.linkClamped = true → t = s)) ∧
    (s.mayStart q = true → exec (.recordStart q) s = .next (s.tryRecord q)) ∧
    (s.mayStart q = true → s.recordBad lq.ctx (s.recordAt q) = none → n ∈ lq.unsat (s.recordAt q) →
      let va := ((s.recordAt q).getD (12 + 2 * n) 0).toNat
      exec (.predecessorRead q n) s = .next (match s.readPred lq.ctx (s.recordAt q) n with
        | .error e => (match useLeaf .read va (s.walk lq.ctx va) with
          | .ok pa => s.foundAll lq.ctx (s.readPas pa 0)
          | .error _ => s).haltQueue q e.code (0x60 + 16 * n) va
        | .ok b => if b then s.setLq q { lq with sat := lq.sat ++ [n] } else s)) ∧
    (∀ x, s.grids.get? grid = some x → s.gridDone grid x = true →
      (x.words.getD 20 0 = 0 → exec (.gridComplete grid) s = .next { s with grids := s.grids.erase grid }) ∧
      (x.words.getD 20 0 ≠ 0 → ({ s with grids := s.grids.erase grid } : State).complete x.ctx (x.words.getD 20 0).toNat = some t →
        exec (.gridComplete grid) s = .next t)) ∧
    (∀ at_, s.placeBlock grid at_ = some t → exec (.blockPlacement grid at_) s = .next t) ∧
    (∀ x cap at_ k ks,
      let qd := quadOf at_.core
      let need := x.need [cap]
      let (nx, ny, nz) := recGrid x.words
      let gid := 96 * at_.core + 8 * at_.part + k
      let b : Block :=
        { ctx := x.ctx, grid := grid, coords := (x.next % nx, x.next / nx % ny, x.next / (nx * ny)), extent := (nx, ny, nz), span := need.span
          cores := need.ranks [at_], groups := [gid], ngroups := 1, isLocal := need.isLocal, spad := need.spad
          fmts := (List.range 8).map (recSlot x.words), itt := x.kernel.itt }
      let s1 := ((s.takeCore at_.core x.ctx).setGroup gid
        { s.newGroup grid s.nextBlock x 0 cap with core := at_.core, part := at_.part, pos := k }).setBlock s.nextBlock b
      s.on = true → s.grids.get? grid = some x → s.offers x = true → s.dispatched grid = false → s.mayPass (s.passedOver grid x) = true →
      x.caps = [cap] → at_.core < 512 → at_.part < 12 → (s.quad qd).gate = .on → (s.quad qd).fused = resFuse x.res →
      (∀ c ∈ need.ranks [at_], need.spad ≤ s.freeSpad c) → s.bestPart at_.core = some at_.part → cap ≤ s.unreserved at_.core at_.part →
      s.freePositions at_.core at_.part = k :: ks → resM x.res ≤ s.freeTiles at_.core → resC x.res ≤ s.freeAccs qd → s.coreFor at_.core x.ctx = true →
      exec (.blockPlacement grid [at_]) s = .next ((({ s1 with
        nextBlock := s.nextBlock + 1, grids := s1.grids.set grid { x with next := x.next + 1, live := x.live + 1, passed := 0 } } : State).settled
          x.ctx s.nextBlock x.entry [at_]).countPass (s.passedOver grid x))) ∧
    (s.on = true → q < 128 → (s.quad q).gate = .on → (s.quad q).thresh ≠ 0 → s.quadIdle q = true → (s.quad q).dispatch = none →
      (s.gate q = some t → exec (.gateRequest q) s = .next t) ∧
      (s.cleanL1s (quadL1s q) = true → exec (.gateRequest q) s = .next (s.powerOff q))) ∧
    (s.on = true → (s.quad q).gate = .waking → exec (.quadWake q) s = .next (s.wakeQuad q)) ∧
    (s.on = true → ctx < 64 → n < 4 → exec (.ktvalWrite ctx n v) s =
      .next ((List.range 64).foldl (fun s j => s.setKernel ctx (64 * n + j) (v.getLsbD j)) s)) ∧
    (s.on = true → ctx < 64 → exec (.swout ctx) s =
      .next (if c.valid = true ∧ c.state = .active then s.setCtx ctx { c with state := .switching } else s)) ∧
    (∀ s1, c.state = .switching → (s.groupsOf ctx).all s.drained = true →
      (s.flush (s.ctxL1s ctx) = .begun s1 → exec (.swoutComplete ctx) s = .next s1) ∧
      (s.flush (s.ctxL1s ctx) = .clean s1 → exec (.swoutComplete ctx) s = .next (s1.switchOut ctx)) ∧
      (s.cleanL1s (s.ctxL1s ctx) = true → exec (.swoutComplete ctx) s = .next (s.switchOut ctx) ∧
        (s.groupsOf ctx = [] → s.switchOut ctx =
          ((({ s with fresh := s.fresh + 1 } : State).emptyL1s (s.ctxL1s ctx) true).saveCtx ctx)))) ∧
    (s.on = true → ctx < 64 → (c.valid = false ∨ c.state ≠ .switchedOut) → ∀ at_, exec (.swin ctx at_) s = .next s) ∧
    (s.on = true → ctx < 64 → c.valid = true → c.state = .switchedOut → c.savedBlocks = [] → exec (.swin ctx []) s =
      .next ((s.modCtx ctx fun c => { c with savedBlocks := [], swin := false }).setState ctx .active)) ∧
    (∀ at_ : List (List Place), s.on = true → ctx < 64 → c.valid = true → c.state = .switchedOut →
      let quads := (at_.flatMap fun b => b.map fun p => quadOf p.core).dedup
      (∃ q ∈ quads, (s.quad q).gate = .gated) → exec (.swin ctx at_) s = .next ((s.wakeFor quads).awaitRoom ctx)) ∧
    (∀ at_ : List (List Place), s.on = true → ctx < 64 → c.valid = true → c.state = .switchedOut →
      let quads := (at_.flatMap fun b => b.map fun p => quadOf p.core).dedup
      (∀ q ∈ quads, (s.quad q).gate ≠ .gated) →
      (∀ u, s.remoded quads (s.savedFuse ctx) (fun s => s.switchIn ctx at_) = some u → exec (.swin ctx at_) s = .next u) ∧
      (s.remoded quads (s.savedFuse ctx) (fun s => s.switchIn ctx at_) = none → c.swin = false → exec (.swin ctx at_) s = .next (s.awaitRoom ctx))) ∧
    (∀ (at_ : Place) blk b x ghost g0 k ks s2,
      let qd := quadOf at_.core
      let gid := 96 * at_.core + 8 * at_.part + k
      let need := s.savedNeed b [g0]
      let s1 := ((s.takeCore at_.core ctx).setGroup gid { g0 with core := at_.core, part := at_.part, pos := k }).setBlock blk { b with
        groups := [gid], claims := b.claims.map fun y => { y with gid := if y.gid = ghost then gid else y.gid }, cores := need.ranks [at_], passed := 0 }
      s.on = true → ctx < 64 → c.valid = true → c.state = .switchedOut → c.savedBlocks = [(blk, b)] → b.ctx = ctx → b.groups = [ghost] →
      c.savedGroups.find? (fun y => y.1 == ghost) = some (ghost, g0) → s.grids.get? b.grid = some x → s.mayPass (s.passedOver b.grid x) = true →
      (need.ranks [at_]).length = b.nr → at_.core < 512 → at_.part < 12 → (s.quad qd).gate = .on → (s.quad qd).fused = resFuse x.res →
      (∀ r ∈ need.ranks [at_], b.spad ≤ s.freeSpad r) → s.bestPart at_.core = some at_.part → g0.cap + b.pool ≤ s.unreserved at_.core at_.part →
      s.freePositions at_.core at_.part = k :: ks → g0.budM ≤ s.freeTiles at_.core → g0.budC ≤ s.freeAccs qd → s.coreFor at_.core ctx = true →
      s1.restoreGroup ctx gid ghost = some s2 →
      exec (.swin ctx [[at_]]) s = .next ((((s2.settled ctx blk x.entry [at_]).countPass (s.passedOver b.grid x)).modCtx ctx fun c =>
        { c with savedBlocks := [], swin := false }).setState ctx .active)) ∧
    (∀ gid ghost s2, s.restoreGroup ctx gid ghost = some s2 →
      let g := s.group gid
      let names (g : Group) : List (Nat × Mask × Vec) := g.names.map fun y => (y.1, y.2.live, y.2.val)
      let planes := c.savedPlanes.filter fun y => y.1 == ghost
      s2.mem = s.mem ∧ names (s2.group gid) = names g ∧
      s2.group gid = { g with
        names := (s2.group gid).names, joins := g.joins.map fun j => { j with since := j.since.map fun _ => (s.core g.core).cyc } } ∧
      ((planes.map fun y => y.2.1).Nodup → (s.quad (quadOf g.core)).planes.length = 2 →
        ∀ y ∈ planes, y.2.1 < 2 → s2.plane (quadOf g.core) y.2.1 = { y.2.2 with owner := some gid }) ∧
      ∀ slot bank bad, c.savedBanks.filter (fun y => y.1 == ghost) = [(ghost, slot, bank, bad)] →
        let p := s2.part g.core g.part
        p.owner = some (gid, slot) ∧ p.bank = bank ∧ p.bankBad = bad) ∧
    (s.on = true → ctx < 64 →
      exec (.clamp ctx) s = .next (if c.valid = true ∧ c.state ≠ .clamped then s.clampCtx ctx 0 0 0 else s) ∧
      exec (.release ctx) s = .next (if c.valid = true then s.releaseCtx ctx else s) ∧
      exec (.destroy ctx) s = .next (if c.valid = true then s.destroyCtx ctx else s) ∧
      (v.getLsbD 61 = false → exec (.mclmpClamp ctx v) s = .next (if c.valid = true then s.mclmpClamp ctx v else s)) ∧
      (v.getLsbD 61 = true → exec (.mclmpRelease ctx v) s =
        .next (if c.valid = true ∧ c.state ≠ .clamped then s.mclmpRelease ctx v else s))) ∧
    ((if host then s.hostUp else s.on) = true →
      exec (.todev host) s = .next (s.hostOr host fun s => s.handOver host 1 State.toDevice) ∧
      exec (.tohost host) s = .next (s.hostOr host fun s => s.handOver host 2 State.toHost) ∧
      (s.regWrite host off v ≠ .other → exec (.registerWrite host off v) s = .next (s.hostOr host fun s => s.writeReg host off v))) ∧
    (s.powered = true → 0x600000 ≤ off → off < 0x600030 → exec (.registerWrite false off v) s = .next (s.writeReg false off v)) ∧
    (h.busy = true → (h.op = 2 → ∀ a ∈ s.accs, a.kind = .wb → s.inRegion h.capCtx h.capVa h.capLen (lineOf a.pa) = true → a.done = true) →
      exec .handoverDone s = .next { s with hand := { h with busy := false, done := true } }) ∧
    (∀ bs, s.hostUp = true → bs ≠ [] → n % 64 + bs.length ≤ 64 →
      (s.power.stage < 7 ∨ s.linkClamped = true → exec (.hostWrite ctx n bs) s = .next s) ∧
      (s.power.stage ≥ 7 → s.linkClamped = false → s.hostRefused n bs.length = none → s.wbqRoom n = true →
        exec (.hostWrite ctx n bs) s = .next (s.homeBytes n bs))) ∧
    (s.on = true → ∃ t, exec .powerFailure s = .next t ∧ t.on = false ∧ t.groups = [] ∧ t.cores = [] ∧ t.ctxs = [] ∧ t.accs = [] ∧
      t.pkg = 0 ∧ ∀ d, d < 4 →
        let kept := (s.die d).wbq.foldl (fun m e => e.foldl (fun m c => Mem.write m c.1 c.2) m) (s.die d).scm
        t.die d = { scm := if s.pkg = 0 then kept else kept.foldl (fun m c => Mem.write m (c.1 % 2 ^ 42) c.2) [] }) ∧
    (∀ power cur, s.powered = true → (p.thrt = true → min p.throt 110 ≤ n + 5) → (p.thrt = false → n < min p.throt 110) →
      let s1 : State := { s with power := { p with tmax := min n 255 } }
      exec (.bellowsInterval { power := power, tmax := n } cur) s = .next (if 6 ≤ p.stage then s1.bellows power cur else s1)) ∧
    (s.on = true → n < 16 → exec (.currentLimit n) s =
      .next (({ s with power := { p with limited := p.limited ||| (1#16 <<< n), clim := true } } : State).alert 1)) ∧
    (s.powered = true → p.thrt = false → min p.throt 110 ≤ n → exec (.throttling n) s =
      .next (({ s with power := { p with tmax := min n 255, thrt := true } } : State).alert 2)) ∧
    (s.powered = true → p.thrt = true → n + 5 < min p.throt 110 → exec (.throttling n) s =
      .next { s with power := { p with tmax := min n 255, thrt := false } }) ∧
    (s.powered = true → 115 ≤ n → ∃ t, exec (.thermalTrip n) s = .next t ∧ t.on = false ∧ t.power.trip = true ∧ t.power.alert.getLsbD 3 = true ∧
      t.dies = s.dark.dies ∧ t.mem = s.dark.mem) ∧
    (∀ i3c, (s.on = false ∨ i3c = true ∨ p.stage = 0) → ∃ t, exec (.bringUp (.start i3c)) s = .next t ∧ t.groups = [] ∧ t.cores = [] ∧
      t.ctxs = [] ∧ t.dies = s.dark.dies ∧ t.mem = s.dark.mem ∧ t.power.stage = 1 ∧ t.power.trip = (i3c && p.trip)) ∧
    (∀ img, p.stage = 1 →
      let whole := bytesOf 2 img.version.toNat ++ img.body
      let good : Prop := img.key.length = 64 ∧ img.sig.length = 29792 ∧ shake256 img.key = bytesOf 64 Config.fusedDigest.toNat ∧
        Config.verifies img.key whole img.sig = true ∧ p.svn.toNat ≤ img.version.toNat
      let m0 := extendMeasure (p.meas.getD 0 0) (BitVec.ofNat 512 (ofBytes (shake256 whole)))
      (good → exec (.bringUp (.firmware img)) s = .next { s with power := { p with stage := 2, vrf := true, meas := p.meas.set 0 m0 } }) ∧
      (¬ good → exec (.bringUp (.firmware img)) s = .next (({ s with power := { p with stage := 2, vrf := false } } : State).alert 4))) ∧
    (p.vrf = true → (p.stage = 2 ∨ p.stage = 3 ∨ p.stage = 5 ∨ p.stage = 6) →
      exec (.bringUp .stage) s = .next { s with on := true, power := { p with stage := p.stage + 1 } }) ∧
    (∀ ports pkg, p.stage = 4 → ∃ t, exec (.bringUp (.links ports pkg)) s = .next t ∧ t.power = { p with stage := 5 } ∧ t.pkg = pkg.toNat ∧
      ∀ k, k < 16 → t.ports.getD k {} = { up := ports.getLsbD k }) ∧
    (∀ d, p.vrf = true → 2 ≤ p.stage → p.stage < 7 → n < 8 → exec (.bringUp (.measure n d)) s =
      .next { s with power := { p with meas := p.meas.set n (extendMeasure (p.meas.getD n 0) d) } }) ∧
    ∀ nonce, p.stage ≥ 2 → exec (.attestationRequest nonce) s =
      .next { s with power := { p with reports := p.reports ++ [s.report nonce] } }

/-- The flits and the events of the fabric complete: an intact flit of a type, with no reserved bit, that is in turn is acted on and one
already accepted is discarded; a bad one is counted; what is not acknowledged is sent again; a package's failure is resolved; erasure
groups are enabled and rebuilt. What AUX and payloads hold, which erasure registers a GO needs, how many replays bring a port down, and what is
asked of a write that comes to a stepped line are the model's choices (logs 15, 16, 20, 23, 34, 50, 52). -/
def Obligations.FabricEventsComplete : Prop :=
  ∀ (s t : State) (port n : Nat) (f : Flit) (v : Dword),
    let p := s.ports.getD port {}
    let e := s.erasure
    let e1 : Erasure := { e with ctl := v &&& 0x8000FFF0 }
    let range := e.range.toNat
    let back (t : State) : State := t.ackBack port f p.seqOut
    let acts (ty : Nat) (i : Instr) (act : State → Option State) : Prop := f.type = ty → f.rsv = 0 →
      (s.accept port f = some (false, t) → exec i s = .next (back t)) ∧
      ∀ s1, s.accept port f = some (true, s1) → act s1 = some t → exec i s = .next (back t)
    let s1 := (s.ackTo port f.ack).modPort port fun p => { p with seqIn := p.seqIn + 1 }
    let inTurn (ty : Nat) : Prop := s.on = true ∧ p.up = true ∧ f.dpkg = s.pkg ∧ f.type = ty ∧ f.rsv = 0 ∧ f.seq = p.seqIn % 2 ^ 16
    let takes (i : Instr) (t : State) : Prop := exec i s = .next (back t)
    let pa := lineOf f.paddr * 64
    let part (g : Flit) : Bool := g.spkg == f.spkg && g.type == f.type && g.tag == f.tag && g.sdie == f.sdie
    let all : Flit := { f with payload := (s1.parts.filter part).flatMap (·.payload) ++ f.payload }
    let s2 : State := { s1 with parts := s1.parts.filter fun g => !part g }
    let st := flitStep f
    let rd := s1.readPas pa st
    let wr := s1.writePas pa 1 st
    let stAll := flitStep all
    let lines := (flitBody all).length / 72
    let cell (k : Nat) : List Host.Cell := maskedCells (pa + 64 * k) (((flitBody all).drop (72 * k)).take 72)
    let needs (k : Nat) : List Nat := s2.writePas (pa + 64 * k) (cell k).length stAll
    let put (t : State) (k : Nat) (cells : List Host.Cell) : State :=
      if f.aux.getLsbD 30 then (t.homeCells cells).clearError ((cells.map Prod.fst).headD (pa + 64 * k)) (cell k).length else t.homeCells cells
    let word (k w : Nat) : Nat := ofBytes ((f.payload.drop k).take w)
    acts 0 (.nullFlit port f) some ∧
    acts 1 (.rdFlit port f) (·.serveRd f) ∧
    acts 2 (.rddFlit port f) (fun s => some (if f.payload.length = 64 ∨ flitCause f ≠ 0 then s.takeRdd f else s)) ∧
    acts 3 (.wrFlit port f) (·.serveWr f) ∧
    acts 4 (.wackFlit port f) (fun s => some (s.takeWack f)) ∧
    acts 5 (.atFlit port f) (·.whole f State.serveAt) ∧
    acts 6 (.atdFlit port f) (·.whole f fun s f => some (s.takeAtd f)) ∧
    acts 7 (.rdoFlit port f) (·.serveRdo f) ∧
    acts 8 (.frznFlit port f) (fun s => some { s with notices := s.notices ++
      [{ page := pageOf f.paddr, gather := f.aux.getLsbD 0, home := f.spkg, todo := [0, 1, 2, 3], wait := [] }] }) ∧
    acts 9 (.fackFlit port f) (fun s => some (s.takeFack f)) ∧
    acts 10 (.coldFlit port f) (fun s => some (s.takeCold f)) ∧
    acts 11 (.barmFlit port f) (fun s => some (s.takeBarm f)) ∧
    acts 12 (.strFlit port f) (fun s => if f.aux = 0 then s.applyDelta f else if f.aux = 1 then some (s.sendUnit f)
      else if f.aux = 2 then some (s.takeUnit f) else some (if s.erasure.awaits f then s.dropRebuild else s)) ∧
    acts 13 (.bulkFlit port f) (·.whole f State.serveBulk) ∧
    (inTurn 1 → s1.sweeping pa = false →
      (s1.refusal pa st false rd ≠ 0 → takes (.rdFlit port f) (s1.refuse f 2 (s1.refusal pa st false rd) 0 rd)) ∧
      (s1.refusal pa st false rd = 0 → (s1.stepped pa).isSome = true → takes (.rdFlit port f) (s1.reply f 2 0 2 (s1.homeRead pa 64 st))) ∧
      (s1.refusal pa st false rd = 0 → s1.stepped pa = none → (∀ x, s1.dirEnt (pageOf pa) = some x → x.state ≠ .sealed ∨ f.aux.getLsbD 31 = false) →
        takes (.rdFlit port f) (s1.reply f 2 0 0 (s1.homeRead pa 64 st))) ∧
      ∀ x, s1.refusal pa st false rd = 0 → s1.stepped pa = none → s1.dirEnt (pageOf pa) = some x → x.state = .sealed → f.aux.getLsbD 31 = true →
        takes (.rdFlit port f) ((s1.setDir (pageOf pa) (some { x with pkf := x.pkf ||| (1#32 <<< (f.spkg % 32)) })).reply f 2 0 1 (s1.homeRead pa 64 st))) ∧
    (inTurn 3 →
      (s1.refusal pa st true wr ≠ 0 → takes (.wrFlit port f) (s1.refuse f 4 (s1.refusal pa st true wr) 0 wr)) ∧
      (s1.refusal pa st true wr = 0 → s1.wbqRoom pa = true → s1.stepped pa = none →
        takes (.wrFlit port f) ((s1.homeCells (maskedCells pa (flitBody f))).reply f 4 0 0 [])) ∧
      ∀ cells, s1.refusal pa st true wr = 0 → s1.wbqRoom pa = true → s1.maskedWrite pa st (maskedCells pa (flitBody f)) = some cells →
        takes (.wrFlit port f) ((s1.homeCells cells).reply f 4 0 0 [])) ∧
    (inTurn 5 → f.aux.getLsbD 31 = true → takes (.atFlit port f) { s1 with parts := s1.parts ++ [f] }) ∧
    (inTurn 5 → f.aux.getLsbD 31 = false →
      let aop := f.aux.toNat / 256 % 16
      let aty := f.aux.toNat / 32 % 8
      let w := atyBytes aty
      let pas := s2.readPas f.paddr stAll ++ s2.writePas f.paddr w stAll
      let r := atomApply aop aty (ofBytes (s2.homeRead f.paddr w stAll)) (operandsOf (if aop = 7 then 2 * w else w) (flitBody all))
      (s2.refusal f.paddr stAll true pas ≠ 0 → takes (.atFlit port f) (s2.refuse all 6 (s2.refusal f.paddr stAll true pas) 0 pas)) ∧
      ∀ cells, s2.refusal f.paddr stAll true pas = 0 → s2.wbqRoom f.paddr = true → s2.writeCells f.paddr stAll (bytesOf w r.1) = some cells →
        takes (.atFlit port f) ((s2.homeCells cells).reply all 6 0 0 (r.2.flatMap Prod.snd))) ∧
    (inTurn 7 →
      let aop := f.aux.toNat / 256 % 16
      let aty := f.aux.toNat / 32 % 8
      let c := s1.areaCause f.paddr
      (c ≠ 0 → takes (.rdoFlit port f) (s1.reply f 6 c 0 [])) ∧
      (pkgOf f.paddr ≠ s.pkg → takes (.rdoFlit port f) (s1.reply f 6 Cause.dataError.code 0 [])) ∧
      ∀ d, c = 0 → pkgOf f.paddr = s.pkg → homeDie f.paddr = some d →
        let r := (s1.die d).redo.getD (word 8 4) { ctx := f.ctx, addr := f.paddr, aop := aop, aty := aty, n := word 12 4, vals := [], sco := 0 }
        let r1 : RedoSlot := { r with vals := r.vals.set (word 16 4) (word 0 8), sco := max r.sco (f.aux.toNat / 4 % 8) }
        let agrees : Prop := r.ctx = f.ctx ∧ r.addr = f.paddr ∧ r.aop = aop ∧ r.aty = aty ∧ r.n = word 12 4 ∧ r.vals.get? (word 16 4) = none
        (¬ agrees → takes (.rdoFlit port f) (s1.reply f 6 2 0 [])) ∧
        (agrees → r1.vals.length < word 12 4 →
          takes (.rdoFlit port f) ((s1.modDie d fun x => { x with redo := x.redo.set (word 8 4) r1 }).reply f 6 0 0 []))) ∧
    (inTurn 12 →
      let stripe := word 64 8
      let pd := s1.ownUnit stripe + lineOf f.paddr * 64 % 2 ^ 17
      let holds := s1.erasure.en = true ∧ stripe < s1.erasure.stripes ∧ s1.erasure.k ≤ s1.erasure.unitAt stripe s1.erasure.pos
      (f.aux = 0 → ¬ holds ∨ pkgOf f.paddr ≠ s1.pkg → takes (.strFlit port f) (s1.reply f 4 Cause.pageProtection.code 0 [])) ∧
      (f.aux = 0 → holds → pkgOf f.paddr = s1.pkg → s1.lineBad pd = false → s1.wbqRoom pd = true →
        takes (.strFlit port f) ((s1.homeBytes pd ((s1.bytes pd 64).zipWith (· ^^^ ·) (f.payload.take 64))).reply f 4 0 0 [])) ∧
      (f.aux = 1 → takes (.strFlit port f) (s1.sendUnit f)) ∧
      (f.aux = 2 → takes (.strFlit port f) (s1.takeUnit f)) ∧
      (3 ≤ f.aux.toNat → (s1.erasure.awaits f = false → takes (.strFlit port f) s1) ∧ (s1.erasure.awaits f = true →
        takes (.strFlit port f) { s1 with erasure := { s1.erasure with busy := false, done := false, from_ := [], units := [] } }))) ∧
    (inTurn 13 → f.aux.getLsbD 31 = true → takes (.bulkFlit port f) { s1 with parts := s1.parts ++ [f] }) ∧
    (inTurn 13 → f.aux.getLsbD 31 = false → lines = 1 →
      (s2.refusal pa stAll true (needs 0) ≠ 0 → takes (.bulkFlit port f) (s2.refuse all 4 (s2.refusal pa stAll true (needs 0)) 0 (needs 0))) ∧
      ∀ cells, s2.refusal pa stAll true (needs 0) = 0 → s2.wbqRoom pa = true → s2.maskedWrite pa stAll (cell 0) = some cells →
        takes (.bulkFlit port f) ((put s2 0 cells).reply all 4 0 0 [])) ∧
    (inTurn 13 → f.aux.getLsbD 31 = false → (∀ k, k < lines → s2.refusal (pa + 64 * k) stAll true (needs k) = 0 ∧ s2.stepped (pa + 64 * k) = none) →
      (∀ d, d < 4 → (s.die d).wbqUsed + lines ≤ 4096) →
      takes (.bulkFlit port f) (((List.range lines).foldl (fun t k => put t k (cell k)) s2).reply all 4 0 0 [])) ∧
    (∀ new s1, (14 ≤ f.type ∨ f.rsv ≠ 0) → s.accept port f = some (new, s1) → exec (.badFlit port f) s =
      .next (if new then s1.modPort port fun p => { p with bad := min 255 (p.bad + 1) } else s1)) ∧
    (s.on = true → port < 16 → p.up = true → exec (.flitCrcFailure port) s = .next s) ∧
    (s.on = true → port < 16 → p.up = true → p.unacked ≠ [] → exec (.flitReplay port) s = .next (if 8 ≤ p.fails then s.portDown port
      else { s with out := s.out ++ p.unacked.map (fun f => { f with ack := p.ack }),
                    ports := s.ports.set port { p with fails := p.fails + 1, retry := min 255 (p.retry + 1) } })) ∧
    (s.on = true → n < 64 → exec (.fabfailWrite n v) s =
      let named := ((List.range 64).filter fun b => v.getLsbD b).map (64 * n + ·)
      .next ((named.filter fun q => !s.fabFail.contains q).foldl (fun s q => s.resolveFailed q)
        { s with fabFail := (s.fabFail.filter fun q => q / 64 != n) ++ named })) ∧
    (s.on = true → v.getLsbD 31 = true → exec (.egctlEnable v) s = .next (if e.en = true then s
      else { s with erasure := if s.egBad e1 = true then { e with ctl := v &&& 0xFFF0 } else e1 })) ∧
    (s.on = true → v.getLsbD 31 = true → exec (.egrbldGo v) s =
      .next (if e.en = true ∧ e.busy = false ∧ range % 2 ^ 32 ≤ bitsOf range 63 32 ∧ bitsOf range 63 32 < e.stripes then
        ({ s with erasure := { e with busy := true, done := false, run := e.run + 1, at_ := range % 2 ^ 32 } } : State).askStripe
        else { s with erasure := { e with done := e.done && !v.getLsbD 29 } })) ∧
    ∀ d, s.stripeReady = true → homeDie (e.unitPa e.at_ e.pos) = some d → (s.die d).wbqUsed + 2048 ≤ 4096 →
      exec .rebuildStripe s = .next s.rebuildOne

/-! Encoding, memory, reset and the step. -/

/-- The first halfword gives the length and the format; the all-zero halfword is MOV v0, v0 with E = 0, which changes no register and no
name and needs no register within the cap (R45). -/
def Obligations.FirstBitsGiveLength : Prop :=
  (∀ (h : BitVec 16) (rest : List Byte) (w : Words) (n : Nat), readWords (bytesOf 2 h.toNat ++ rest) = .ok (w, n) →
    (h.getLsbD 0 = false → n = 2 ∧ ∃ op f, w = .c16 op f) ∧
    (h.extractLsb' 0 2 = 1#2 → n = 4 ∧ ∃ op f, w = .w32 op f) ∧
    (h.extractLsb' 0 2 = 3#2 → n = 8 ∧
      ((h.extractLsb' 4 8).toNat < 0xF0 → ∃ f, w = .w64 (h.extractLsb' 4 8) f) ∧ (0xF0 ≤ (h.extractLsb' 4 8).toNat → ∃ f, w = .w64i (h.extractLsb' 4 8) f))) ∧
  (∀ (h : BitVec 16) (rest : List Byte), 6 ≤ rest.length → ∃ w n, readWords (bytesOf 2 h.toNat ++ rest) = .ok (w, n)) ∧
  (∀ rest, decode (0#8 :: 0#8 :: rest) = .ok (.movC16 { s := 0, d := 0, e := 0 }, 2)) ∧
  ∀ (f : C16F) (s : State) (x : Iss), f.s = f.d → Ready s (.movC16 f) x →
    ∃ t, exec (.movC16 f) s = .next t ∧ Result s t x noReg noPred 0 ∧ (t.group x.gid).names = (s.group x.gid).names

/-- Every well-formed operation encodes, and its bytes decode to it whatever follows them; bytes that decode are those the decoded
operation encodes to. No bit of an encoding is dropped (R45 to R66). -/
def Obligations.DecodeInvertsEncode : Prop :=
  (∀ (i : Instr), i.wellFormed = true → ∃ bs, encode i = some bs ∧ ∀ rest, decode (bs ++ rest) = .ok (i, bs.length)) ∧
  ∀ (bs : List Byte) (i : Instr) (n : Nat), decode bs = .ok (i, n) → i.wellFormed = true ∧ n ≤ bs.length ∧ encode i = some (bs.take n)

/-- A reserved op8 is no instruction (R69): it is refused by name, and a split that would issue it traps ILLEGAL_OPCODE, with TPC and TADDR its
address, TLANES its active lanes and TINFO its first 32 bits (R70). An instruction outside a handler that only a handler may run traps PRIV, and one that fails another check traps with the cause of the first
check that fails; TADDR is its address and TLANES its active lanes (R68, R70). -/
def Obligations.ReservedCodesAndFailedChecksTrap : Prop :=
  ((∀ (op : BitVec 8) (f : W64F) (g : W64IF), (0x22 ≤ op.toNat ∧ op.toNat ≤ 0x2F) ∨ (0x52 ≤ op.toNat ∧ op.toNat ≤ 0x5F) ∨
        (0x6D ≤ op.toNat ∧ op.toNat ≤ 0x6F) ∨ (0x76 ≤ op.toNat ∧ op.toNat ≤ 0x7F) ∨ (0x8D ≤ op.toNat ∧ op.toNat ≤ 0x8F) ∨
        (0xA0 ≤ op.toNat ∧ op.toNat ≤ 0xAF) ∨ (0xEE ≤ op.toNat ∧ op.toNat ≤ 0xEF) ∨ 0xF7 ≤ op.toNat →
      (Words.w64 op f).instr = .error (.reservedOp8 op.toNat) ∧ (Words.w64i op g).instr = .error (.reservedOp8 op.toNat)) ∧
    ∀ (s : State) (part : Nat) (w : Words) (e : DecodeError) (r : Run), (s.part s.focus.1 part).run = some r → w.instr = .error e →
      s.issueStep s.focus.1 part w =
        let s0 : State := { s with focus := (s.focus.1, part) }
        let y := (s.group r.gid).slot r.slot
        .next (s0.raise r.gid r.slot { cause := .illegalOpcode, pc := y.spc, addr := y.spc.setWidth 64, lanes := y.amask, info := w.first32, rpl := false })) ∧
  (∀ (i : Instr) (s : State) (x : Iss) (w : Words) (c : Cause), i.words = some w → s.issuer (insOfWords w) = some x → s.unsettled x = false →
      x.ins.check (s.bounds x) = some c →
      exec i s = .next (s.raise x.gid x.slot { cause := c, pc := x.pc, addr := x.pc.setWidth 64, lanes := x.active, info := x.ins.raw, rpl := false }))

/-- The worked encodings of R71, R115 and R197, and words written out from R48 to R66, decode to the instructions they stand for. -/
def Obligations.WorkedWordsDecode : Prop :=
  decode [0xCA#8, 0x88#8] = .ok (.iaddC16 { s := 17, d := 3, e := 1 }, 2) ∧
  decode [0x39#8, 0xA1#8, 0x04#8, 0xDA#8] = .ok (.fmulW32 { k := 1, b := 90, a := 2, d := 40, st := 1, e := 0 }, 4) ∧
  decode [0x37#8, 0xA3#8, 0x08#8, 0x12#8, 0x0C#8, 0x52#8, 0x40#8, 0x64#8] =
    .ok (.ffma { m12 := 0x644, c := 10, b := 131, a := 9, d := 8, gn := 1, g := 2, st := 0, e := 1 }, 8) ∧
  decode [0x03#8, 0x7F#8, 0x05#8, 0x00#8, 0x00#8, 0x00#8, 0x80#8, 0x3F#8] =
    .ok (.movi { imm := 0x3F800000, mod7 := 0, d := 5, gn := 0, g := 7, st := 0, e := 0 }, 8) ∧
  decode [0x15#8, 0x04#8, 0x00#8, 0x80#8] = .ok (.isubW32 { k := 1, b := 0, a := 0, d := 1, st := 0, e := 1 }, 4) ∧
  decode [0x95#8, 0x0A#8, 0x00#8, 0x80#8] = .ok (.gaddW32 { k := 1, b := 0, a := 0, d := 2, st := 0, e := 1 }, 4) ∧
  decode [0xA7#8, 0x7C#8, 0x00#8, 0x00#8, 0x00#8, 0x00#8, 0x70#8, 0x00#8] =
    .ok (.trap { m12 := 7, c := 0, b := 0, a := 0, d := 0, gn := 0, g := 7, st := 0, e := 1 }, 8) ∧
  decode [0xF3#8, 0x71#8, 0x03#8, 0x0C#8, 0x08#8, 0x12#8, 0x20#8, 0x00#8] =
    .ok (.icmp { m12 := 0x002, c := 2, b := 130, a := 6, d := 3, gn := 0, g := 7, st := 0, e := 0 }, 8)

/-- Memory, scratchpad and tiles hold multi-byte values least significant byte first, and a pair of lane registers its low 32 bits in the
even register (R8). -/
def Obligations.MultiByteValuesAreLittleEndian : Prop :=
  (∀ (s : State) (pa n v : Nat), s.memOk →
    (∀ k, k < n → Mem.read (s.homeBytes pa (bytesOf n v)).mem (pa + k) = BitVec.ofNat 8 (v >>> (8 * k))) ∧
    (∀ a, a < pa ∨ pa + n ≤ a → Mem.read (s.homeBytes pa (bytesOf n v)).mem a = Mem.read s.mem a) ∧
    (s.homeBytes pa (bytesOf n v)).word pa n = v % 2 ^ (8 * n)) ∧
  (∀ (b : Block) (a n v : Nat), Mem.wf (b.bytes.getD (spadRank a) []) = true →
    (b.write a (bytesOf n v)).read a n = (List.range n).map fun k => BitVec.ofNat 8 (v >>> (8 * k))) ∧
  (∀ (t : Tile) (cols n r c : Nat), t.code cols (8 * n) r c = ofBytes (t.bytes (r * rowBytes cols (8 * n) + n * c) n)) ∧
  (∀ (t : Tile) (off : Nat) (bs : List Byte), off + bs.length ≤ 8192 → (t.put off bs).bytes off bs.length = bs) ∧
  ∀ (r : Regs) (d l : Nat), d % 2 = 0 → d < 128 → r.xs d 2 l = (r.x d l).toNat + 2 ^ 32 * (r.x (d + 1) l).toNat

/-- An access that comes to its home with nothing before it is performed there: a write stores its bytes and no other, an atomic stores
what its applications make of the old value and keeps what each lane receives, a read keeps the bytes it finds (R141, R147, R266, R270).
-/
def Obligations.AccessesArePerformedAtHome : Prop :=
  ∀ (s : State) (a : Access) (aop aty : Nat) (w : Bool),
    let i : Instr := if w then .wbqEntry a.id else .homeAccess a.id
    let l1 := s.l1Of a.core
    let line := lineOf a.pa
    let v := atomApply aop aty (s.word a.pa a.w) a.apps
    let stores (t : State) (bs : List Byte) : Prop := ∀ x, Mem.read t.mem x =
      if a.pa ≤ x ∧ x < a.pa + bs.length then bs.getD (x - a.pa) 0 else Mem.read s.mem x
    let keeps (t : State) (r : List (Nat × List Byte)) : Prop := ∀ q, a.load = some q → ∃ b ∈ t.accs, b.id = a.id ∧ b.done = true ∧ b.failed = false ∧ b.result = r
    s.memOk → (s.accs.find? fun x => x.id == a.id && x.waiting == w) = some a → a.done = false → a.sent = false →
    (∀ d ∈ a.deps, s.pendingId d = false) → pkgOf a.pa = s.pkg → s.lineBad a.pa = false → s.stepped a.pa = none →
    (s.l1Line l1 line).dirty = 0 → s.wbs l1 line = [] →
    (a.kind = .write → a.home = true → s.mayEnter a = true → ∃ t, exec i s = .next t ∧ stores t a.data) ∧
    (a.kind = .read → a.home = true → ∃ t, exec i s = .next t ∧ t.mem = s.mem ∧ keeps t (a.apps.map fun p => (p.1, s.bytes a.pa a.w))) ∧
    ((a.kind = .atom aop aty ∨ a.kind = .red aop aty) → (s.dropLine l1 a.pa).mayEnter a = true →
      ∃ t, exec i s = .next t ∧ stores t (bytesOf a.w v.1) ∧ keeps t v.2)

/-- Reset memory has its canonical form. That it lists nothing and that a byte not listed reads as 0 is the model's choice (logs 5 and 6, DESIGN
CHOICE). -/
def Obligations.ResetMemoryIsCanonical : Prop := State.reset.memOk ∧ State.reset.mem = [] ∧ ∀ a, Mem.read State.reset.mem a = 0

/-- Every step keeps memory at home in its canonical form. -/
def Obligations.StepsKeepMemoryCanonical : Prop := ∀ (s t : State), s.memOk → step s = .next t → t.memOk

/-- What the manual gives the registers after reset (R163, R298, R333, R344, R346, R355, R365, R383, R389, R405): no context, queue,
region or group is enabled, no package has failed, and the limits have their stated values. -/
def Obligations.ResetLeavesTheStatedValues : Prop :=
  (∀ c, (State.reset.core c).issctl = 1) ∧ (∀ q, (State.reset.quad q).thresh = 160000) ∧
  (∀ q, (State.reset.lq q).en = false ∧ (State.reset.lq q).pi = 0 ∧ (State.reset.lq q).ci = 0 ∧ (State.reset.lq q).halt = false) ∧
  (∀ c, let x := State.reset.ctx c;
    (x.valid = false ∧ x.debug = false ∧ x.prioMax = 3 ∧ x.lvlCap = 3 ∧ x.state = .active ∧ x.asid = 0 ∧ x.root = 0 ∧ x.tvec = 0 ∧ x.save = 0 ∧
    x.qh = 0 ∧ x.qs = 0 ∧ x.frqBase = 0 ∧ x.frqProd = 0 ∧ x.frqCons = 0 ∧ x.lost = 0 ∧ x.stepRec = 0 ∧ x.stepC = 0)) ∧
  (∀ c r, State.reset.region c r = { base := 0, shad := 0, tag := 0, ctl := 0 }) ∧
  (let p := State.reset.power;
    p.limw = 3600 ∧ p.trip = false ∧ p.thrt = false ∧ p.clim = false ∧ p.pw = 0 ∧ p.ovrEn = 0 ∧ p.ovrLvl = 0xFFFFFFFF ∧ p.tmax = 0 ∧ p.throt = 95 ∧
    p.vrf = false ∧ p.stage = 0 ∧ p.alert = 0) ∧
  (let h := State.reset.hand;
    h.va = 0 ∧ h.len = 0 ∧ h.ctx = 0 ∧ h.busy = false ∧ h.done = false) ∧
  State.reset.pkg = 0 ∧ State.reset.fabFail = [] ∧ State.reset.erasure.en = false ∧ State.reset.erasure.range = 0 ∧ State.reset.erasure.busy = false ∧
  State.reset.erasure.done = false ∧ (∀ p, State.reset.rtab.getD p 0 = 0) ∧ ∀ k, k < 16 → (State.reset.ports.getD k {}).up = false

/-- A step runs the decoded instruction: where the partition whose turn in the cycle it is issues a run, no lower core competes with it (R164)
and the bytes at its program counter decode to i, the step is exec of i in the partition in focus, then the accounting of the issue and the
end of the step. An event at the head of the
agenda, which is the model's own field, is exec of that event (log 2, DESIGN CHOICE). -/
def Obligations.StepRunsTheDecodedInstruction : Prop :=
  (∀ (s : State) (part : Nat) (r : Run) (bs : List Byte) (i : Instr),
    let core := s.focus.1
    let g := s.group r.gid
    let pc := (g.slot r.slot).spc
    let s0 : State := { s.atTurn core part with focus := (core, part) }
    s.agenda = [] → s.on = true → (s.core core).running = true → s.dueEvent core = none → (s.core core).phase ≤ part + 1 → part < 12 → (∀ p, p < part → s.partMove core p = none) →
    (s.part core part).run = some r → r.ended = false → s.commits r.gid r.slot = false →
    (∀ k, k < bs.length → (s.core g.core).codeByte g.ctx (pc + BitVec.ofNat 56 k) = some (.ok (bs.getD k 0))) →
    decode bs = .ok (i, bs.length) →
    ∃ w, i.words = some w ∧ (s.slotFor r (s.issAt r.gid r.slot (insOfWords w)) = true →
      (∀ a, a < core → competes (insOfWords w).op a core = true → s.atEnd a = true) →
      step s = match exec i s0 with
        | .next t => .next (t.accountIssue (s0.issAt r.gid r.slot (insOfWords w))).close
        | .fault f => .fault f
        | .refused q => .refused q)) ∧
  ∀ (s : State) (i : Instr) (rest : List Turn), s.agenda = .event i :: rest → i.isEvent = true →
    step s = match exec i { s with agenda := rest } with
      | .next t => .next t.close
      | .fault f => .fault f
      | .refused q => .refused q
end

