-- ==== Sys2Proof/Laws/Exec.lean ====
section
/-! SUPPORT. Which effect an operation issues with, by op8: every format of an operation has the effect of its W64 form
(R51, R52). -/

namespace Sys2Proof.Machine

/-- The effect of an operation by op8; SLEEPT, MMRG and SCTADV have one for each mode and are left out. -/
def effectOf : Nat → Option (Iss → State → Eff)
  | 0x00 => some (laneVal iaddLane)
  | 0x01 => some (laneVal isubLane)
  | 0x02 => some (laneVal imulLane)
  | 0x03 => some (lanePure imulhLane)
  | 0x04 => some (laneVal imadLane)
  | 0x05 => some (laneVal imadwLane)
  | 0x06 => some (laneCarry iaddcLane)
  | 0x07 => some (laneCarry isubbLane)
  | 0x08 => some (laneVal inegLane)
  | 0x09 => some (laneVal iabsLane)
  | 0x0A => some (lanePure iminLane)
  | 0x0B => some (lanePure imaxLane)
  | 0x0C => some (lanePure andLane)
  | 0x0D => some (lanePure orLane)
  | 0x0E => some (lanePure xorLane)
  | 0x0F => some (lanePure notLane)
  | 0x10 => some (lanePure andnLane)
  | 0x11 => some (lanePure shlLane)
  | 0x12 => some (lanePure shrlLane)
  | 0x13 => some (lanePure shraLane)
  | 0x14 => some (lanePure rotlLane)
  | 0x15 => some (lanePure funlLane)
  | 0x16 => some (lanePure bfxLane)
  | 0x17 => some (lanePure bfiLane)
  | 0x18 => some (lanePure popcLane)
  | 0x19 => some (lanePure clzLane)
  | 0x1A => some (lanePure brevLane)
  | 0x1B => some (laneVal idivLane)
  | 0x1C => some (lanePure iremLane)
  | 0x1D => some (lanePure leaLane)
  | 0x1E => some (lanePure iaddwLane)
  | 0x1F => some (lanePred icmpLane)
  | 0x20 => some (lanePure byselLane)
  | 0x21 => some (laneVal dot4Lane)
  | 0x30 => some (laneVal faddLane)
  | 0x31 => some (laneVal fsubLane)
  | 0x32 => some (laneVal fmulLane)
  | 0x33 => some (laneVal ffmaLane)
  | 0x34 => some (laneVal fminLane)
  | 0x35 => some (laneVal fmaxLane)
  | 0x36 => some (laneVal fminnLane)
  | 0x37 => some (laneVal fmaxnLane)
  | 0x38 => some (lanePred fcmpLane)
  | 0x39 => some (lanePure fclassLane)
  | 0x3A => some (laneVal fdivLane)
  | 0x3B => some (laneVal fsqrtLane)
  | 0x3C => some (laneVal frcpLane)
  | 0x3D => some (laneVal frsqLane)
  | 0x3E => some (laneVal fexp2Lane)
  | 0x3F => some (laneVal flog2Lane)
  | 0x40 => some (laneVal fsinpiLane)
  | 0x41 => some (laneVal fcospiLane)
  | 0x42 => some (laneVal ftanhLane)
  | 0x43 => some (laneVal frintLane)
  | 0x44 => some (laneVal fldexpLane)
  | 0x45 => some (laneVal ffmaLane)
  | 0x46 => some (laneVal faddLane)
  | 0x47 => some (laneVal fmulLane)
  | 0x48 => some (laneVal minByOpx)
  | 0x49 => some (laneVal maxByOpx)
  | 0x4A => some (laneVal faddLane)
  | 0x4B => some (laneVal fmulLane)
  | 0x4C => some (laneVal ffmaLane)
  | 0x4D => some (laneVal minByOpx)
  | 0x4E => some (laneVal maxByOpx)
  | 0x4F => some (lanePred fcmpLane)
  | 0x50 => some (laneVal fdivLane)
  | 0x51 => some (laneVal fsqrtLane)
  | 0x60 => some (laneVal cvtLane)
  | 0x61 => some (cvtnEff)
  | 0x62 => some (cvtwEff)
  | 0x63 => some (sprsEff)
  | 0x64 => some (lanePure selLane)
  | 0x65 => some (psetEff)
  | 0x66 => some (pmovEff)
  | 0x67 => some (lanePure fun x => rngh x.a x.b)
  | 0x68 => some (sregEff)
  | 0x69 => some (movEff)
  | 0x6A => some (lanePure fun x => x.a)
  | 0x6B => some (readlEff)
  | 0x6C => some (vfreeEff)
  | 0x70 => some shflEff
  | 0x71 => some vredEff
  | 0x72 => some vscanEff
  | 0x73 => some voteEff
  | 0x74 => some ballotEff
  | 0x75 => some matchEff
  | 0x80 => some brdEff
  | 0x81 => some (voteEffBr fun _ c => decide (c > 0))
  | 0x82 => some (voteEffBr fun n c => c == n)
  | 0x83 => some (voteEffBr fun _ c => c == 0)
  | 0x84 => some jmpEff
  | 0x85 => some jmpiEff
  | 0x86 => some (fun i s => pushCall (fun _ => i.target) i s)
  | 0x87 => some calliEff
  | 0x88 => some retEff
  | 0x89 => some exitEff
  | 0x8A => some yieldEff
  | 0x8B => some loopgEff
  | 0x8C => some nopEff
  | 0x90 => some ldEff
  | 0x91 => some stEff
  | 0x92 => some ldsEff
  | 0x93 => some stsEff
  | 0x94 => some ldfeEff
  | 0x95 => some stfeEff
  | 0x96 => some fesetEff
  | 0x97 => some atomEff
  | 0x98 => some atomsEff
  | 0x99 => some redEff
  | 0x9A => some redoEff
  | 0x9B => some fenceEff
  | 0x9C => some prefEff
  | 0x9D => some dropEff
  | 0x9E => some gldEff
  | 0x9F => some gstEff
  | 0xB0 => some (uniVal iaddLane)
  | 0xB1 => some (uniVal isubLane)
  | 0xB2 => some (uniVal imulLane)
  | 0xB3 => some (uniVal imadLane)
  | 0xB4 => some (uniPure andLane)
  | 0xB5 => some (uniPure orLane)
  | 0xB6 => some (uniPure xorLane)
  | 0xB7 => some (uniPure fun x => shlAt 32 x.a (x.b % 256))
  | 0xB8 => some (uniPure gshrArgs)
  | 0xB9 => some (gcmpEff)
  | 0xBA => some (uniPure fun x => if x.p then x.a else x.b)
  | 0xBB => some (uniPure iminLane)
  | 0xBC => some (uniPure imaxLane)
  | 0xBD => some (uniPure leaLane)
  | 0xBE => some (uniVal faddLane)
  | 0xBF => some (uniVal fmulLane)
  | 0xC0 => some waitEff
  | 0xC2 => some plvlEff
  | 0xC3 => some regclmEff
  | 0xC4 => some regrelEff
  | 0xC5 => some barEff
  | 0xC6 => some dqpushEff
  | 0xC7 => some dqpopEff
  | 0xC8 => some dqstealEff
  | 0xC9 => some lnchEff
  | 0xCA => some trapEff
  | 0xCB => some eretEff
  | 0xCC => some mfsrEff
  | 0xCD => some mtsrEff
  | 0xCE => some tlbinvEff
  | 0xCF => some bkptEff
  | 0xD0 => some (tileMoveEff false)
  | 0xD1 => some (tileMoveEff true)
  | 0xD2 => some mshpEff
  | 0xD3 => some (tileFileEff 2)
  | 0xD4 => some (tileFileEff 3)
  | 0xD5 => some emskEff
  | 0xD6 => some mmaEff
  | 0xD7 => some mmasEff
  | 0xD8 => some mcntEff
  | 0xD9 => some mqchEff
  | 0xDB => some mdrnEff
  | 0xDC => some mdrnaEff
  | 0xDD => some maczEff
  | 0xDE => some sctrdEff
  | 0xE0 => some (tongsEff false)
  | 0xE1 => some (tongsEff true)
  | 0xE2 => some (freezeEff false)
  | 0xE3 => some (freezeEff true)
  | 0xE4 => some frzqEff
  | 0xE5 => some pbarEff
  | 0xE6 => some pflushEff
  | 0xE7 => some steptagEff
  | 0xE8 => some stepcmEff
  | 0xE9 => some stepabEff
  | 0xEA => some snapreqEff
  | 0xEB => some collEff
  | 0xEC => some sigaddEff
  | 0xED => some sigwaitEff
  | 0xF0 => some (capped Ins.dsts fun i s => .done (s.writeLanes i i.ins.d 1 (laneTable i fun _ => i.ins.imm.toNat)))
  | 0xF1 => some gmoviEff
  | 0xF2 => some (capped Ins.dsts fun i s => laneValN 1 (fun x => fit (i.ins.mod7 % 2 == 1) 32 true (signedOf 32 x.old + signedOf 32 i.ins.imm.toNat)) i s)
  | 0xF3 => some gaddiEff
  | 0xF4 => some (fun i s => let r := s.regs i; .done (s.writeP i (i.ins.mod7 % 8) fun l => compareCc (i.ins.mod7 / 8) 32 (r.x i.ins.d l).toNat i.ins.imm.toNat))
  | 0xF5 => some gcmpiEff
  | 0xF6 => some (capped Ins.dsts fun i s => laneValN 1 (fun x => (x.old &&& i.ins.imm.toNat, 0)) i s)
  | _ => none

set_option maxRecDepth 100000
set_option maxHeartbeats 2000000
/-- An operation issues with the effect of its op8. -/
theorem exec_op {i : Instr} {w : Words} {eff : Iss → State → Eff} (hw : i.words = some w)
    (he : effectOf (insOfWords w).op = some eff) (s : State) : exec i s = issue (insOfWords w) eff s := by
  cases i
  all_goals first
    | (cases hw; done)
    | (obtain rfl := Option.some.inj hw
       first
        | (cases he; done)
        | (obtain rfl := Option.some.inj he; rfl))

end Sys2Proof.Machine
end

