-- ==== Sys2Proof/Laws/State.lean ====
section
/-! SUPPORT. What each update of State leaves in each field and what each accessor reads after it, so that no proof unfolds a
record update. -/

namespace Sys2Proof

namespace Tbl

variable {α : Type}

@[simp] theorem getD_nil (k : Nat) (d : α) : Tbl.getD [] k d = d := rfl
@[simp] theorem get?_nil (k : Nat) : Tbl.get? ([] : Tbl α) k = none := rfl

theorem getD_set (t : Tbl α) (k j : Nat) (a d : α) : (t.set k a).getD j d = if j = k then a else t.getD j d := by
  induction t with
  | nil => by_cases h : k = j <;> simp [set, getD, h, eq_comm (a := j)]
  | cons p r ih =>
    obtain ⟨i, b⟩ := p
    by_cases hi : i = k
    · subst hi
      by_cases hj : j = i <;> simp [set, getD, hj, eq_comm]
    · by_cases hj : j = k
      · subst hj
        simp only [set, if_neg hi, getD, ih, if_true]
      · simp only [set, if_neg hi, getD, ih, if_neg hj]

theorem get?_set (t : Tbl α) (k j : Nat) (a : α) : (t.set k a).get? j = if j = k then some a else t.get? j := by
  induction t with
  | nil => by_cases h : k = j <;> simp [set, get?, h, eq_comm (a := j)]
  | cons p r ih =>
    obtain ⟨i, b⟩ := p
    by_cases hi : i = k
    · subst hi
      by_cases hj : j = i <;> simp [set, get?, hj, eq_comm]
    · by_cases hj : j = k
      · subst hj
        simp only [set, if_neg hi, get?, ih, if_true]
      · simp only [set, if_neg hi, get?, ih, if_neg hj]

@[simp] theorem getD_set_self (t : Tbl α) (k : Nat) (a d : α) : (t.set k a).getD k d = a := by simp [getD_set]
theorem getD_set_ne (t : Tbl α) {k j : Nat} (h : j ≠ k) (a d : α) : (t.set k a).getD j d = t.getD j d := by simp [getD_set, h]
@[simp] theorem get?_set_self (t : Tbl α) (k : Nat) (a : α) : (t.set k a).get? k = some a := by simp [get?_set]
theorem get?_set_ne (t : Tbl α) {k j : Nat} (h : j ≠ k) (a : α) : (t.set k a).get? j = t.get? j := by simp [get?_set, h]

/-- The later of two writes of a key stands alone. -/
@[simp] theorem set_set (t : Tbl α) (k : Nat) (a b : α) : (t.set k a).set k b = t.set k b := by
  induction t with
  | nil => simp [set]
  | cons p r ih =>
    obtain ⟨i, c⟩ := p
    by_cases hi : i = k
    · simp [set, hi]
    · simp [set, hi, ih]

theorem get?_erase (t : Tbl α) (k j : Nat) : (t.erase k).get? j = if j = k then none else t.get? j := by
  induction t with
  | nil => simp [erase, get?]
  | cons p r ih =>
    obtain ⟨i, b⟩ := p
    unfold erase at ih ⊢
    by_cases hi : i = k
    · subst hi
      by_cases hj : j = i
      · subst hj; simpa using ih
      · simp [get?, ih, hj, Ne.symm hj]
    · by_cases hj : j = k
      · subst hj
        simp [get?, ih, hi]
      · simp [get?, ih, hi, hj]

end Tbl

namespace Machine

/-! Updates of one group. -/

@[simp] theorem State.setGroup_on (s : State) (k : Nat) (x : Group) : (s.setGroup k x).on = s.on := rfl
@[simp] theorem State.setGroup_blocks (s : State) (k : Nat) (x : Group) : (s.setGroup k x).blocks = s.blocks := rfl
@[simp] theorem State.setGroup_grids (s : State) (k : Nat) (x : Group) : (s.setGroup k x).grids = s.grids := rfl
@[simp] theorem State.setGroup_cores (s : State) (k : Nat) (x : Group) : (s.setGroup k x).cores = s.cores := rfl
@[simp] theorem State.setGroup_quads (s : State) (k : Nat) (x : Group) : (s.setGroup k x).quads = s.quads := rfl
@[simp] theorem State.setGroup_dies (s : State) (k : Nat) (x : Group) : (s.setGroup k x).dies = s.dies := rfl
@[simp] theorem State.setGroup_ctxs (s : State) (k : Nat) (x : Group) : (s.setGroup k x).ctxs = s.ctxs := rfl
@[simp] theorem State.setGroup_lqs (s : State) (k : Nat) (x : Group) : (s.setGroup k x).lqs = s.lqs := rfl
@[simp] theorem State.setGroup_mem (s : State) (k : Nat) (x : Group) : (s.setGroup k x).mem = s.mem := rfl
@[simp] theorem State.setGroup_accs (s : State) (k : Nat) (x : Group) : (s.setGroup k x).accs = s.accs := rfl
@[simp] theorem State.setGroup_spads (s : State) (k : Nat) (x : Group) : (s.setGroup k x).spads = s.spads := rfl
@[simp] theorem State.setGroup_steals (s : State) (k : Nat) (x : Group) : (s.setGroup k x).steals = s.steals := rfl
@[simp] theorem State.setGroup_redos (s : State) (k : Nat) (x : Group) : (s.setGroup k x).redos = s.redos := rfl
@[simp] theorem State.setGroup_sigs (s : State) (k : Nat) (x : Group) : (s.setGroup k x).sigs = s.sigs := rfl
@[simp] theorem State.setGroup_notices (s : State) (k : Nat) (x : Group) : (s.setGroup k x).notices = s.notices := rfl
@[simp] theorem State.setGroup_colls (s : State) (k : Nat) (x : Group) : (s.setGroup k x).colls = s.colls := rfl
@[simp] theorem State.setGroup_drains (s : State) (k : Nat) (x : Group) : (s.setGroup k x).drains = s.drains := rfl
@[simp] theorem State.setGroup_bars (s : State) (k : Nat) (x : Group) : (s.setGroup k x).bars = s.bars := rfl
@[simp] theorem State.setGroup_barHeld (s : State) (k : Nat) (x : Group) : (s.setGroup k x).barHeld = s.barHeld := rfl
@[simp] theorem State.setGroup_ports (s : State) (k : Nat) (x : Group) : (s.setGroup k x).ports = s.ports := rfl
@[simp] theorem State.setGroup_rtab (s : State) (k : Nat) (x : Group) : (s.setGroup k x).rtab = s.rtab := rfl
@[simp] theorem State.setGroup_pkg (s : State) (k : Nat) (x : Group) : (s.setGroup k x).pkg = s.pkg := rfl
@[simp] theorem State.setGroup_fabFail (s : State) (k : Nat) (x : Group) : (s.setGroup k x).fabFail = s.fabFail := rfl
@[simp] theorem State.setGroup_out (s : State) (k : Nat) (x : Group) : (s.setGroup k x).out = s.out := rfl
@[simp] theorem State.setGroup_resent (s : State) (k : Nat) (x : Group) : (s.setGroup k x).resent = s.resent := rfl
@[simp] theorem State.setGroup_outHeld (s : State) (k : Nat) (x : Group) : (s.setGroup k x).outHeld = s.outHeld := rfl
@[simp] theorem State.setGroup_parts (s : State) (k : Nat) (x : Group) : (s.setGroup k x).parts = s.parts := rfl
@[simp] theorem State.setGroup_kept (s : State) (k : Nat) (x : Group) : (s.setGroup k x).kept = s.kept := rfl
@[simp] theorem State.setGroup_erasure (s : State) (k : Nat) (x : Group) : (s.setGroup k x).erasure = s.erasure := rfl
@[simp] theorem State.setGroup_hand (s : State) (k : Nat) (x : Group) : (s.setGroup k x).hand = s.hand := rfl
@[simp] theorem State.setGroup_power (s : State) (k : Nat) (x : Group) : (s.setGroup k x).power = s.power := rfl
@[simp] theorem State.setGroup_linkClamped (s : State) (k : Nat) (x : Group) : (s.setGroup k x).linkClamped = s.linkClamped := rfl
@[simp] theorem State.setGroup_nextGrid (s : State) (k : Nat) (x : Group) : (s.setGroup k x).nextGrid = s.nextGrid := rfl
@[simp] theorem State.setGroup_nextBlock (s : State) (k : Nat) (x : Group) : (s.setGroup k x).nextBlock = s.nextBlock := rfl
@[simp] theorem State.setGroup_nextId (s : State) (k : Nat) (x : Group) : (s.setGroup k x).nextId = s.nextId := rfl
@[simp] theorem State.setGroup_fresh (s : State) (k : Nat) (x : Group) : (s.setGroup k x).fresh = s.fresh := rfl
@[simp] theorem State.setGroup_focus (s : State) (k : Nat) (x : Group) : (s.setGroup k x).focus = s.focus := rfl
@[simp] theorem State.setGroup_agenda (s : State) (k : Nat) (x : Group) : (s.setGroup k x).agenda = s.agenda := rfl
@[simp] theorem State.setGroup_groups (s : State) (k : Nat) (x : Group) : (s.setGroup k x).groups = s.groups.set k x := rfl
theorem State.setGroup_get (s : State) (k j : Nat) (x : Group) : (s.setGroup k x).group j = if j = k then x else s.group j := Tbl.getD_set ..
@[simp] theorem State.setGroup_self (s : State) (k : Nat) (x : Group) : (s.setGroup k x).group k = x := by simp [State.setGroup_get]
theorem State.setGroup_ne (s : State) {k j : Nat} (h : j ≠ k) (x : Group) : (s.setGroup k x).group j = s.group j := by simp [State.setGroup_get, h]
theorem State.modGroup_def (s : State) (k : Nat) (f : Group → Group) : s.modGroup k f = s.setGroup k (f (s.group k)) := rfl
@[simp] theorem State.setGroup_block (s : State) (k j : Nat) (x : Group) : (s.setGroup k x).block j = s.block j := rfl
@[simp] theorem State.setGroup_core (s : State) (k j : Nat) (x : Group) : (s.setGroup k x).core j = s.core j := rfl
@[simp] theorem State.setGroup_quad (s : State) (k j : Nat) (x : Group) : (s.setGroup k x).quad j = s.quad j := rfl
@[simp] theorem State.setGroup_die (s : State) (k j : Nat) (x : Group) : (s.setGroup k x).die j = s.die j := rfl
@[simp] theorem State.setGroup_ctx (s : State) (k j : Nat) (x : Group) : (s.setGroup k x).ctx j = s.ctx j := rfl
@[simp] theorem State.setGroup_lq (s : State) (k j : Nat) (x : Group) : (s.setGroup k x).lq j = s.lq j := rfl
@[simp] theorem State.modGroup_on (s : State) (k : Nat) (f : Group → Group) : (s.modGroup k f).on = s.on := rfl
@[simp] theorem State.modGroup_blocks (s : State) (k : Nat) (f : Group → Group) : (s.modGroup k f).blocks = s.blocks := rfl
@[simp] theorem State.modGroup_grids (s : State) (k : Nat) (f : Group → Group) : (s.modGroup k f).grids = s.grids := rfl
@[simp] theorem State.modGroup_cores (s : State) (k : Nat) (f : Group → Group) : (s.modGroup k f).cores = s.cores := rfl
@[simp] theorem State.modGroup_quads (s : State) (k : Nat) (f : Group → Group) : (s.modGroup k f).quads = s.quads := rfl
@[simp] theorem State.modGroup_dies (s : State) (k : Nat) (f : Group → Group) : (s.modGroup k f).dies = s.dies := rfl
@[simp] theorem State.modGroup_ctxs (s : State) (k : Nat) (f : Group → Group) : (s.modGroup k f).ctxs = s.ctxs := rfl
@[simp] theorem State.modGroup_lqs (s : State) (k : Nat) (f : Group → Group) : (s.modGroup k f).lqs = s.lqs := rfl
@[simp] theorem State.modGroup_mem (s : State) (k : Nat) (f : Group → Group) : (s.modGroup k f).mem = s.mem := rfl
@[simp] theorem State.modGroup_accs (s : State) (k : Nat) (f : Group → Group) : (s.modGroup k f).accs = s.accs := rfl
@[simp] theorem State.modGroup_spads (s : State) (k : Nat) (f : Group → Group) : (s.modGroup k f).spads = s.spads := rfl
@[simp] theorem State.modGroup_steals (s : State) (k : Nat) (f : Group → Group) : (s.modGroup k f).steals = s.steals := rfl
@[simp] theorem State.modGroup_redos (s : State) (k : Nat) (f : Group → Group) : (s.modGroup k f).redos = s.redos := rfl
@[simp] theorem State.modGroup_sigs (s : State) (k : Nat) (f : Group → Group) : (s.modGroup k f).sigs = s.sigs := rfl
@[simp] theorem State.modGroup_notices (s : State) (k : Nat) (f : Group → Group) : (s.modGroup k f).notices = s.notices := rfl
@[simp] theorem State.modGroup_colls (s : State) (k : Nat) (f : Group → Group) : (s.modGroup k f).colls = s.colls := rfl
@[simp] theorem State.modGroup_drains (s : State) (k : Nat) (f : Group → Group) : (s.modGroup k f).drains = s.drains := rfl
@[simp] theorem State.modGroup_bars (s : State) (k : Nat) (f : Group → Group) : (s.modGroup k f).bars = s.bars := rfl
@[simp] theorem State.modGroup_barHeld (s : State) (k : Nat) (f : Group → Group) : (s.modGroup k f).barHeld = s.barHeld := rfl
@[simp] theorem State.modGroup_ports (s : State) (k : Nat) (f : Group → Group) : (s.modGroup k f).ports = s.ports := rfl
@[simp] theorem State.modGroup_rtab (s : State) (k : Nat) (f : Group → Group) : (s.modGroup k f).rtab = s.rtab := rfl
@[simp] theorem State.modGroup_pkg (s : State) (k : Nat) (f : Group → Group) : (s.modGroup k f).pkg = s.pkg := rfl
@[simp] theorem State.modGroup_fabFail (s : State) (k : Nat) (f : Group → Group) : (s.modGroup k f).fabFail = s.fabFail := rfl
@[simp] theorem State.modGroup_out (s : State) (k : Nat) (f : Group → Group) : (s.modGroup k f).out = s.out := rfl
@[simp] theorem State.modGroup_resent (s : State) (k : Nat) (f : Group → Group) : (s.modGroup k f).resent = s.resent := rfl
@[simp] theorem State.modGroup_outHeld (s : State) (k : Nat) (f : Group → Group) : (s.modGroup k f).outHeld = s.outHeld := rfl
@[simp] theorem State.modGroup_parts (s : State) (k : Nat) (f : Group → Group) : (s.modGroup k f).parts = s.parts := rfl
@[simp] theorem State.modGroup_kept (s : State) (k : Nat) (f : Group → Group) : (s.modGroup k f).kept = s.kept := rfl
@[simp] theorem State.modGroup_erasure (s : State) (k : Nat) (f : Group → Group) : (s.modGroup k f).erasure = s.erasure := rfl
@[simp] theorem State.modGroup_hand (s : State) (k : Nat) (f : Group → Group) : (s.modGroup k f).hand = s.hand := rfl
@[simp] theorem State.modGroup_power (s : State) (k : Nat) (f : Group → Group) : (s.modGroup k f).power = s.power := rfl
@[simp] theorem State.modGroup_linkClamped (s : State) (k : Nat) (f : Group → Group) : (s.modGroup k f).linkClamped = s.linkClamped := rfl
@[simp] theorem State.modGroup_nextGrid (s : State) (k : Nat) (f : Group → Group) : (s.modGroup k f).nextGrid = s.nextGrid := rfl
@[simp] theorem State.modGroup_nextBlock (s : State) (k : Nat) (f : Group → Group) : (s.modGroup k f).nextBlock = s.nextBlock := rfl
@[simp] theorem State.modGroup_nextId (s : State) (k : Nat) (f : Group → Group) : (s.modGroup k f).nextId = s.nextId := rfl
@[simp] theorem State.modGroup_fresh (s : State) (k : Nat) (f : Group → Group) : (s.modGroup k f).fresh = s.fresh := rfl
@[simp] theorem State.modGroup_focus (s : State) (k : Nat) (f : Group → Group) : (s.modGroup k f).focus = s.focus := rfl
@[simp] theorem State.modGroup_agenda (s : State) (k : Nat) (f : Group → Group) : (s.modGroup k f).agenda = s.agenda := rfl
theorem State.modGroup_get (s : State) (k j : Nat) (f : Group → Group) : (s.modGroup k f).group j = if j = k then f (s.group k) else s.group j := State.setGroup_get ..
@[simp] theorem State.modGroup_self (s : State) (k : Nat) (f : Group → Group) : (s.modGroup k f).group k = f (s.group k) := State.setGroup_self ..
@[simp] theorem State.modGroup_modGroup (s : State) (k : Nat) (f h : Group → Group) : (s.modGroup k f).modGroup k h = s.modGroup k fun x => h (f x) := by
  unfold State.modGroup State.setGroup; simp only [Tbl.set_set]; unfold State.group; simp
theorem State.modGroup_ne (s : State) {k j : Nat} (h : j ≠ k) (f : Group → Group) : (s.modGroup k f).group j = s.group j := State.setGroup_ne s h _
@[simp] theorem State.modGroup_block (s : State) (k j : Nat) (f : Group → Group) : (s.modGroup k f).block j = s.block j := rfl
@[simp] theorem State.modGroup_core (s : State) (k j : Nat) (f : Group → Group) : (s.modGroup k f).core j = s.core j := rfl
@[simp] theorem State.modGroup_quad (s : State) (k j : Nat) (f : Group → Group) : (s.modGroup k f).quad j = s.quad j := rfl
@[simp] theorem State.modGroup_die (s : State) (k j : Nat) (f : Group → Group) : (s.modGroup k f).die j = s.die j := rfl
@[simp] theorem State.modGroup_ctx (s : State) (k j : Nat) (f : Group → Group) : (s.modGroup k f).ctx j = s.ctx j := rfl
@[simp] theorem State.modGroup_lq (s : State) (k j : Nat) (f : Group → Group) : (s.modGroup k f).lq j = s.lq j := rfl

/-! Updates of one block. -/

@[simp] theorem State.setBlock_on (s : State) (k : Nat) (x : Block) : (s.setBlock k x).on = s.on := rfl
@[simp] theorem State.setBlock_groups (s : State) (k : Nat) (x : Block) : (s.setBlock k x).groups = s.groups := rfl
@[simp] theorem State.setBlock_grids (s : State) (k : Nat) (x : Block) : (s.setBlock k x).grids = s.grids := rfl
@[simp] theorem State.setBlock_cores (s : State) (k : Nat) (x : Block) : (s.setBlock k x).cores = s.cores := rfl
@[simp] theorem State.setBlock_quads (s : State) (k : Nat) (x : Block) : (s.setBlock k x).quads = s.quads := rfl
@[simp] theorem State.setBlock_dies (s : State) (k : Nat) (x : Block) : (s.setBlock k x).dies = s.dies := rfl
@[simp] theorem State.setBlock_ctxs (s : State) (k : Nat) (x : Block) : (s.setBlock k x).ctxs = s.ctxs := rfl
@[simp] theorem State.setBlock_lqs (s : State) (k : Nat) (x : Block) : (s.setBlock k x).lqs = s.lqs := rfl
@[simp] theorem State.setBlock_mem (s : State) (k : Nat) (x : Block) : (s.setBlock k x).mem = s.mem := rfl
@[simp] theorem State.setBlock_accs (s : State) (k : Nat) (x : Block) : (s.setBlock k x).accs = s.accs := rfl
@[simp] theorem State.setBlock_spads (s : State) (k : Nat) (x : Block) : (s.setBlock k x).spads = s.spads := rfl
@[simp] theorem State.setBlock_steals (s : State) (k : Nat) (x : Block) : (s.setBlock k x).steals = s.steals := rfl
@[simp] theorem State.setBlock_redos (s : State) (k : Nat) (x : Block) : (s.setBlock k x).redos = s.redos := rfl
@[simp] theorem State.setBlock_sigs (s : State) (k : Nat) (x : Block) : (s.setBlock k x).sigs = s.sigs := rfl
@[simp] theorem State.setBlock_notices (s : State) (k : Nat) (x : Block) : (s.setBlock k x).notices = s.notices := rfl
@[simp] theorem State.setBlock_colls (s : State) (k : Nat) (x : Block) : (s.setBlock k x).colls = s.colls := rfl
@[simp] theorem State.setBlock_drains (s : State) (k : Nat) (x : Block) : (s.setBlock k x).drains = s.drains := rfl
@[simp] theorem State.setBlock_bars (s : State) (k : Nat) (x : Block) : (s.setBlock k x).bars = s.bars := rfl
@[simp] theorem State.setBlock_barHeld (s : State) (k : Nat) (x : Block) : (s.setBlock k x).barHeld = s.barHeld := rfl
@[simp] theorem State.setBlock_ports (s : State) (k : Nat) (x : Block) : (s.setBlock k x).ports = s.ports := rfl
@[simp] theorem State.setBlock_rtab (s : State) (k : Nat) (x : Block) : (s.setBlock k x).rtab = s.rtab := rfl
@[simp] theorem State.setBlock_pkg (s : State) (k : Nat) (x : Block) : (s.setBlock k x).pkg = s.pkg := rfl
@[simp] theorem State.setBlock_fabFail (s : State) (k : Nat) (x : Block) : (s.setBlock k x).fabFail = s.fabFail := rfl
@[simp] theorem State.setBlock_out (s : State) (k : Nat) (x : Block) : (s.setBlock k x).out = s.out := rfl
@[simp] theorem State.setBlock_resent (s : State) (k : Nat) (x : Block) : (s.setBlock k x).resent = s.resent := rfl
@[simp] theorem State.setBlock_outHeld (s : State) (k : Nat) (x : Block) : (s.setBlock k x).outHeld = s.outHeld := rfl
@[simp] theorem State.setBlock_parts (s : State) (k : Nat) (x : Block) : (s.setBlock k x).parts = s.parts := rfl
@[simp] theorem State.setBlock_kept (s : State) (k : Nat) (x : Block) : (s.setBlock k x).kept = s.kept := rfl
@[simp] theorem State.setBlock_erasure (s : State) (k : Nat) (x : Block) : (s.setBlock k x).erasure = s.erasure := rfl
@[simp] theorem State.setBlock_hand (s : State) (k : Nat) (x : Block) : (s.setBlock k x).hand = s.hand := rfl
@[simp] theorem State.setBlock_power (s : State) (k : Nat) (x : Block) : (s.setBlock k x).power = s.power := rfl
@[simp] theorem State.setBlock_linkClamped (s : State) (k : Nat) (x : Block) : (s.setBlock k x).linkClamped = s.linkClamped := rfl
@[simp] theorem State.setBlock_nextGrid (s : State) (k : Nat) (x : Block) : (s.setBlock k x).nextGrid = s.nextGrid := rfl
@[simp] theorem State.setBlock_nextBlock (s : State) (k : Nat) (x : Block) : (s.setBlock k x).nextBlock = s.nextBlock := rfl
@[simp] theorem State.setBlock_nextId (s : State) (k : Nat) (x : Block) : (s.setBlock k x).nextId = s.nextId := rfl
@[simp] theorem State.setBlock_fresh (s : State) (k : Nat) (x : Block) : (s.setBlock k x).fresh = s.fresh := rfl
@[simp] theorem State.setBlock_focus (s : State) (k : Nat) (x : Block) : (s.setBlock k x).focus = s.focus := rfl
@[simp] theorem State.setBlock_agenda (s : State) (k : Nat) (x : Block) : (s.setBlock k x).agenda = s.agenda := rfl
@[simp] theorem State.setBlock_blocks (s : State) (k : Nat) (x : Block) : (s.setBlock k x).blocks = s.blocks.set k x := rfl
theorem State.setBlock_get (s : State) (k j : Nat) (x : Block) : (s.setBlock k x).block j = if j = k then x else s.block j := Tbl.getD_set ..
@[simp] theorem State.setBlock_self (s : State) (k : Nat) (x : Block) : (s.setBlock k x).block k = x := by simp [State.setBlock_get]
theorem State.setBlock_ne (s : State) {k j : Nat} (h : j ≠ k) (x : Block) : (s.setBlock k x).block j = s.block j := by simp [State.setBlock_get, h]
theorem State.modBlock_def (s : State) (k : Nat) (f : Block → Block) : s.modBlock k f = s.setBlock k (f (s.block k)) := rfl
@[simp] theorem State.setBlock_group (s : State) (k j : Nat) (x : Block) : (s.setBlock k x).group j = s.group j := rfl
@[simp] theorem State.setBlock_core (s : State) (k j : Nat) (x : Block) : (s.setBlock k x).core j = s.core j := rfl
@[simp] theorem State.setBlock_quad (s : State) (k j : Nat) (x : Block) : (s.setBlock k x).quad j = s.quad j := rfl
@[simp] theorem State.setBlock_die (s : State) (k j : Nat) (x : Block) : (s.setBlock k x).die j = s.die j := rfl
@[simp] theorem State.setBlock_ctx (s : State) (k j : Nat) (x : Block) : (s.setBlock k x).ctx j = s.ctx j := rfl
@[simp] theorem State.setBlock_lq (s : State) (k j : Nat) (x : Block) : (s.setBlock k x).lq j = s.lq j := rfl
@[simp] theorem State.modBlock_on (s : State) (k : Nat) (f : Block → Block) : (s.modBlock k f).on = s.on := rfl
@[simp] theorem State.modBlock_groups (s : State) (k : Nat) (f : Block → Block) : (s.modBlock k f).groups = s.groups := rfl
@[simp] theorem State.modBlock_grids (s : State) (k : Nat) (f : Block → Block) : (s.modBlock k f).grids = s.grids := rfl
@[simp] theorem State.modBlock_cores (s : State) (k : Nat) (f : Block → Block) : (s.modBlock k f).cores = s.cores := rfl
@[simp] theorem State.modBlock_quads (s : State) (k : Nat) (f : Block → Block) : (s.modBlock k f).quads = s.quads := rfl
@[simp] theorem State.modBlock_dies (s : State) (k : Nat) (f : Block → Block) : (s.modBlock k f).dies = s.dies := rfl
@[simp] theorem State.modBlock_ctxs (s : State) (k : Nat) (f : Block → Block) : (s.modBlock k f).ctxs = s.ctxs := rfl
@[simp] theorem State.modBlock_lqs (s : State) (k : Nat) (f : Block → Block) : (s.modBlock k f).lqs = s.lqs := rfl
@[simp] theorem State.modBlock_mem (s : State) (k : Nat) (f : Block → Block) : (s.modBlock k f).mem = s.mem := rfl
@[simp] theorem State.modBlock_accs (s : State) (k : Nat) (f : Block → Block) : (s.modBlock k f).accs = s.accs := rfl
@[simp] theorem State.modBlock_spads (s : State) (k : Nat) (f : Block → Block) : (s.modBlock k f).spads = s.spads := rfl
@[simp] theorem State.modBlock_steals (s : State) (k : Nat) (f : Block → Block) : (s.modBlock k f).steals = s.steals := rfl
@[simp] theorem State.modBlock_redos (s : State) (k : Nat) (f : Block → Block) : (s.modBlock k f).redos = s.redos := rfl
@[simp] theorem State.modBlock_sigs (s : State) (k : Nat) (f : Block → Block) : (s.modBlock k f).sigs = s.sigs := rfl
@[simp] theorem State.modBlock_notices (s : State) (k : Nat) (f : Block → Block) : (s.modBlock k f).notices = s.notices := rfl
@[simp] theorem State.modBlock_colls (s : State) (k : Nat) (f : Block → Block) : (s.modBlock k f).colls = s.colls := rfl
@[simp] theorem State.modBlock_drains (s : State) (k : Nat) (f : Block → Block) : (s.modBlock k f).drains = s.drains := rfl
@[simp] theorem State.modBlock_bars (s : State) (k : Nat) (f : Block → Block) : (s.modBlock k f).bars = s.bars := rfl
@[simp] theorem State.modBlock_barHeld (s : State) (k : Nat) (f : Block → Block) : (s.modBlock k f).barHeld = s.barHeld := rfl
@[simp] theorem State.modBlock_ports (s : State) (k : Nat) (f : Block → Block) : (s.modBlock k f).ports = s.ports := rfl
@[simp] theorem State.modBlock_rtab (s : State) (k : Nat) (f : Block → Block) : (s.modBlock k f).rtab = s.rtab := rfl
@[simp] theorem State.modBlock_pkg (s : State) (k : Nat) (f : Block → Block) : (s.modBlock k f).pkg = s.pkg := rfl
@[simp] theorem State.modBlock_fabFail (s : State) (k : Nat) (f : Block → Block) : (s.modBlock k f).fabFail = s.fabFail := rfl
@[simp] theorem State.modBlock_out (s : State) (k : Nat) (f : Block → Block) : (s.modBlock k f).out = s.out := rfl
@[simp] theorem State.modBlock_resent (s : State) (k : Nat) (f : Block → Block) : (s.modBlock k f).resent = s.resent := rfl
@[simp] theorem State.modBlock_outHeld (s : State) (k : Nat) (f : Block → Block) : (s.modBlock k f).outHeld = s.outHeld := rfl
@[simp] theorem State.modBlock_parts (s : State) (k : Nat) (f : Block → Block) : (s.modBlock k f).parts = s.parts := rfl
@[simp] theorem State.modBlock_kept (s : State) (k : Nat) (f : Block → Block) : (s.modBlock k f).kept = s.kept := rfl
@[simp] theorem State.modBlock_erasure (s : State) (k : Nat) (f : Block → Block) : (s.modBlock k f).erasure = s.erasure := rfl
@[simp] theorem State.modBlock_hand (s : State) (k : Nat) (f : Block → Block) : (s.modBlock k f).hand = s.hand := rfl
@[simp] theorem State.modBlock_power (s : State) (k : Nat) (f : Block → Block) : (s.modBlock k f).power = s.power := rfl
@[simp] theorem State.modBlock_linkClamped (s : State) (k : Nat) (f : Block → Block) : (s.modBlock k f).linkClamped = s.linkClamped := rfl
@[simp] theorem State.modBlock_nextGrid (s : State) (k : Nat) (f : Block → Block) : (s.modBlock k f).nextGrid = s.nextGrid := rfl
@[simp] theorem State.modBlock_nextBlock (s : State) (k : Nat) (f : Block → Block) : (s.modBlock k f).nextBlock = s.nextBlock := rfl
@[simp] theorem State.modBlock_nextId (s : State) (k : Nat) (f : Block → Block) : (s.modBlock k f).nextId = s.nextId := rfl
@[simp] theorem State.modBlock_fresh (s : State) (k : Nat) (f : Block → Block) : (s.modBlock k f).fresh = s.fresh := rfl
@[simp] theorem State.modBlock_focus (s : State) (k : Nat) (f : Block → Block) : (s.modBlock k f).focus = s.focus := rfl
@[simp] theorem State.modBlock_agenda (s : State) (k : Nat) (f : Block → Block) : (s.modBlock k f).agenda = s.agenda := rfl
theorem State.modBlock_get (s : State) (k j : Nat) (f : Block → Block) : (s.modBlock k f).block j = if j = k then f (s.block k) else s.block j := State.setBlock_get ..
@[simp] theorem State.modBlock_self (s : State) (k : Nat) (f : Block → Block) : (s.modBlock k f).block k = f (s.block k) := State.setBlock_self ..
@[simp] theorem State.modBlock_modBlock (s : State) (k : Nat) (f h : Block → Block) : (s.modBlock k f).modBlock k h = s.modBlock k fun x => h (f x) := by
  unfold State.modBlock State.setBlock; simp only [Tbl.set_set]; unfold State.block; simp
theorem State.modBlock_ne (s : State) {k j : Nat} (h : j ≠ k) (f : Block → Block) : (s.modBlock k f).block j = s.block j := State.setBlock_ne s h _
@[simp] theorem State.modBlock_group (s : State) (k j : Nat) (f : Block → Block) : (s.modBlock k f).group j = s.group j := rfl
@[simp] theorem State.modBlock_core (s : State) (k j : Nat) (f : Block → Block) : (s.modBlock k f).core j = s.core j := rfl
@[simp] theorem State.modBlock_quad (s : State) (k j : Nat) (f : Block → Block) : (s.modBlock k f).quad j = s.quad j := rfl
@[simp] theorem State.modBlock_die (s : State) (k j : Nat) (f : Block → Block) : (s.modBlock k f).die j = s.die j := rfl
@[simp] theorem State.modBlock_ctx (s : State) (k j : Nat) (f : Block → Block) : (s.modBlock k f).ctx j = s.ctx j := rfl
@[simp] theorem State.modBlock_lq (s : State) (k j : Nat) (f : Block → Block) : (s.modBlock k f).lq j = s.lq j := rfl

/-! Updates of one core. -/

@[simp] theorem State.setCore_on (s : State) (k : Nat) (x : Core) : (s.setCore k x).on = s.on := rfl
@[simp] theorem State.setCore_groups (s : State) (k : Nat) (x : Core) : (s.setCore k x).groups = s.groups := rfl
@[simp] theorem State.setCore_blocks (s : State) (k : Nat) (x : Core) : (s.setCore k x).blocks = s.blocks := rfl
@[simp] theorem State.setCore_grids (s : State) (k : Nat) (x : Core) : (s.setCore k x).grids = s.grids := rfl
@[simp] theorem State.setCore_quads (s : State) (k : Nat) (x : Core) : (s.setCore k x).quads = s.quads := rfl
@[simp] theorem State.setCore_dies (s : State) (k : Nat) (x : Core) : (s.setCore k x).dies = s.dies := rfl
@[simp] theorem State.setCore_ctxs (s : State) (k : Nat) (x : Core) : (s.setCore k x).ctxs = s.ctxs := rfl
@[simp] theorem State.setCore_lqs (s : State) (k : Nat) (x : Core) : (s.setCore k x).lqs = s.lqs := rfl
@[simp] theorem State.setCore_mem (s : State) (k : Nat) (x : Core) : (s.setCore k x).mem = s.mem := rfl
@[simp] theorem State.setCore_accs (s : State) (k : Nat) (x : Core) : (s.setCore k x).accs = s.accs := rfl
@[simp] theorem State.setCore_spads (s : State) (k : Nat) (x : Core) : (s.setCore k x).spads = s.spads := rfl
@[simp] theorem State.setCore_steals (s : State) (k : Nat) (x : Core) : (s.setCore k x).steals = s.steals := rfl
@[simp] theorem State.setCore_redos (s : State) (k : Nat) (x : Core) : (s.setCore k x).redos = s.redos := rfl
@[simp] theorem State.setCore_sigs (s : State) (k : Nat) (x : Core) : (s.setCore k x).sigs = s.sigs := rfl
@[simp] theorem State.setCore_notices (s : State) (k : Nat) (x : Core) : (s.setCore k x).notices = s.notices := rfl
@[simp] theorem State.setCore_colls (s : State) (k : Nat) (x : Core) : (s.setCore k x).colls = s.colls := rfl
@[simp] theorem State.setCore_drains (s : State) (k : Nat) (x : Core) : (s.setCore k x).drains = s.drains := rfl
@[simp] theorem State.setCore_bars (s : State) (k : Nat) (x : Core) : (s.setCore k x).bars = s.bars := rfl
@[simp] theorem State.setCore_barHeld (s : State) (k : Nat) (x : Core) : (s.setCore k x).barHeld = s.barHeld := rfl
@[simp] theorem State.setCore_ports (s : State) (k : Nat) (x : Core) : (s.setCore k x).ports = s.ports := rfl
@[simp] theorem State.setCore_rtab (s : State) (k : Nat) (x : Core) : (s.setCore k x).rtab = s.rtab := rfl
@[simp] theorem State.setCore_pkg (s : State) (k : Nat) (x : Core) : (s.setCore k x).pkg = s.pkg := rfl
@[simp] theorem State.setCore_fabFail (s : State) (k : Nat) (x : Core) : (s.setCore k x).fabFail = s.fabFail := rfl
@[simp] theorem State.setCore_out (s : State) (k : Nat) (x : Core) : (s.setCore k x).out = s.out := rfl
@[simp] theorem State.setCore_resent (s : State) (k : Nat) (x : Core) : (s.setCore k x).resent = s.resent := rfl
@[simp] theorem State.setCore_outHeld (s : State) (k : Nat) (x : Core) : (s.setCore k x).outHeld = s.outHeld := rfl
@[simp] theorem State.setCore_parts (s : State) (k : Nat) (x : Core) : (s.setCore k x).parts = s.parts := rfl
@[simp] theorem State.setCore_kept (s : State) (k : Nat) (x : Core) : (s.setCore k x).kept = s.kept := rfl
@[simp] theorem State.setCore_erasure (s : State) (k : Nat) (x : Core) : (s.setCore k x).erasure = s.erasure := rfl
@[simp] theorem State.setCore_hand (s : State) (k : Nat) (x : Core) : (s.setCore k x).hand = s.hand := rfl
@[simp] theorem State.setCore_power (s : State) (k : Nat) (x : Core) : (s.setCore k x).power = s.power := rfl
@[simp] theorem State.setCore_linkClamped (s : State) (k : Nat) (x : Core) : (s.setCore k x).linkClamped = s.linkClamped := rfl
@[simp] theorem State.setCore_nextGrid (s : State) (k : Nat) (x : Core) : (s.setCore k x).nextGrid = s.nextGrid := rfl
@[simp] theorem State.setCore_nextBlock (s : State) (k : Nat) (x : Core) : (s.setCore k x).nextBlock = s.nextBlock := rfl
@[simp] theorem State.setCore_nextId (s : State) (k : Nat) (x : Core) : (s.setCore k x).nextId = s.nextId := rfl
@[simp] theorem State.setCore_fresh (s : State) (k : Nat) (x : Core) : (s.setCore k x).fresh = s.fresh := rfl
@[simp] theorem State.setCore_focus (s : State) (k : Nat) (x : Core) : (s.setCore k x).focus = s.focus := rfl
@[simp] theorem State.setCore_agenda (s : State) (k : Nat) (x : Core) : (s.setCore k x).agenda = s.agenda := rfl
@[simp] theorem State.setCore_cores (s : State) (k : Nat) (x : Core) : (s.setCore k x).cores = s.cores.set k x := rfl
theorem State.setCore_get (s : State) (k j : Nat) (x : Core) : (s.setCore k x).core j = if j = k then x else s.core j := Tbl.getD_set ..
@[simp] theorem State.setCore_self (s : State) (k : Nat) (x : Core) : (s.setCore k x).core k = x := by simp [State.setCore_get]
theorem State.setCore_ne (s : State) {k j : Nat} (h : j ≠ k) (x : Core) : (s.setCore k x).core j = s.core j := by simp [State.setCore_get, h]
theorem State.modCore_def (s : State) (k : Nat) (f : Core → Core) : s.modCore k f = s.setCore k (f (s.core k)) := rfl
@[simp] theorem State.setCore_group (s : State) (k j : Nat) (x : Core) : (s.setCore k x).group j = s.group j := rfl
@[simp] theorem State.setCore_block (s : State) (k j : Nat) (x : Core) : (s.setCore k x).block j = s.block j := rfl
@[simp] theorem State.setCore_quad (s : State) (k j : Nat) (x : Core) : (s.setCore k x).quad j = s.quad j := rfl
@[simp] theorem State.setCore_die (s : State) (k j : Nat) (x : Core) : (s.setCore k x).die j = s.die j := rfl
@[simp] theorem State.setCore_ctx (s : State) (k j : Nat) (x : Core) : (s.setCore k x).ctx j = s.ctx j := rfl
@[simp] theorem State.setCore_lq (s : State) (k j : Nat) (x : Core) : (s.setCore k x).lq j = s.lq j := rfl
@[simp] theorem State.modCore_on (s : State) (k : Nat) (f : Core → Core) : (s.modCore k f).on = s.on := rfl
@[simp] theorem State.modCore_groups (s : State) (k : Nat) (f : Core → Core) : (s.modCore k f).groups = s.groups := rfl
@[simp] theorem State.modCore_blocks (s : State) (k : Nat) (f : Core → Core) : (s.modCore k f).blocks = s.blocks := rfl
@[simp] theorem State.modCore_grids (s : State) (k : Nat) (f : Core → Core) : (s.modCore k f).grids = s.grids := rfl
@[simp] theorem State.modCore_quads (s : State) (k : Nat) (f : Core → Core) : (s.modCore k f).quads = s.quads := rfl
@[simp] theorem State.modCore_dies (s : State) (k : Nat) (f : Core → Core) : (s.modCore k f).dies = s.dies := rfl
@[simp] theorem State.modCore_ctxs (s : State) (k : Nat) (f : Core → Core) : (s.modCore k f).ctxs = s.ctxs := rfl
@[simp] theorem State.modCore_lqs (s : State) (k : Nat) (f : Core → Core) : (s.modCore k f).lqs = s.lqs := rfl
@[simp] theorem State.modCore_mem (s : State) (k : Nat) (f : Core → Core) : (s.modCore k f).mem = s.mem := rfl
@[simp] theorem State.modCore_accs (s : State) (k : Nat) (f : Core → Core) : (s.modCore k f).accs = s.accs := rfl
@[simp] theorem State.modCore_spads (s : State) (k : Nat) (f : Core → Core) : (s.modCore k f).spads = s.spads := rfl
@[simp] theorem State.modCore_steals (s : State) (k : Nat) (f : Core → Core) : (s.modCore k f).steals = s.steals := rfl
@[simp] theorem State.modCore_redos (s : State) (k : Nat) (f : Core → Core) : (s.modCore k f).redos = s.redos := rfl
@[simp] theorem State.modCore_sigs (s : State) (k : Nat) (f : Core → Core) : (s.modCore k f).sigs = s.sigs := rfl
@[simp] theorem State.modCore_notices (s : State) (k : Nat) (f : Core → Core) : (s.modCore k f).notices = s.notices := rfl
@[simp] theorem State.modCore_colls (s : State) (k : Nat) (f : Core → Core) : (s.modCore k f).colls = s.colls := rfl
@[simp] theorem State.modCore_drains (s : State) (k : Nat) (f : Core → Core) : (s.modCore k f).drains = s.drains := rfl
@[simp] theorem State.modCore_bars (s : State) (k : Nat) (f : Core → Core) : (s.modCore k f).bars = s.bars := rfl
@[simp] theorem State.modCore_barHeld (s : State) (k : Nat) (f : Core → Core) : (s.modCore k f).barHeld = s.barHeld := rfl
@[simp] theorem State.modCore_ports (s : State) (k : Nat) (f : Core → Core) : (s.modCore k f).ports = s.ports := rfl
@[simp] theorem State.modCore_rtab (s : State) (k : Nat) (f : Core → Core) : (s.modCore k f).rtab = s.rtab := rfl
@[simp] theorem State.modCore_pkg (s : State) (k : Nat) (f : Core → Core) : (s.modCore k f).pkg = s.pkg := rfl
@[simp] theorem State.modCore_fabFail (s : State) (k : Nat) (f : Core → Core) : (s.modCore k f).fabFail = s.fabFail := rfl
@[simp] theorem State.modCore_out (s : State) (k : Nat) (f : Core → Core) : (s.modCore k f).out = s.out := rfl
@[simp] theorem State.modCore_resent (s : State) (k : Nat) (f : Core → Core) : (s.modCore k f).resent = s.resent := rfl
@[simp] theorem State.modCore_outHeld (s : State) (k : Nat) (f : Core → Core) : (s.modCore k f).outHeld = s.outHeld := rfl
@[simp] theorem State.modCore_parts (s : State) (k : Nat) (f : Core → Core) : (s.modCore k f).parts = s.parts := rfl
@[simp] theorem State.modCore_kept (s : State) (k : Nat) (f : Core → Core) : (s.modCore k f).kept = s.kept := rfl
@[simp] theorem State.modCore_erasure (s : State) (k : Nat) (f : Core → Core) : (s.modCore k f).erasure = s.erasure := rfl
@[simp] theorem State.modCore_hand (s : State) (k : Nat) (f : Core → Core) : (s.modCore k f).hand = s.hand := rfl
@[simp] theorem State.modCore_power (s : State) (k : Nat) (f : Core → Core) : (s.modCore k f).power = s.power := rfl
@[simp] theorem State.modCore_linkClamped (s : State) (k : Nat) (f : Core → Core) : (s.modCore k f).linkClamped = s.linkClamped := rfl
@[simp] theorem State.modCore_nextGrid (s : State) (k : Nat) (f : Core → Core) : (s.modCore k f).nextGrid = s.nextGrid := rfl
@[simp] theorem State.modCore_nextBlock (s : State) (k : Nat) (f : Core → Core) : (s.modCore k f).nextBlock = s.nextBlock := rfl
@[simp] theorem State.modCore_nextId (s : State) (k : Nat) (f : Core → Core) : (s.modCore k f).nextId = s.nextId := rfl
@[simp] theorem State.modCore_fresh (s : State) (k : Nat) (f : Core → Core) : (s.modCore k f).fresh = s.fresh := rfl
@[simp] theorem State.modCore_focus (s : State) (k : Nat) (f : Core → Core) : (s.modCore k f).focus = s.focus := rfl
@[simp] theorem State.modCore_agenda (s : State) (k : Nat) (f : Core → Core) : (s.modCore k f).agenda = s.agenda := rfl
theorem State.modCore_get (s : State) (k j : Nat) (f : Core → Core) : (s.modCore k f).core j = if j = k then f (s.core k) else s.core j := State.setCore_get ..
@[simp] theorem State.modCore_self (s : State) (k : Nat) (f : Core → Core) : (s.modCore k f).core k = f (s.core k) := State.setCore_self ..
@[simp] theorem State.modCore_modCore (s : State) (k : Nat) (f h : Core → Core) : (s.modCore k f).modCore k h = s.modCore k fun x => h (f x) := by
  unfold State.modCore State.setCore; simp only [Tbl.set_set]; unfold State.core; simp
theorem State.modCore_ne (s : State) {k j : Nat} (h : j ≠ k) (f : Core → Core) : (s.modCore k f).core j = s.core j := State.setCore_ne s h _
@[simp] theorem State.modCore_group (s : State) (k j : Nat) (f : Core → Core) : (s.modCore k f).group j = s.group j := rfl
@[simp] theorem State.modCore_block (s : State) (k j : Nat) (f : Core → Core) : (s.modCore k f).block j = s.block j := rfl
@[simp] theorem State.modCore_quad (s : State) (k j : Nat) (f : Core → Core) : (s.modCore k f).quad j = s.quad j := rfl
@[simp] theorem State.modCore_die (s : State) (k j : Nat) (f : Core → Core) : (s.modCore k f).die j = s.die j := rfl
@[simp] theorem State.modCore_ctx (s : State) (k j : Nat) (f : Core → Core) : (s.modCore k f).ctx j = s.ctx j := rfl
@[simp] theorem State.modCore_lq (s : State) (k j : Nat) (f : Core → Core) : (s.modCore k f).lq j = s.lq j := rfl

/-! Updates of one quad. -/

@[simp] theorem State.setQuad_on (s : State) (k : Nat) (x : Quad) : (s.setQuad k x).on = s.on := rfl
@[simp] theorem State.setQuad_groups (s : State) (k : Nat) (x : Quad) : (s.setQuad k x).groups = s.groups := rfl
@[simp] theorem State.setQuad_blocks (s : State) (k : Nat) (x : Quad) : (s.setQuad k x).blocks = s.blocks := rfl
@[simp] theorem State.setQuad_grids (s : State) (k : Nat) (x : Quad) : (s.setQuad k x).grids = s.grids := rfl
@[simp] theorem State.setQuad_cores (s : State) (k : Nat) (x : Quad) : (s.setQuad k x).cores = s.cores := rfl
@[simp] theorem State.setQuad_dies (s : State) (k : Nat) (x : Quad) : (s.setQuad k x).dies = s.dies := rfl
@[simp] theorem State.setQuad_ctxs (s : State) (k : Nat) (x : Quad) : (s.setQuad k x).ctxs = s.ctxs := rfl
@[simp] theorem State.setQuad_lqs (s : State) (k : Nat) (x : Quad) : (s.setQuad k x).lqs = s.lqs := rfl
@[simp] theorem State.setQuad_mem (s : State) (k : Nat) (x : Quad) : (s.setQuad k x).mem = s.mem := rfl
@[simp] theorem State.setQuad_accs (s : State) (k : Nat) (x : Quad) : (s.setQuad k x).accs = s.accs := rfl
@[simp] theorem State.setQuad_spads (s : State) (k : Nat) (x : Quad) : (s.setQuad k x).spads = s.spads := rfl
@[simp] theorem State.setQuad_steals (s : State) (k : Nat) (x : Quad) : (s.setQuad k x).steals = s.steals := rfl
@[simp] theorem State.setQuad_redos (s : State) (k : Nat) (x : Quad) : (s.setQuad k x).redos = s.redos := rfl
@[simp] theorem State.setQuad_sigs (s : State) (k : Nat) (x : Quad) : (s.setQuad k x).sigs = s.sigs := rfl
@[simp] theorem State.setQuad_notices (s : State) (k : Nat) (x : Quad) : (s.setQuad k x).notices = s.notices := rfl
@[simp] theorem State.setQuad_colls (s : State) (k : Nat) (x : Quad) : (s.setQuad k x).colls = s.colls := rfl
@[simp] theorem State.setQuad_drains (s : State) (k : Nat) (x : Quad) : (s.setQuad k x).drains = s.drains := rfl
@[simp] theorem State.setQuad_bars (s : State) (k : Nat) (x : Quad) : (s.setQuad k x).bars = s.bars := rfl
@[simp] theorem State.setQuad_barHeld (s : State) (k : Nat) (x : Quad) : (s.setQuad k x).barHeld = s.barHeld := rfl
@[simp] theorem State.setQuad_ports (s : State) (k : Nat) (x : Quad) : (s.setQuad k x).ports = s.ports := rfl
@[simp] theorem State.setQuad_rtab (s : State) (k : Nat) (x : Quad) : (s.setQuad k x).rtab = s.rtab := rfl
@[simp] theorem State.setQuad_pkg (s : State) (k : Nat) (x : Quad) : (s.setQuad k x).pkg = s.pkg := rfl
@[simp] theorem State.setQuad_fabFail (s : State) (k : Nat) (x : Quad) : (s.setQuad k x).fabFail = s.fabFail := rfl
@[simp] theorem State.setQuad_out (s : State) (k : Nat) (x : Quad) : (s.setQuad k x).out = s.out := rfl
@[simp] theorem State.setQuad_resent (s : State) (k : Nat) (x : Quad) : (s.setQuad k x).resent = s.resent := rfl
@[simp] theorem State.setQuad_outHeld (s : State) (k : Nat) (x : Quad) : (s.setQuad k x).outHeld = s.outHeld := rfl
@[simp] theorem State.setQuad_parts (s : State) (k : Nat) (x : Quad) : (s.setQuad k x).parts = s.parts := rfl
@[simp] theorem State.setQuad_kept (s : State) (k : Nat) (x : Quad) : (s.setQuad k x).kept = s.kept := rfl
@[simp] theorem State.setQuad_erasure (s : State) (k : Nat) (x : Quad) : (s.setQuad k x).erasure = s.erasure := rfl
@[simp] theorem State.setQuad_hand (s : State) (k : Nat) (x : Quad) : (s.setQuad k x).hand = s.hand := rfl
@[simp] theorem State.setQuad_power (s : State) (k : Nat) (x : Quad) : (s.setQuad k x).power = s.power := rfl
@[simp] theorem State.setQuad_linkClamped (s : State) (k : Nat) (x : Quad) : (s.setQuad k x).linkClamped = s.linkClamped := rfl
@[simp] theorem State.setQuad_nextGrid (s : State) (k : Nat) (x : Quad) : (s.setQuad k x).nextGrid = s.nextGrid := rfl
@[simp] theorem State.setQuad_nextBlock (s : State) (k : Nat) (x : Quad) : (s.setQuad k x).nextBlock = s.nextBlock := rfl
@[simp] theorem State.setQuad_nextId (s : State) (k : Nat) (x : Quad) : (s.setQuad k x).nextId = s.nextId := rfl
@[simp] theorem State.setQuad_fresh (s : State) (k : Nat) (x : Quad) : (s.setQuad k x).fresh = s.fresh := rfl
@[simp] theorem State.setQuad_focus (s : State) (k : Nat) (x : Quad) : (s.setQuad k x).focus = s.focus := rfl
@[simp] theorem State.setQuad_agenda (s : State) (k : Nat) (x : Quad) : (s.setQuad k x).agenda = s.agenda := rfl
@[simp] theorem State.setQuad_quads (s : State) (k : Nat) (x : Quad) : (s.setQuad k x).quads = s.quads.set k x := rfl
theorem State.setQuad_get (s : State) (k j : Nat) (x : Quad) : (s.setQuad k x).quad j = if j = k then x else s.quad j := Tbl.getD_set ..
@[simp] theorem State.setQuad_self (s : State) (k : Nat) (x : Quad) : (s.setQuad k x).quad k = x := by simp [State.setQuad_get]
theorem State.setQuad_ne (s : State) {k j : Nat} (h : j ≠ k) (x : Quad) : (s.setQuad k x).quad j = s.quad j := by simp [State.setQuad_get, h]
theorem State.modQuad_def (s : State) (k : Nat) (f : Quad → Quad) : s.modQuad k f = s.setQuad k (f (s.quad k)) := rfl
@[simp] theorem State.setQuad_group (s : State) (k j : Nat) (x : Quad) : (s.setQuad k x).group j = s.group j := rfl
@[simp] theorem State.setQuad_block (s : State) (k j : Nat) (x : Quad) : (s.setQuad k x).block j = s.block j := rfl
@[simp] theorem State.setQuad_core (s : State) (k j : Nat) (x : Quad) : (s.setQuad k x).core j = s.core j := rfl
@[simp] theorem State.setQuad_die (s : State) (k j : Nat) (x : Quad) : (s.setQuad k x).die j = s.die j := rfl
@[simp] theorem State.setQuad_ctx (s : State) (k j : Nat) (x : Quad) : (s.setQuad k x).ctx j = s.ctx j := rfl
@[simp] theorem State.setQuad_lq (s : State) (k j : Nat) (x : Quad) : (s.setQuad k x).lq j = s.lq j := rfl
@[simp] theorem State.modQuad_on (s : State) (k : Nat) (f : Quad → Quad) : (s.modQuad k f).on = s.on := rfl
@[simp] theorem State.modQuad_groups (s : State) (k : Nat) (f : Quad → Quad) : (s.modQuad k f).groups = s.groups := rfl
@[simp] theorem State.modQuad_blocks (s : State) (k : Nat) (f : Quad → Quad) : (s.modQuad k f).blocks = s.blocks := rfl
@[simp] theorem State.modQuad_grids (s : State) (k : Nat) (f : Quad → Quad) : (s.modQuad k f).grids = s.grids := rfl
@[simp] theorem State.modQuad_cores (s : State) (k : Nat) (f : Quad → Quad) : (s.modQuad k f).cores = s.cores := rfl
@[simp] theorem State.modQuad_dies (s : State) (k : Nat) (f : Quad → Quad) : (s.modQuad k f).dies = s.dies := rfl
@[simp] theorem State.modQuad_ctxs (s : State) (k : Nat) (f : Quad → Quad) : (s.modQuad k f).ctxs = s.ctxs := rfl
@[simp] theorem State.modQuad_lqs (s : State) (k : Nat) (f : Quad → Quad) : (s.modQuad k f).lqs = s.lqs := rfl
@[simp] theorem State.modQuad_mem (s : State) (k : Nat) (f : Quad → Quad) : (s.modQuad k f).mem = s.mem := rfl
@[simp] theorem State.modQuad_accs (s : State) (k : Nat) (f : Quad → Quad) : (s.modQuad k f).accs = s.accs := rfl
@[simp] theorem State.modQuad_spads (s : State) (k : Nat) (f : Quad → Quad) : (s.modQuad k f).spads = s.spads := rfl
@[simp] theorem State.modQuad_steals (s : State) (k : Nat) (f : Quad → Quad) : (s.modQuad k f).steals = s.steals := rfl
@[simp] theorem State.modQuad_redos (s : State) (k : Nat) (f : Quad → Quad) : (s.modQuad k f).redos = s.redos := rfl
@[simp] theorem State.modQuad_sigs (s : State) (k : Nat) (f : Quad → Quad) : (s.modQuad k f).sigs = s.sigs := rfl
@[simp] theorem State.modQuad_notices (s : State) (k : Nat) (f : Quad → Quad) : (s.modQuad k f).notices = s.notices := rfl
@[simp] theorem State.modQuad_colls (s : State) (k : Nat) (f : Quad → Quad) : (s.modQuad k f).colls = s.colls := rfl
@[simp] theorem State.modQuad_drains (s : State) (k : Nat) (f : Quad → Quad) : (s.modQuad k f).drains = s.drains := rfl
@[simp] theorem State.modQuad_bars (s : State) (k : Nat) (f : Quad → Quad) : (s.modQuad k f).bars = s.bars := rfl
@[simp] theorem State.modQuad_barHeld (s : State) (k : Nat) (f : Quad → Quad) : (s.modQuad k f).barHeld = s.barHeld := rfl
@[simp] theorem State.modQuad_ports (s : State) (k : Nat) (f : Quad → Quad) : (s.modQuad k f).ports = s.ports := rfl
@[simp] theorem State.modQuad_rtab (s : State) (k : Nat) (f : Quad → Quad) : (s.modQuad k f).rtab = s.rtab := rfl
@[simp] theorem State.modQuad_pkg (s : State) (k : Nat) (f : Quad → Quad) : (s.modQuad k f).pkg = s.pkg := rfl
@[simp] theorem State.modQuad_fabFail (s : State) (k : Nat) (f : Quad → Quad) : (s.modQuad k f).fabFail = s.fabFail := rfl
@[simp] theorem State.modQuad_out (s : State) (k : Nat) (f : Quad → Quad) : (s.modQuad k f).out = s.out := rfl
@[simp] theorem State.modQuad_resent (s : State) (k : Nat) (f : Quad → Quad) : (s.modQuad k f).resent = s.resent := rfl
@[simp] theorem State.modQuad_outHeld (s : State) (k : Nat) (f : Quad → Quad) : (s.modQuad k f).outHeld = s.outHeld := rfl
@[simp] theorem State.modQuad_parts (s : State) (k : Nat) (f : Quad → Quad) : (s.modQuad k f).parts = s.parts := rfl
@[simp] theorem State.modQuad_kept (s : State) (k : Nat) (f : Quad → Quad) : (s.modQuad k f).kept = s.kept := rfl
@[simp] theorem State.modQuad_erasure (s : State) (k : Nat) (f : Quad → Quad) : (s.modQuad k f).erasure = s.erasure := rfl
@[simp] theorem State.modQuad_hand (s : State) (k : Nat) (f : Quad → Quad) : (s.modQuad k f).hand = s.hand := rfl
@[simp] theorem State.modQuad_power (s : State) (k : Nat) (f : Quad → Quad) : (s.modQuad k f).power = s.power := rfl
@[simp] theorem State.modQuad_linkClamped (s : State) (k : Nat) (f : Quad → Quad) : (s.modQuad k f).linkClamped = s.linkClamped := rfl
@[simp] theorem State.modQuad_nextGrid (s : State) (k : Nat) (f : Quad → Quad) : (s.modQuad k f).nextGrid = s.nextGrid := rfl
@[simp] theorem State.modQuad_nextBlock (s : State) (k : Nat) (f : Quad → Quad) : (s.modQuad k f).nextBlock = s.nextBlock := rfl
@[simp] theorem State.modQuad_nextId (s : State) (k : Nat) (f : Quad → Quad) : (s.modQuad k f).nextId = s.nextId := rfl
@[simp] theorem State.modQuad_fresh (s : State) (k : Nat) (f : Quad → Quad) : (s.modQuad k f).fresh = s.fresh := rfl
@[simp] theorem State.modQuad_focus (s : State) (k : Nat) (f : Quad → Quad) : (s.modQuad k f).focus = s.focus := rfl
@[simp] theorem State.modQuad_agenda (s : State) (k : Nat) (f : Quad → Quad) : (s.modQuad k f).agenda = s.agenda := rfl
theorem State.modQuad_get (s : State) (k j : Nat) (f : Quad → Quad) : (s.modQuad k f).quad j = if j = k then f (s.quad k) else s.quad j := State.setQuad_get ..
@[simp] theorem State.modQuad_self (s : State) (k : Nat) (f : Quad → Quad) : (s.modQuad k f).quad k = f (s.quad k) := State.setQuad_self ..
@[simp] theorem State.modQuad_modQuad (s : State) (k : Nat) (f h : Quad → Quad) : (s.modQuad k f).modQuad k h = s.modQuad k fun x => h (f x) := by
  unfold State.modQuad State.setQuad; simp only [Tbl.set_set]; unfold State.quad; simp
theorem State.modQuad_ne (s : State) {k j : Nat} (h : j ≠ k) (f : Quad → Quad) : (s.modQuad k f).quad j = s.quad j := State.setQuad_ne s h _
@[simp] theorem State.modQuad_group (s : State) (k j : Nat) (f : Quad → Quad) : (s.modQuad k f).group j = s.group j := rfl
@[simp] theorem State.modQuad_block (s : State) (k j : Nat) (f : Quad → Quad) : (s.modQuad k f).block j = s.block j := rfl
@[simp] theorem State.modQuad_core (s : State) (k j : Nat) (f : Quad → Quad) : (s.modQuad k f).core j = s.core j := rfl
@[simp] theorem State.modQuad_die (s : State) (k j : Nat) (f : Quad → Quad) : (s.modQuad k f).die j = s.die j := rfl
@[simp] theorem State.modQuad_ctx (s : State) (k j : Nat) (f : Quad → Quad) : (s.modQuad k f).ctx j = s.ctx j := rfl
@[simp] theorem State.modQuad_lq (s : State) (k j : Nat) (f : Quad → Quad) : (s.modQuad k f).lq j = s.lq j := rfl

/-! Updates of one die. -/

@[simp] theorem State.setDie_on (s : State) (k : Nat) (x : Die) : (s.setDie k x).on = s.on := rfl
@[simp] theorem State.setDie_groups (s : State) (k : Nat) (x : Die) : (s.setDie k x).groups = s.groups := rfl
@[simp] theorem State.setDie_blocks (s : State) (k : Nat) (x : Die) : (s.setDie k x).blocks = s.blocks := rfl
@[simp] theorem State.setDie_grids (s : State) (k : Nat) (x : Die) : (s.setDie k x).grids = s.grids := rfl
@[simp] theorem State.setDie_cores (s : State) (k : Nat) (x : Die) : (s.setDie k x).cores = s.cores := rfl
@[simp] theorem State.setDie_quads (s : State) (k : Nat) (x : Die) : (s.setDie k x).quads = s.quads := rfl
@[simp] theorem State.setDie_ctxs (s : State) (k : Nat) (x : Die) : (s.setDie k x).ctxs = s.ctxs := rfl
@[simp] theorem State.setDie_lqs (s : State) (k : Nat) (x : Die) : (s.setDie k x).lqs = s.lqs := rfl
@[simp] theorem State.setDie_mem (s : State) (k : Nat) (x : Die) : (s.setDie k x).mem = s.mem := rfl
@[simp] theorem State.setDie_accs (s : State) (k : Nat) (x : Die) : (s.setDie k x).accs = s.accs := rfl
@[simp] theorem State.setDie_spads (s : State) (k : Nat) (x : Die) : (s.setDie k x).spads = s.spads := rfl
@[simp] theorem State.setDie_steals (s : State) (k : Nat) (x : Die) : (s.setDie k x).steals = s.steals := rfl
@[simp] theorem State.setDie_redos (s : State) (k : Nat) (x : Die) : (s.setDie k x).redos = s.redos := rfl
@[simp] theorem State.setDie_sigs (s : State) (k : Nat) (x : Die) : (s.setDie k x).sigs = s.sigs := rfl
@[simp] theorem State.setDie_notices (s : State) (k : Nat) (x : Die) : (s.setDie k x).notices = s.notices := rfl
@[simp] theorem State.setDie_colls (s : State) (k : Nat) (x : Die) : (s.setDie k x).colls = s.colls := rfl
@[simp] theorem State.setDie_drains (s : State) (k : Nat) (x : Die) : (s.setDie k x).drains = s.drains := rfl
@[simp] theorem State.setDie_bars (s : State) (k : Nat) (x : Die) : (s.setDie k x).bars = s.bars := rfl
@[simp] theorem State.setDie_barHeld (s : State) (k : Nat) (x : Die) : (s.setDie k x).barHeld = s.barHeld := rfl
@[simp] theorem State.setDie_ports (s : State) (k : Nat) (x : Die) : (s.setDie k x).ports = s.ports := rfl
@[simp] theorem State.setDie_rtab (s : State) (k : Nat) (x : Die) : (s.setDie k x).rtab = s.rtab := rfl
@[simp] theorem State.setDie_pkg (s : State) (k : Nat) (x : Die) : (s.setDie k x).pkg = s.pkg := rfl
@[simp] theorem State.setDie_fabFail (s : State) (k : Nat) (x : Die) : (s.setDie k x).fabFail = s.fabFail := rfl
@[simp] theorem State.setDie_out (s : State) (k : Nat) (x : Die) : (s.setDie k x).out = s.out := rfl
@[simp] theorem State.setDie_resent (s : State) (k : Nat) (x : Die) : (s.setDie k x).resent = s.resent := rfl
@[simp] theorem State.setDie_outHeld (s : State) (k : Nat) (x : Die) : (s.setDie k x).outHeld = s.outHeld := rfl
@[simp] theorem State.setDie_parts (s : State) (k : Nat) (x : Die) : (s.setDie k x).parts = s.parts := rfl
@[simp] theorem State.setDie_kept (s : State) (k : Nat) (x : Die) : (s.setDie k x).kept = s.kept := rfl
@[simp] theorem State.setDie_erasure (s : State) (k : Nat) (x : Die) : (s.setDie k x).erasure = s.erasure := rfl
@[simp] theorem State.setDie_hand (s : State) (k : Nat) (x : Die) : (s.setDie k x).hand = s.hand := rfl
@[simp] theorem State.setDie_power (s : State) (k : Nat) (x : Die) : (s.setDie k x).power = s.power := rfl
@[simp] theorem State.setDie_linkClamped (s : State) (k : Nat) (x : Die) : (s.setDie k x).linkClamped = s.linkClamped := rfl
@[simp] theorem State.setDie_nextGrid (s : State) (k : Nat) (x : Die) : (s.setDie k x).nextGrid = s.nextGrid := rfl
@[simp] theorem State.setDie_nextBlock (s : State) (k : Nat) (x : Die) : (s.setDie k x).nextBlock = s.nextBlock := rfl
@[simp] theorem State.setDie_nextId (s : State) (k : Nat) (x : Die) : (s.setDie k x).nextId = s.nextId := rfl
@[simp] theorem State.setDie_fresh (s : State) (k : Nat) (x : Die) : (s.setDie k x).fresh = s.fresh := rfl
@[simp] theorem State.setDie_focus (s : State) (k : Nat) (x : Die) : (s.setDie k x).focus = s.focus := rfl
@[simp] theorem State.setDie_agenda (s : State) (k : Nat) (x : Die) : (s.setDie k x).agenda = s.agenda := rfl
@[simp] theorem State.setDie_dies (s : State) (k : Nat) (x : Die) : (s.setDie k x).dies = s.dies.set k x := rfl
theorem State.setDie_get (s : State) (k j : Nat) (x : Die) : (s.setDie k x).die j = if j = k then x else s.die j := Tbl.getD_set ..
@[simp] theorem State.setDie_self (s : State) (k : Nat) (x : Die) : (s.setDie k x).die k = x := by simp [State.setDie_get]
theorem State.setDie_ne (s : State) {k j : Nat} (h : j ≠ k) (x : Die) : (s.setDie k x).die j = s.die j := by simp [State.setDie_get, h]
theorem State.modDie_def (s : State) (k : Nat) (f : Die → Die) : s.modDie k f = s.setDie k (f (s.die k)) := rfl
@[simp] theorem State.setDie_group (s : State) (k j : Nat) (x : Die) : (s.setDie k x).group j = s.group j := rfl
@[simp] theorem State.setDie_block (s : State) (k j : Nat) (x : Die) : (s.setDie k x).block j = s.block j := rfl
@[simp] theorem State.setDie_core (s : State) (k j : Nat) (x : Die) : (s.setDie k x).core j = s.core j := rfl
@[simp] theorem State.setDie_quad (s : State) (k j : Nat) (x : Die) : (s.setDie k x).quad j = s.quad j := rfl
@[simp] theorem State.setDie_ctx (s : State) (k j : Nat) (x : Die) : (s.setDie k x).ctx j = s.ctx j := rfl
@[simp] theorem State.setDie_lq (s : State) (k j : Nat) (x : Die) : (s.setDie k x).lq j = s.lq j := rfl
@[simp] theorem State.modDie_on (s : State) (k : Nat) (f : Die → Die) : (s.modDie k f).on = s.on := rfl
@[simp] theorem State.modDie_groups (s : State) (k : Nat) (f : Die → Die) : (s.modDie k f).groups = s.groups := rfl
@[simp] theorem State.modDie_blocks (s : State) (k : Nat) (f : Die → Die) : (s.modDie k f).blocks = s.blocks := rfl
@[simp] theorem State.modDie_grids (s : State) (k : Nat) (f : Die → Die) : (s.modDie k f).grids = s.grids := rfl
@[simp] theorem State.modDie_cores (s : State) (k : Nat) (f : Die → Die) : (s.modDie k f).cores = s.cores := rfl
@[simp] theorem State.modDie_quads (s : State) (k : Nat) (f : Die → Die) : (s.modDie k f).quads = s.quads := rfl
@[simp] theorem State.modDie_ctxs (s : State) (k : Nat) (f : Die → Die) : (s.modDie k f).ctxs = s.ctxs := rfl
@[simp] theorem State.modDie_lqs (s : State) (k : Nat) (f : Die → Die) : (s.modDie k f).lqs = s.lqs := rfl
@[simp] theorem State.modDie_mem (s : State) (k : Nat) (f : Die → Die) : (s.modDie k f).mem = s.mem := rfl
@[simp] theorem State.modDie_accs (s : State) (k : Nat) (f : Die → Die) : (s.modDie k f).accs = s.accs := rfl
@[simp] theorem State.modDie_spads (s : State) (k : Nat) (f : Die → Die) : (s.modDie k f).spads = s.spads := rfl
@[simp] theorem State.modDie_steals (s : State) (k : Nat) (f : Die → Die) : (s.modDie k f).steals = s.steals := rfl
@[simp] theorem State.modDie_redos (s : State) (k : Nat) (f : Die → Die) : (s.modDie k f).redos = s.redos := rfl
@[simp] theorem State.modDie_sigs (s : State) (k : Nat) (f : Die → Die) : (s.modDie k f).sigs = s.sigs := rfl
@[simp] theorem State.modDie_notices (s : State) (k : Nat) (f : Die → Die) : (s.modDie k f).notices = s.notices := rfl
@[simp] theorem State.modDie_colls (s : State) (k : Nat) (f : Die → Die) : (s.modDie k f).colls = s.colls := rfl
@[simp] theorem State.modDie_drains (s : State) (k : Nat) (f : Die → Die) : (s.modDie k f).drains = s.drains := rfl
@[simp] theorem State.modDie_bars (s : State) (k : Nat) (f : Die → Die) : (s.modDie k f).bars = s.bars := rfl
@[simp] theorem State.modDie_barHeld (s : State) (k : Nat) (f : Die → Die) : (s.modDie k f).barHeld = s.barHeld := rfl
@[simp] theorem State.modDie_ports (s : State) (k : Nat) (f : Die → Die) : (s.modDie k f).ports = s.ports := rfl
@[simp] theorem State.modDie_rtab (s : State) (k : Nat) (f : Die → Die) : (s.modDie k f).rtab = s.rtab := rfl
@[simp] theorem State.modDie_pkg (s : State) (k : Nat) (f : Die → Die) : (s.modDie k f).pkg = s.pkg := rfl
@[simp] theorem State.modDie_fabFail (s : State) (k : Nat) (f : Die → Die) : (s.modDie k f).fabFail = s.fabFail := rfl
@[simp] theorem State.modDie_out (s : State) (k : Nat) (f : Die → Die) : (s.modDie k f).out = s.out := rfl
@[simp] theorem State.modDie_resent (s : State) (k : Nat) (f : Die → Die) : (s.modDie k f).resent = s.resent := rfl
@[simp] theorem State.modDie_outHeld (s : State) (k : Nat) (f : Die → Die) : (s.modDie k f).outHeld = s.outHeld := rfl
@[simp] theorem State.modDie_parts (s : State) (k : Nat) (f : Die → Die) : (s.modDie k f).parts = s.parts := rfl
@[simp] theorem State.modDie_kept (s : State) (k : Nat) (f : Die → Die) : (s.modDie k f).kept = s.kept := rfl
@[simp] theorem State.modDie_erasure (s : State) (k : Nat) (f : Die → Die) : (s.modDie k f).erasure = s.erasure := rfl
@[simp] theorem State.modDie_hand (s : State) (k : Nat) (f : Die → Die) : (s.modDie k f).hand = s.hand := rfl
@[simp] theorem State.modDie_power (s : State) (k : Nat) (f : Die → Die) : (s.modDie k f).power = s.power := rfl
@[simp] theorem State.modDie_linkClamped (s : State) (k : Nat) (f : Die → Die) : (s.modDie k f).linkClamped = s.linkClamped := rfl
@[simp] theorem State.modDie_nextGrid (s : State) (k : Nat) (f : Die → Die) : (s.modDie k f).nextGrid = s.nextGrid := rfl
@[simp] theorem State.modDie_nextBlock (s : State) (k : Nat) (f : Die → Die) : (s.modDie k f).nextBlock = s.nextBlock := rfl
@[simp] theorem State.modDie_nextId (s : State) (k : Nat) (f : Die → Die) : (s.modDie k f).nextId = s.nextId := rfl
@[simp] theorem State.modDie_fresh (s : State) (k : Nat) (f : Die → Die) : (s.modDie k f).fresh = s.fresh := rfl
@[simp] theorem State.modDie_focus (s : State) (k : Nat) (f : Die → Die) : (s.modDie k f).focus = s.focus := rfl
@[simp] theorem State.modDie_agenda (s : State) (k : Nat) (f : Die → Die) : (s.modDie k f).agenda = s.agenda := rfl
theorem State.modDie_get (s : State) (k j : Nat) (f : Die → Die) : (s.modDie k f).die j = if j = k then f (s.die k) else s.die j := State.setDie_get ..
@[simp] theorem State.modDie_self (s : State) (k : Nat) (f : Die → Die) : (s.modDie k f).die k = f (s.die k) := State.setDie_self ..
@[simp] theorem State.modDie_modDie (s : State) (k : Nat) (f h : Die → Die) : (s.modDie k f).modDie k h = s.modDie k fun x => h (f x) := by
  unfold State.modDie State.setDie; simp only [Tbl.set_set]; unfold State.die; simp
theorem State.modDie_ne (s : State) {k j : Nat} (h : j ≠ k) (f : Die → Die) : (s.modDie k f).die j = s.die j := State.setDie_ne s h _
@[simp] theorem State.modDie_group (s : State) (k j : Nat) (f : Die → Die) : (s.modDie k f).group j = s.group j := rfl
@[simp] theorem State.modDie_block (s : State) (k j : Nat) (f : Die → Die) : (s.modDie k f).block j = s.block j := rfl
@[simp] theorem State.modDie_core (s : State) (k j : Nat) (f : Die → Die) : (s.modDie k f).core j = s.core j := rfl
@[simp] theorem State.modDie_quad (s : State) (k j : Nat) (f : Die → Die) : (s.modDie k f).quad j = s.quad j := rfl
@[simp] theorem State.modDie_ctx (s : State) (k j : Nat) (f : Die → Die) : (s.modDie k f).ctx j = s.ctx j := rfl
@[simp] theorem State.modDie_lq (s : State) (k j : Nat) (f : Die → Die) : (s.modDie k f).lq j = s.lq j := rfl

/-! Updates of one ctx. -/

@[simp] theorem State.setCtx_on (s : State) (k : Nat) (x : Ctx) : (s.setCtx k x).on = s.on := rfl
@[simp] theorem State.setCtx_groups (s : State) (k : Nat) (x : Ctx) : (s.setCtx k x).groups = s.groups := rfl
@[simp] theorem State.setCtx_blocks (s : State) (k : Nat) (x : Ctx) : (s.setCtx k x).blocks = s.blocks := rfl
@[simp] theorem State.setCtx_grids (s : State) (k : Nat) (x : Ctx) : (s.setCtx k x).grids = s.grids := rfl
@[simp] theorem State.setCtx_cores (s : State) (k : Nat) (x : Ctx) : (s.setCtx k x).cores = s.cores := rfl
@[simp] theorem State.setCtx_quads (s : State) (k : Nat) (x : Ctx) : (s.setCtx k x).quads = s.quads := rfl
@[simp] theorem State.setCtx_dies (s : State) (k : Nat) (x : Ctx) : (s.setCtx k x).dies = s.dies := rfl
@[simp] theorem State.setCtx_lqs (s : State) (k : Nat) (x : Ctx) : (s.setCtx k x).lqs = s.lqs := rfl
@[simp] theorem State.setCtx_mem (s : State) (k : Nat) (x : Ctx) : (s.setCtx k x).mem = s.mem := rfl
@[simp] theorem State.setCtx_accs (s : State) (k : Nat) (x : Ctx) : (s.setCtx k x).accs = s.accs := rfl
@[simp] theorem State.setCtx_spads (s : State) (k : Nat) (x : Ctx) : (s.setCtx k x).spads = s.spads := rfl
@[simp] theorem State.setCtx_steals (s : State) (k : Nat) (x : Ctx) : (s.setCtx k x).steals = s.steals := rfl
@[simp] theorem State.setCtx_redos (s : State) (k : Nat) (x : Ctx) : (s.setCtx k x).redos = s.redos := rfl
@[simp] theorem State.setCtx_sigs (s : State) (k : Nat) (x : Ctx) : (s.setCtx k x).sigs = s.sigs := rfl
@[simp] theorem State.setCtx_notices (s : State) (k : Nat) (x : Ctx) : (s.setCtx k x).notices = s.notices := rfl
@[simp] theorem State.setCtx_colls (s : State) (k : Nat) (x : Ctx) : (s.setCtx k x).colls = s.colls := rfl
@[simp] theorem State.setCtx_drains (s : State) (k : Nat) (x : Ctx) : (s.setCtx k x).drains = s.drains := rfl
@[simp] theorem State.setCtx_bars (s : State) (k : Nat) (x : Ctx) : (s.setCtx k x).bars = s.bars := rfl
@[simp] theorem State.setCtx_barHeld (s : State) (k : Nat) (x : Ctx) : (s.setCtx k x).barHeld = s.barHeld := rfl
@[simp] theorem State.setCtx_ports (s : State) (k : Nat) (x : Ctx) : (s.setCtx k x).ports = s.ports := rfl
@[simp] theorem State.setCtx_rtab (s : State) (k : Nat) (x : Ctx) : (s.setCtx k x).rtab = s.rtab := rfl
@[simp] theorem State.setCtx_pkg (s : State) (k : Nat) (x : Ctx) : (s.setCtx k x).pkg = s.pkg := rfl
@[simp] theorem State.setCtx_fabFail (s : State) (k : Nat) (x : Ctx) : (s.setCtx k x).fabFail = s.fabFail := rfl
@[simp] theorem State.setCtx_out (s : State) (k : Nat) (x : Ctx) : (s.setCtx k x).out = s.out := rfl
@[simp] theorem State.setCtx_resent (s : State) (k : Nat) (x : Ctx) : (s.setCtx k x).resent = s.resent := rfl
@[simp] theorem State.setCtx_outHeld (s : State) (k : Nat) (x : Ctx) : (s.setCtx k x).outHeld = s.outHeld := rfl
@[simp] theorem State.setCtx_parts (s : State) (k : Nat) (x : Ctx) : (s.setCtx k x).parts = s.parts := rfl
@[simp] theorem State.setCtx_kept (s : State) (k : Nat) (x : Ctx) : (s.setCtx k x).kept = s.kept := rfl
@[simp] theorem State.setCtx_erasure (s : State) (k : Nat) (x : Ctx) : (s.setCtx k x).erasure = s.erasure := rfl
@[simp] theorem State.setCtx_hand (s : State) (k : Nat) (x : Ctx) : (s.setCtx k x).hand = s.hand := rfl
@[simp] theorem State.setCtx_power (s : State) (k : Nat) (x : Ctx) : (s.setCtx k x).power = s.power := rfl
@[simp] theorem State.setCtx_linkClamped (s : State) (k : Nat) (x : Ctx) : (s.setCtx k x).linkClamped = s.linkClamped := rfl
@[simp] theorem State.setCtx_nextGrid (s : State) (k : Nat) (x : Ctx) : (s.setCtx k x).nextGrid = s.nextGrid := rfl
@[simp] theorem State.setCtx_nextBlock (s : State) (k : Nat) (x : Ctx) : (s.setCtx k x).nextBlock = s.nextBlock := rfl
@[simp] theorem State.setCtx_nextId (s : State) (k : Nat) (x : Ctx) : (s.setCtx k x).nextId = s.nextId := rfl
@[simp] theorem State.setCtx_fresh (s : State) (k : Nat) (x : Ctx) : (s.setCtx k x).fresh = s.fresh := rfl
@[simp] theorem State.setCtx_focus (s : State) (k : Nat) (x : Ctx) : (s.setCtx k x).focus = s.focus := rfl
@[simp] theorem State.setCtx_agenda (s : State) (k : Nat) (x : Ctx) : (s.setCtx k x).agenda = s.agenda := rfl
@[simp] theorem State.setCtx_ctxs (s : State) (k : Nat) (x : Ctx) : (s.setCtx k x).ctxs = s.ctxs.set k x := rfl
theorem State.setCtx_get (s : State) (k j : Nat) (x : Ctx) : (s.setCtx k x).ctx j = if j = k then x else s.ctx j := Tbl.getD_set ..
@[simp] theorem State.setCtx_self (s : State) (k : Nat) (x : Ctx) : (s.setCtx k x).ctx k = x := by simp [State.setCtx_get]
theorem State.setCtx_ne (s : State) {k j : Nat} (h : j ≠ k) (x : Ctx) : (s.setCtx k x).ctx j = s.ctx j := by simp [State.setCtx_get, h]
theorem State.modCtx_def (s : State) (k : Nat) (f : Ctx → Ctx) : s.modCtx k f = s.setCtx k (f (s.ctx k)) := rfl
@[simp] theorem State.setCtx_group (s : State) (k j : Nat) (x : Ctx) : (s.setCtx k x).group j = s.group j := rfl
@[simp] theorem State.setCtx_block (s : State) (k j : Nat) (x : Ctx) : (s.setCtx k x).block j = s.block j := rfl
@[simp] theorem State.setCtx_core (s : State) (k j : Nat) (x : Ctx) : (s.setCtx k x).core j = s.core j := rfl
@[simp] theorem State.setCtx_quad (s : State) (k j : Nat) (x : Ctx) : (s.setCtx k x).quad j = s.quad j := rfl
@[simp] theorem State.setCtx_die (s : State) (k j : Nat) (x : Ctx) : (s.setCtx k x).die j = s.die j := rfl
@[simp] theorem State.setCtx_lq (s : State) (k j : Nat) (x : Ctx) : (s.setCtx k x).lq j = s.lq j := rfl
@[simp] theorem State.modCtx_on (s : State) (k : Nat) (f : Ctx → Ctx) : (s.modCtx k f).on = s.on := rfl
@[simp] theorem State.modCtx_groups (s : State) (k : Nat) (f : Ctx → Ctx) : (s.modCtx k f).groups = s.groups := rfl
@[simp] theorem State.modCtx_blocks (s : State) (k : Nat) (f : Ctx → Ctx) : (s.modCtx k f).blocks = s.blocks := rfl
@[simp] theorem State.modCtx_grids (s : State) (k : Nat) (f : Ctx → Ctx) : (s.modCtx k f).grids = s.grids := rfl
@[simp] theorem State.modCtx_cores (s : State) (k : Nat) (f : Ctx → Ctx) : (s.modCtx k f).cores = s.cores := rfl
@[simp] theorem State.modCtx_quads (s : State) (k : Nat) (f : Ctx → Ctx) : (s.modCtx k f).quads = s.quads := rfl
@[simp] theorem State.modCtx_dies (s : State) (k : Nat) (f : Ctx → Ctx) : (s.modCtx k f).dies = s.dies := rfl
@[simp] theorem State.modCtx_lqs (s : State) (k : Nat) (f : Ctx → Ctx) : (s.modCtx k f).lqs = s.lqs := rfl
@[simp] theorem State.modCtx_mem (s : State) (k : Nat) (f : Ctx → Ctx) : (s.modCtx k f).mem = s.mem := rfl
@[simp] theorem State.modCtx_accs (s : State) (k : Nat) (f : Ctx → Ctx) : (s.modCtx k f).accs = s.accs := rfl
@[simp] theorem State.modCtx_spads (s : State) (k : Nat) (f : Ctx → Ctx) : (s.modCtx k f).spads = s.spads := rfl
@[simp] theorem State.modCtx_steals (s : State) (k : Nat) (f : Ctx → Ctx) : (s.modCtx k f).steals = s.steals := rfl
@[simp] theorem State.modCtx_redos (s : State) (k : Nat) (f : Ctx → Ctx) : (s.modCtx k f).redos = s.redos := rfl
@[simp] theorem State.modCtx_sigs (s : State) (k : Nat) (f : Ctx → Ctx) : (s.modCtx k f).sigs = s.sigs := rfl
@[simp] theorem State.modCtx_notices (s : State) (k : Nat) (f : Ctx → Ctx) : (s.modCtx k f).notices = s.notices := rfl
@[simp] theorem State.modCtx_colls (s : State) (k : Nat) (f : Ctx → Ctx) : (s.modCtx k f).colls = s.colls := rfl
@[simp] theorem State.modCtx_drains (s : State) (k : Nat) (f : Ctx → Ctx) : (s.modCtx k f).drains = s.drains := rfl
@[simp] theorem State.modCtx_bars (s : State) (k : Nat) (f : Ctx → Ctx) : (s.modCtx k f).bars = s.bars := rfl
@[simp] theorem State.modCtx_barHeld (s : State) (k : Nat) (f : Ctx → Ctx) : (s.modCtx k f).barHeld = s.barHeld := rfl
@[simp] theorem State.modCtx_ports (s : State) (k : Nat) (f : Ctx → Ctx) : (s.modCtx k f).ports = s.ports := rfl
@[simp] theorem State.modCtx_rtab (s : State) (k : Nat) (f : Ctx → Ctx) : (s.modCtx k f).rtab = s.rtab := rfl
@[simp] theorem State.modCtx_pkg (s : State) (k : Nat) (f : Ctx → Ctx) : (s.modCtx k f).pkg = s.pkg := rfl
@[simp] theorem State.modCtx_fabFail (s : State) (k : Nat) (f : Ctx → Ctx) : (s.modCtx k f).fabFail = s.fabFail := rfl
@[simp] theorem State.modCtx_out (s : State) (k : Nat) (f : Ctx → Ctx) : (s.modCtx k f).out = s.out := rfl
@[simp] theorem State.modCtx_resent (s : State) (k : Nat) (f : Ctx → Ctx) : (s.modCtx k f).resent = s.resent := rfl
@[simp] theorem State.modCtx_outHeld (s : State) (k : Nat) (f : Ctx → Ctx) : (s.modCtx k f).outHeld = s.outHeld := rfl
@[simp] theorem State.modCtx_parts (s : State) (k : Nat) (f : Ctx → Ctx) : (s.modCtx k f).parts = s.parts := rfl
@[simp] theorem State.modCtx_kept (s : State) (k : Nat) (f : Ctx → Ctx) : (s.modCtx k f).kept = s.kept := rfl
@[simp] theorem State.modCtx_erasure (s : State) (k : Nat) (f : Ctx → Ctx) : (s.modCtx k f).erasure = s.erasure := rfl
@[simp] theorem State.modCtx_hand (s : State) (k : Nat) (f : Ctx → Ctx) : (s.modCtx k f).hand = s.hand := rfl
@[simp] theorem State.modCtx_power (s : State) (k : Nat) (f : Ctx → Ctx) : (s.modCtx k f).power = s.power := rfl
@[simp] theorem State.modCtx_linkClamped (s : State) (k : Nat) (f : Ctx → Ctx) : (s.modCtx k f).linkClamped = s.linkClamped := rfl
@[simp] theorem State.modCtx_nextGrid (s : State) (k : Nat) (f : Ctx → Ctx) : (s.modCtx k f).nextGrid = s.nextGrid := rfl
@[simp] theorem State.modCtx_nextBlock (s : State) (k : Nat) (f : Ctx → Ctx) : (s.modCtx k f).nextBlock = s.nextBlock := rfl
@[simp] theorem State.modCtx_nextId (s : State) (k : Nat) (f : Ctx → Ctx) : (s.modCtx k f).nextId = s.nextId := rfl
@[simp] theorem State.modCtx_fresh (s : State) (k : Nat) (f : Ctx → Ctx) : (s.modCtx k f).fresh = s.fresh := rfl
@[simp] theorem State.modCtx_focus (s : State) (k : Nat) (f : Ctx → Ctx) : (s.modCtx k f).focus = s.focus := rfl
@[simp] theorem State.modCtx_agenda (s : State) (k : Nat) (f : Ctx → Ctx) : (s.modCtx k f).agenda = s.agenda := rfl
theorem State.modCtx_get (s : State) (k j : Nat) (f : Ctx → Ctx) : (s.modCtx k f).ctx j = if j = k then f (s.ctx k) else s.ctx j := State.setCtx_get ..
@[simp] theorem State.modCtx_self (s : State) (k : Nat) (f : Ctx → Ctx) : (s.modCtx k f).ctx k = f (s.ctx k) := State.setCtx_self ..
@[simp] theorem State.modCtx_modCtx (s : State) (k : Nat) (f h : Ctx → Ctx) : (s.modCtx k f).modCtx k h = s.modCtx k fun x => h (f x) := by
  unfold State.modCtx State.setCtx; simp only [Tbl.set_set]; unfold State.ctx; simp
theorem State.modCtx_ne (s : State) {k j : Nat} (h : j ≠ k) (f : Ctx → Ctx) : (s.modCtx k f).ctx j = s.ctx j := State.setCtx_ne s h _
@[simp] theorem State.modCtx_group (s : State) (k j : Nat) (f : Ctx → Ctx) : (s.modCtx k f).group j = s.group j := rfl
@[simp] theorem State.modCtx_block (s : State) (k j : Nat) (f : Ctx → Ctx) : (s.modCtx k f).block j = s.block j := rfl
@[simp] theorem State.modCtx_core (s : State) (k j : Nat) (f : Ctx → Ctx) : (s.modCtx k f).core j = s.core j := rfl
@[simp] theorem State.modCtx_quad (s : State) (k j : Nat) (f : Ctx → Ctx) : (s.modCtx k f).quad j = s.quad j := rfl
@[simp] theorem State.modCtx_die (s : State) (k j : Nat) (f : Ctx → Ctx) : (s.modCtx k f).die j = s.die j := rfl
@[simp] theorem State.modCtx_lq (s : State) (k j : Nat) (f : Ctx → Ctx) : (s.modCtx k f).lq j = s.lq j := rfl

/-! Updates of one lq. -/

@[simp] theorem State.setLq_on (s : State) (k : Nat) (x : Lq) : (s.setLq k x).on = s.on := rfl
@[simp] theorem State.setLq_groups (s : State) (k : Nat) (x : Lq) : (s.setLq k x).groups = s.groups := rfl
@[simp] theorem State.setLq_blocks (s : State) (k : Nat) (x : Lq) : (s.setLq k x).blocks = s.blocks := rfl
@[simp] theorem State.setLq_grids (s : State) (k : Nat) (x : Lq) : (s.setLq k x).grids = s.grids := rfl
@[simp] theorem State.setLq_cores (s : State) (k : Nat) (x : Lq) : (s.setLq k x).cores = s.cores := rfl
@[simp] theorem State.setLq_quads (s : State) (k : Nat) (x : Lq) : (s.setLq k x).quads = s.quads := rfl
@[simp] theorem State.setLq_dies (s : State) (k : Nat) (x : Lq) : (s.setLq k x).dies = s.dies := rfl
@[simp] theorem State.setLq_ctxs (s : State) (k : Nat) (x : Lq) : (s.setLq k x).ctxs = s.ctxs := rfl
@[simp] theorem State.setLq_mem (s : State) (k : Nat) (x : Lq) : (s.setLq k x).mem = s.mem := rfl
@[simp] theorem State.setLq_accs (s : State) (k : Nat) (x : Lq) : (s.setLq k x).accs = s.accs := rfl
@[simp] theorem State.setLq_spads (s : State) (k : Nat) (x : Lq) : (s.setLq k x).spads = s.spads := rfl
@[simp] theorem State.setLq_steals (s : State) (k : Nat) (x : Lq) : (s.setLq k x).steals = s.steals := rfl
@[simp] theorem State.setLq_redos (s : State) (k : Nat) (x : Lq) : (s.setLq k x).redos = s.redos := rfl
@[simp] theorem State.setLq_sigs (s : State) (k : Nat) (x : Lq) : (s.setLq k x).sigs = s.sigs := rfl
@[simp] theorem State.setLq_notices (s : State) (k : Nat) (x : Lq) : (s.setLq k x).notices = s.notices := rfl
@[simp] theorem State.setLq_colls (s : State) (k : Nat) (x : Lq) : (s.setLq k x).colls = s.colls := rfl
@[simp] theorem State.setLq_drains (s : State) (k : Nat) (x : Lq) : (s.setLq k x).drains = s.drains := rfl
@[simp] theorem State.setLq_bars (s : State) (k : Nat) (x : Lq) : (s.setLq k x).bars = s.bars := rfl
@[simp] theorem State.setLq_barHeld (s : State) (k : Nat) (x : Lq) : (s.setLq k x).barHeld = s.barHeld := rfl
@[simp] theorem State.setLq_ports (s : State) (k : Nat) (x : Lq) : (s.setLq k x).ports = s.ports := rfl
@[simp] theorem State.setLq_rtab (s : State) (k : Nat) (x : Lq) : (s.setLq k x).rtab = s.rtab := rfl
@[simp] theorem State.setLq_pkg (s : State) (k : Nat) (x : Lq) : (s.setLq k x).pkg = s.pkg := rfl
@[simp] theorem State.setLq_fabFail (s : State) (k : Nat) (x : Lq) : (s.setLq k x).fabFail = s.fabFail := rfl
@[simp] theorem State.setLq_out (s : State) (k : Nat) (x : Lq) : (s.setLq k x).out = s.out := rfl
@[simp] theorem State.setLq_resent (s : State) (k : Nat) (x : Lq) : (s.setLq k x).resent = s.resent := rfl
@[simp] theorem State.setLq_outHeld (s : State) (k : Nat) (x : Lq) : (s.setLq k x).outHeld = s.outHeld := rfl
@[simp] theorem State.setLq_parts (s : State) (k : Nat) (x : Lq) : (s.setLq k x).parts = s.parts := rfl
@[simp] theorem State.setLq_kept (s : State) (k : Nat) (x : Lq) : (s.setLq k x).kept = s.kept := rfl
@[simp] theorem State.setLq_erasure (s : State) (k : Nat) (x : Lq) : (s.setLq k x).erasure = s.erasure := rfl
@[simp] theorem State.setLq_hand (s : State) (k : Nat) (x : Lq) : (s.setLq k x).hand = s.hand := rfl
@[simp] theorem State.setLq_power (s : State) (k : Nat) (x : Lq) : (s.setLq k x).power = s.power := rfl
@[simp] theorem State.setLq_linkClamped (s : State) (k : Nat) (x : Lq) : (s.setLq k x).linkClamped = s.linkClamped := rfl
@[simp] theorem State.setLq_nextGrid (s : State) (k : Nat) (x : Lq) : (s.setLq k x).nextGrid = s.nextGrid := rfl
@[simp] theorem State.setLq_nextBlock (s : State) (k : Nat) (x : Lq) : (s.setLq k x).nextBlock = s.nextBlock := rfl
@[simp] theorem State.setLq_nextId (s : State) (k : Nat) (x : Lq) : (s.setLq k x).nextId = s.nextId := rfl
@[simp] theorem State.setLq_fresh (s : State) (k : Nat) (x : Lq) : (s.setLq k x).fresh = s.fresh := rfl
@[simp] theorem State.setLq_focus (s : State) (k : Nat) (x : Lq) : (s.setLq k x).focus = s.focus := rfl
@[simp] theorem State.setLq_agenda (s : State) (k : Nat) (x : Lq) : (s.setLq k x).agenda = s.agenda := rfl
@[simp] theorem State.setLq_lqs (s : State) (k : Nat) (x : Lq) : (s.setLq k x).lqs = s.lqs.set k x := rfl
theorem State.setLq_get (s : State) (k j : Nat) (x : Lq) : (s.setLq k x).lq j = if j = k then x else s.lq j := Tbl.getD_set ..
@[simp] theorem State.setLq_self (s : State) (k : Nat) (x : Lq) : (s.setLq k x).lq k = x := by simp [State.setLq_get]
theorem State.setLq_ne (s : State) {k j : Nat} (h : j ≠ k) (x : Lq) : (s.setLq k x).lq j = s.lq j := by simp [State.setLq_get, h]
@[simp] theorem State.setLq_group (s : State) (k j : Nat) (x : Lq) : (s.setLq k x).group j = s.group j := rfl
@[simp] theorem State.setLq_block (s : State) (k j : Nat) (x : Lq) : (s.setLq k x).block j = s.block j := rfl
@[simp] theorem State.setLq_core (s : State) (k j : Nat) (x : Lq) : (s.setLq k x).core j = s.core j := rfl
@[simp] theorem State.setLq_quad (s : State) (k j : Nat) (x : Lq) : (s.setLq k x).quad j = s.quad j := rfl
@[simp] theorem State.setLq_die (s : State) (k j : Nat) (x : Lq) : (s.setLq k x).die j = s.die j := rfl
@[simp] theorem State.setLq_ctx (s : State) (k j : Nat) (x : Lq) : (s.setLq k x).ctx j = s.ctx j := rfl

/-! Lists with a default. -/

theorem setAt_getD {α : Type} (d : α) (l : List α) (n m : Nat) (x : α) :
    (setAt d l n x).getD m d = if m = n then x else l.getD m d := by
  induction n generalizing l m with
  | zero => cases l <;> cases m <;> simp [setAt]
  | succ n ih =>
    cases l with
    | nil =>
      cases m with
      | zero => simp [setAt]
      | succ m => simpa [setAt] using ih [] m
    | cons y r =>
      cases m with
      | zero => simp [setAt]
      | succ m => simpa [setAt] using ih r m

/-! Slots and lanes of a group, partitions of a core. -/

@[simp] theorem Group.modSlot_slot (g : Group) (k j : Nat) (f : Slot → Slot) :
    (g.modSlot k f).slot j = if j = k then f (g.slot k) else g.slot j := setAt_getD ..
@[simp] theorem Group.modSlot_lane (g : Group) (k l : Nat) (f : Slot → Slot) : (g.modSlot k f).lane l = g.lane l := rfl
@[simp] theorem Group.modLanes_slot (g : Group) (m : Mask) (f : Nat → Lane → Lane) (k : Nat) : (g.modLanes m f).slot k = g.slot k := rfl
theorem Group.modLanes_lane (g : Group) (m : Mask) (f : Nat → Lane → Lane) {l : Nat} (h : l < 32) :
    (g.modLanes m f).lane l = if m.getLsbD l then f l (g.lane l) else g.lane l := by
  simp [Group.modLanes, Group.lane, laneIdx, h]
@[simp] theorem Core.modPart_part (c : Core) (p q : Nat) (f : Part → Part) :
    (c.modPart p f).part q = if q = p then f (c.part p) else c.part q := setAt_getD ..
theorem State.modPart_part (s : State) (c p d q : Nat) (f : Part → Part) :
    (s.modPart c p f).part d q = if d = c ∧ q = p then f (s.part c p) else s.part d q := by
  unfold State.modPart State.part
  rw [State.modCore_get]
  by_cases h : d = c
  · subst h; simp
  · simp [h]
@[simp] theorem State.modPart_self (s : State) (c p : Nat) (f : Part → Part) : (s.modPart c p f).part c p = f (s.part c p) := by
  simp [State.modPart_part]
@[simp] theorem State.modPart_on (s : State) (c p : Nat) (f : Part → Part) : (s.modPart c p f).on = s.on := rfl
@[simp] theorem State.modPart_groups (s : State) (c p : Nat) (f : Part → Part) : (s.modPart c p f).groups = s.groups := rfl
@[simp] theorem State.modPart_blocks (s : State) (c p : Nat) (f : Part → Part) : (s.modPart c p f).blocks = s.blocks := rfl
@[simp] theorem State.modPart_grids (s : State) (c p : Nat) (f : Part → Part) : (s.modPart c p f).grids = s.grids := rfl
@[simp] theorem State.modPart_quads (s : State) (c p : Nat) (f : Part → Part) : (s.modPart c p f).quads = s.quads := rfl
@[simp] theorem State.modPart_dies (s : State) (c p : Nat) (f : Part → Part) : (s.modPart c p f).dies = s.dies := rfl
@[simp] theorem State.modPart_ctxs (s : State) (c p : Nat) (f : Part → Part) : (s.modPart c p f).ctxs = s.ctxs := rfl
@[simp] theorem State.modPart_lqs (s : State) (c p : Nat) (f : Part → Part) : (s.modPart c p f).lqs = s.lqs := rfl
@[simp] theorem State.modPart_mem (s : State) (c p : Nat) (f : Part → Part) : (s.modPart c p f).mem = s.mem := rfl
@[simp] theorem State.modPart_accs (s : State) (c p : Nat) (f : Part → Part) : (s.modPart c p f).accs = s.accs := rfl
@[simp] theorem State.modPart_spads (s : State) (c p : Nat) (f : Part → Part) : (s.modPart c p f).spads = s.spads := rfl
@[simp] theorem State.modPart_steals (s : State) (c p : Nat) (f : Part → Part) : (s.modPart c p f).steals = s.steals := rfl
@[simp] theorem State.modPart_redos (s : State) (c p : Nat) (f : Part → Part) : (s.modPart c p f).redos = s.redos := rfl
@[simp] theorem State.modPart_sigs (s : State) (c p : Nat) (f : Part → Part) : (s.modPart c p f).sigs = s.sigs := rfl
@[simp] theorem State.modPart_notices (s : State) (c p : Nat) (f : Part → Part) : (s.modPart c p f).notices = s.notices := rfl
@[simp] theorem State.modPart_colls (s : State) (c p : Nat) (f : Part → Part) : (s.modPart c p f).colls = s.colls := rfl
@[simp] theorem State.modPart_drains (s : State) (c p : Nat) (f : Part → Part) : (s.modPart c p f).drains = s.drains := rfl
@[simp] theorem State.modPart_bars (s : State) (c p : Nat) (f : Part → Part) : (s.modPart c p f).bars = s.bars := rfl
@[simp] theorem State.modPart_barHeld (s : State) (c p : Nat) (f : Part → Part) : (s.modPart c p f).barHeld = s.barHeld := rfl
@[simp] theorem State.modPart_ports (s : State) (c p : Nat) (f : Part → Part) : (s.modPart c p f).ports = s.ports := rfl
@[simp] theorem State.modPart_rtab (s : State) (c p : Nat) (f : Part → Part) : (s.modPart c p f).rtab = s.rtab := rfl
@[simp] theorem State.modPart_pkg (s : State) (c p : Nat) (f : Part → Part) : (s.modPart c p f).pkg = s.pkg := rfl
@[simp] theorem State.modPart_fabFail (s : State) (c p : Nat) (f : Part → Part) : (s.modPart c p f).fabFail = s.fabFail := rfl
@[simp] theorem State.modPart_out (s : State) (c p : Nat) (f : Part → Part) : (s.modPart c p f).out = s.out := rfl
@[simp] theorem State.modPart_resent (s : State) (c p : Nat) (f : Part → Part) : (s.modPart c p f).resent = s.resent := rfl
@[simp] theorem State.modPart_outHeld (s : State) (c p : Nat) (f : Part → Part) : (s.modPart c p f).outHeld = s.outHeld := rfl
@[simp] theorem State.modPart_parts (s : State) (c p : Nat) (f : Part → Part) : (s.modPart c p f).parts = s.parts := rfl
@[simp] theorem State.modPart_kept (s : State) (c p : Nat) (f : Part → Part) : (s.modPart c p f).kept = s.kept := rfl
@[simp] theorem State.modPart_erasure (s : State) (c p : Nat) (f : Part → Part) : (s.modPart c p f).erasure = s.erasure := rfl
@[simp] theorem State.modPart_hand (s : State) (c p : Nat) (f : Part → Part) : (s.modPart c p f).hand = s.hand := rfl
@[simp] theorem State.modPart_power (s : State) (c p : Nat) (f : Part → Part) : (s.modPart c p f).power = s.power := rfl
@[simp] theorem State.modPart_linkClamped (s : State) (c p : Nat) (f : Part → Part) : (s.modPart c p f).linkClamped = s.linkClamped := rfl
@[simp] theorem State.modPart_nextGrid (s : State) (c p : Nat) (f : Part → Part) : (s.modPart c p f).nextGrid = s.nextGrid := rfl
@[simp] theorem State.modPart_nextBlock (s : State) (c p : Nat) (f : Part → Part) : (s.modPart c p f).nextBlock = s.nextBlock := rfl
@[simp] theorem State.modPart_nextId (s : State) (c p : Nat) (f : Part → Part) : (s.modPart c p f).nextId = s.nextId := rfl
@[simp] theorem State.modPart_fresh (s : State) (c p : Nat) (f : Part → Part) : (s.modPart c p f).fresh = s.fresh := rfl
@[simp] theorem State.modPart_focus (s : State) (c p : Nat) (f : Part → Part) : (s.modPart c p f).focus = s.focus := rfl
@[simp] theorem State.modPart_agenda (s : State) (c p : Nat) (f : Part → Part) : (s.modPart c p f).agenda = s.agenda := rfl
@[simp] theorem State.modPart_group (s : State) (c p j : Nat) (f : Part → Part) : (s.modPart c p f).group j = s.group j := rfl
@[simp] theorem State.modPart_block (s : State) (c p j : Nat) (f : Part → Part) : (s.modPart c p f).block j = s.block j := rfl
@[simp] theorem State.modPart_quad (s : State) (c p j : Nat) (f : Part → Part) : (s.modPart c p f).quad j = s.quad j := rfl
@[simp] theorem State.modPart_die (s : State) (c p j : Nat) (f : Part → Part) : (s.modPart c p f).die j = s.die j := rfl
@[simp] theorem State.modPart_ctx (s : State) (c p j : Nat) (f : Part → Part) : (s.modPart c p f).ctx j = s.ctx j := rfl
@[simp] theorem State.modPart_lq (s : State) (c p j : Nat) (f : Part → Part) : (s.modPart c p f).lq j = s.lq j := rfl
@[simp] theorem State.modGroup_part (s : State) (k c p : Nat) (f : Group → Group) : (s.modGroup k f).part c p = s.part c p := rfl
@[simp] theorem State.setGroup_part (s : State) (k c p : Nat) (g : Group) : (s.setGroup k g).part c p = s.part c p := rfl

end Machine

end Sys2Proof
end

