-- ==== Sys2Proof/Laws/Regs.lean ====
section
/-! SUPPORT. What each register operation of an issuing split leaves: the value every operand code and predicate reads after it,
and what it does not touch. -/

namespace Sys2Proof.Machine

/-! Lanes and masks. -/

theorem mem_laneIdx {l : Nat} : l ∈ laneIdx ↔ l < 32 := by simp [laneIdx]

theorem Vec.ofFn_lane (f : Nat → Word) {l : Nat} (h : l < 32) : (Vec.ofFn f).lane l = f l := by
  simp [Vec.ofFn, Vec.lane, laneIdx, h]

theorem Vec.replicate_lane (l : Nat) : Vec.lane (List.replicate 32 0) l = 0 := by
  simp only [Vec.lane, List.getD_eq_getElem?_getD, List.getElem?_replicate]
  split <;> rfl

theorem Mask.foldl_getLsbD (f : Nat → Bool) (ls : List Nat) (m : Mask) (h : ∀ i ∈ ls, i < 32) (l : Nat) :
    (ls.foldl (fun m i => if f i then m ||| (1#32 <<< i) else m) m).getLsbD l = (m.getLsbD l || (ls.contains l && f l)) := by
  induction ls generalizing m with
  | nil => simp
  | cons i r ih =>
    rw [List.foldl_cons, ih _ (fun j hj => h j (List.mem_cons_of_mem _ hj))]
    have hi : i < 32 := h i List.mem_cons_self
    by_cases hl : l = i
    · subst hl
      by_cases hf : f l <;> simp [hf, hi]
    · have : ¬ i = l := fun e => hl e.symm
      by_cases hf : f i
      · have h1 : (1#32 <<< i).getLsbD l = false := by
          rw [BitVec.getLsbD_shiftLeft]
          by_cases h2 : l < i
          · simp [h2]
          · simp; intros; omega
        simp [hf, h1, hl]
      · simp [hf, hl]

theorem Mask.ofFn_getLsbD (f : Nat → Bool) (l : Nat) : (Mask.ofFn f).getLsbD l = (decide (l < 32) && f l) := by
  unfold Mask.ofFn
  rw [Mask.foldl_getLsbD f laneIdx 0 (fun i hi => mem_laneIdx.1 hi)]
  simp [mem_laneIdx]

theorem Mask.mem_lanes {m : Mask} {l : Nat} : l ∈ m.lanes ↔ l < 32 ∧ m.getLsbD l = true := by
  simp [Mask.lanes, mem_laneIdx]

/-! Where the registers of a split stand. -/

@[simp] theorem State.regs_handler (s : State) (i : Iss) : (s.regs i).handler = i.handler := rfl
@[simp] theorem State.regs_g (s : State) (i : Iss) : (s.regs i).g = s.group i.gid := rfl
@[simp] theorem State.regs_b (s : State) (i : Iss) : (s.regs i).b = (s.part i.core i.part).bank := rfl

/-- Operand values depend on the names, the uniform registers and the bank only. -/
theorem Regs.x_congr {r t : Regs} (h : r.handler = t.handler) (hn : r.handler = false → r.g.names = t.g.names)
    (hg : r.handler = false → r.g.g = t.g.g) (hb : r.handler = true → r.b = t.b) (c l : Nat) : r.x c l = t.x c l := by
  unfold Regs.x Regs.v Regs.u Group.name?
  cases hh : r.handler with
  | true => simp [← h, hh, hb hh]
  | false => simp [← h, hh, hn hh, hg hh]

/-- Predicates depend on the predicate registers and the bank only. -/
theorem Regs.pred_congr {r t : Regs} (h : r.handler = t.handler) (hp : r.handler = false → r.g.p = t.g.p)
    (hq : r.handler = false → r.g.q = t.g.q) (hb : r.handler = true → r.b = t.b) (c l : Nat) : r.pred c l = t.pred c l := by
  unfold Regs.pred
  cases hh : r.handler with
  | true => simp [← h, hh, hb hh]
  | false => simp [← h, hh, hp hh, hq hh]

end Sys2Proof.Machine
end

