-- ==== Sys2Proof/Laws/Result.lean ====
section
/-! SUPPORT. What an issued instruction that only writes registers leaves, built up from the single register operations. -/

namespace Sys2Proof.Machine

/-- What register writes leave before the split goes on: as Result, with lanes, slots and run untouched; `fr` are the lane
registers that may have been freed. -/
structure Writes (s t : State) (x : Iss) (fr : List Nat) (dst : Nat → Nat → Option Word) (pd : Nat → Nat → Option Bool) (fl : Flags) : Prop where
  rest : t = { s with groups := t.groups, cores := t.cores }
  others : ∀ g, g ≠ x.gid → t.group g = s.group g
  cores : ∀ c, c ≠ x.core → t.core c = s.core c
  core : t.core x.core = { s.core x.core with parts := (t.core x.core).parts }
  parts : ∀ p, p ≠ x.part → t.part x.core p = s.part x.core p
  part : t.part x.core x.part = { s.part x.core x.part with
    bank := (t.part x.core x.part).bank, bankBad := (t.part x.core x.part).bankBad }
  group : t.group x.gid = { s.group x.gid with
    names := (t.group x.gid).names, g := (t.group x.gid).g, p := (t.group x.gid).p, q := (t.group x.gid).q,
    fpstat := (t.group x.gid).fpstat, regBad := (t.group x.gid).regBad }
  written : ∀ c l w, l < 32 → dst c l = some w → (t.regs x).x c l = w
  kept : ∀ c l, l < 32 → dst c l = none → c ∉ fr → (t.regs x).x c l = (s.regs x).x c l
  preds : ∀ c l, l < 32 → (t.regs x).pred c l = (pd c l).getD ((s.regs x).pred c l)
  flags : (t.group x.gid).fpstat = if x.handler then (s.group x.gid).fpstat else (s.group x.gid).fpstat ||| fl

theorem Writes.refl (s : State) (x : Iss) : Writes s s x [] noReg noPred 0 := by
  constructor <;> simp [noReg, noPred]

/-- One write after another: the later one wins where both write, and frees nothing the earlier one wrote. -/
theorem Writes.trans {s t u : State} {x : Iss} {r₁ r₂ r : List Nat} {d₁ d₂ d : Nat → Nat → Option Word}
    {p₁ p₂ p : Nat → Nat → Option Bool} {f₁ f₂ : Flags}
    (h₁ : Writes s t x r₁ d₁ p₁ f₁) (h₂ : Writes t u x r₂ d₂ p₂ f₂)
    (hd : ∀ c l, d c l = (d₂ c l).or (d₁ c l)) (hp : ∀ c l, p c l = (p₂ c l).or (p₁ c l))
    (hr : ∀ c, c ∈ r₁ ∨ c ∈ r₂ → c ∈ r) (hf : ∀ c l, d₁ c l ≠ none → c ∉ r₂) :
    Writes s u x r d p (f₁ ||| f₂) where
  rest := by rw [h₂.rest, h₁.rest]
  others g hg := by rw [h₂.others g hg, h₁.others g hg]
  cores c hc := by rw [h₂.cores c hc, h₁.cores c hc]
  core := by rw [h₂.core, h₁.core]
  parts p hp := by rw [h₂.parts p hp, h₁.parts p hp]
  part := by rw [h₂.part, h₁.part]
  group := by rw [h₂.group, h₁.group]
  written c l w hl hw := by
    rw [hd] at hw
    cases e : d₂ c l with
    | some v => rw [e] at hw; rw [h₂.written c l v hl e]; simpa using hw
    | none =>
      rw [e] at hw
      have e1 : d₁ c l = some w := by simpa using hw
      rw [h₂.kept c l hl e (hf c l (by simp [e1])), h₁.written c l w hl e1]
  kept c l hl hn hk := by
    rw [hd] at hn
    rw [Option.or_eq_none_iff] at hn
    rw [h₂.kept c l hl hn.1 fun h => hk (hr c (.inr h)), h₁.kept c l hl hn.2 fun h => hk (hr c (.inl h))]
  preds c l hl := by
    rw [h₂.preds c l hl, h₁.preds c l hl, hp]
    cases p₂ c l <;> simp
  flags := by
    rw [h₂.flags, h₁.flags]
    split
    · rfl
    · rw [BitVec.or_assoc]

/-- The lanes and the slot of a split as it goes on (R156). -/
theorem Group.goOn_lane (g : Group) (k l : Nat) (m : Mask) (pc : CodeAddr) (f : Slot → Slot) (hl : l < 32) :
    ((g.moveSplit k m pc).modSlot k f).lane l = if m.getLsbD l then { g.lane l with lpc := pc } else g.lane l := by
  simp only [Group.moveSplit, Group.modSlot_lane]
  exact Group.modLanes_lane g m _ hl

theorem Group.goOn_slot (g : Group) (k j : Nat) (m : Mask) (pc : CodeAddr) (f : Slot → Slot) :
    ((g.moveSplit k m pc).modSlot k f).slot j = if j = k then f { g.slot k with spc := pc } else g.slot j := by
  simp only [Group.moveSplit, Group.modSlot_slot, Group.modLanes_slot]
  by_cases h : j = k <;> simp [h]

/-- What ending a run changes: one partition's run. -/
theorem State.endRun_eq (s : State) (gid slot : Nat) (cut : Bool) :
    s.endRun gid slot cut = s.modPart (s.group gid).core (s.group gid).part fun p => { p with run := p.run.map fun r =>
      if r.gid = gid ∧ r.slot = slot then { r with ended := true, cut := cut } else r } := by
  unfold State.endRun
  dsimp only
  congr 1
  funext p
  obtain ⟨run, _, _, _, _⟩ := p
  cases run with
  | none => rfl
  | some r => by_cases h : r.gid = gid ∧ r.slot = slot <;> simp [h]

/-- The split goes on after register writes. -/
theorem Writes.advance {s t : State} {x : Iss} {d : Nat → Nat → Option Word} {p : Nat → Nat → Option Bool} {f : Flags}
    (h : Writes s t x x.lastOnes d p f) (hc : (s.group x.gid).core = x.core) (hp : (s.group x.gid).part = x.part) :
    Result s (t.advance x) x d p f := by
  have hg : (t.group x.gid).core = x.core := by rw [h.group]; exact hc
  have hq : (t.group x.gid).part = x.part := by rw [h.group]; exact hp
  generalize hu : (fun g : Group => (g.moveSplit x.slot x.active (x.pc + BitVec.ofNat 56 x.ins.len)).modSlot x.slot fun y =>
    { y with replay := none, mark := none, claim := .none, nstall := 0, stallAt := none, fedone := false, fesent := none, fearr := false }) = upd
  have hadv : t.advance x = if x.ins.f.e.toNat = 1 then (t.modGroup x.gid upd).modPart x.core x.part fun p => { p with run := p.run.map fun r =>
      if r.gid = x.gid ∧ r.slot = x.slot then { r with ended := true, cut := false } else r } else t.modGroup x.gid upd := by
    subst hu
    unfold State.advance
    dsimp only
    rw [State.endRun_eq]
    simp only [State.modGroup_self]
    rw [show ∀ (g : Group) k m pc (f : Slot → Slot), ((g.moveSplit k m pc).modSlot k f).core = g.core from fun _ _ _ _ _ => rfl,
      show ∀ (g : Group) k m pc (f : Slot → Slot), ((g.moveSplit k m pc).modSlot k f).part = g.part from fun _ _ _ _ _ => rfl, hg, hq]
  have eg : (t.advance x).group x.gid = upd (t.group x.gid) := by rw [hadv]; split <;> simp
  generalize hr : (fun o : Option Run => if x.ins.f.e.toNat = 1 then
    o.map fun r => if r.gid = x.gid ∧ r.slot = x.slot then { r with ended := true, cut := false } else r else o) = upr
  have ep : (t.advance x).part x.core x.part = { t.part x.core x.part with run := upr (t.part x.core x.part).run } := by
    subst hr; rw [hadv]; split <;> simp_all
  have er : ∀ c l, ((t.advance x).regs x).x c l = (t.regs x).x c l := by
    intro c l
    apply Regs.x_congr
    · rfl
    · intro _; subst hu; simp [eg]; rfl
    · intro _; subst hu; simp [eg]; rfl
    · intro _; simp [ep]
  have epr : ∀ c l, ((t.advance x).regs x).pred c l = (t.regs x).pred c l := by
    intro c l
    apply Regs.pred_congr
    · rfl
    · intro _; subst hu; simp [eg]; rfl
    · intro _; subst hu; simp [eg]; rfl
    · intro _; simp [ep]
  refine ⟨⟨?_, ?_, ?_, ?_, ?_, ?_⟩, ?_, ⟨?_, ?_, ?_, ?_⟩, ?_, ?_, ?_, ?_⟩
  · obtain ⟨G, C, e⟩ : ∃ G C, t = { s with groups := G, cores := C } := ⟨_, _, h.rest⟩
    rw [hadv, e]
    split <;> rfl
  · intro g hgn
    rw [← h.others g hgn, hadv]
    split <;> simp [State.modGroup_ne _ hgn]
  · intro c hcn
    rw [← h.cores c hcn, hadv]
    split
    · unfold State.modPart; rw [State.modCore_ne _ hcn]; rfl
    · rfl
  · rw [hadv]
    split
    · unfold State.modPart; rw [State.modCore_self]; simp only [State.modGroup_core]; rw [h.core]; rfl
    · simp only [State.modGroup_core]; exact h.core
  · intro k hk
    rw [← h.parts k hk, hadv]
    split
    · rw [State.modPart_part, if_neg (by simp [hk])]; rfl
    · rfl
  · rw [ep, h.part]
  · unfold RegsOnly
    rw [eg]
    subst hu
    rw [h.group]
    rfl
  · intro l hl
    rw [eg]
    subst hu
    rw [Group.goOn_lane _ _ _ _ _ _ hl, h.group]
    rfl
  · rw [eg]
    subst hu
    rw [Group.goOn_slot, if_pos rfl, h.group]
    rfl
  · intro k hk
    rw [eg]
    subst hu
    rw [Group.goOn_slot, if_neg hk, h.group]
    rfl
  · rw [ep, h.part]; subst hr; rfl
  · intro c l w hl hw; rw [er]; exact h.written c l w hl hw
  · intro c l hl hn hk; rw [er]; exact h.kept c l hl hn hk
  · intro c l hl; rw [epr]; exact h.preds c l hl
  · rw [eg]
    subst hu
    rw [← h.flags]
    rfl

/-! The single writes. -/

/-- A change of the issuing group's registers and flags. -/
theorem Writes.ofGroup {s : State} {x : Iss} {r : List Nat} {f : Group → Group} {d : Nat → Nat → Option Word} {p : Nat → Nat → Option Bool} {fl : Flags}
    (hg : ∀ g : Group, f g = { g with
      names := (f g).names, g := (f g).g, p := (f g).p, q := (f g).q, fpstat := (f g).fpstat, regBad := (f g).regBad })
    (hw : ∀ c l w, l < 32 → d c l = some w → ({ s.regs x with g := f (s.group x.gid) } : Regs).x c l = w)
    (hk : ∀ c l, l < 32 → d c l = none → c ∉ r → ({ s.regs x with g := f (s.group x.gid) } : Regs).x c l = (s.regs x).x c l)
    (hp : ∀ c l, l < 32 → ({ s.regs x with g := f (s.group x.gid) } : Regs).pred c l = (p c l).getD ((s.regs x).pred c l))
    (hf : (f (s.group x.gid)).fpstat = if x.handler then (s.group x.gid).fpstat else (s.group x.gid).fpstat ||| fl) :
    Writes s (s.modGroup x.gid f) x r d p fl := by
  have e : (s.modGroup x.gid f).regs x = { s.regs x with g := f (s.group x.gid) } := by
    simp [State.regs]
  refine ⟨rfl, fun g h => State.modGroup_ne s h f, fun _ _ => rfl, rfl, fun _ _ => rfl, rfl, ?_, ?_, ?_, ?_, ?_⟩
  · rw [State.modGroup_self]; exact hg _
  · intro c l w hl h; rw [e]; exact hw c l w hl h
  · intro c l hl h h'; rw [e]; exact hk c l hl h h'
  · intro c l hl; rw [e]; exact hp c l hl
  · rw [State.modGroup_self]; exact hf

/-- A change of the handler bank's registers, by a split in handler mode. -/
theorem Writes.ofBank {s : State} {x : Iss} {r : List Nat} {f : Part → Part} {d : Nat → Nat → Option Word} {p : Nat → Nat → Option Bool}
    (hh : x.handler = true) (hg : ∀ q : Part, f q = { q with bank := (f q).bank, bankBad := (f q).bankBad })
    (hw : ∀ c l w, l < 32 → d c l = some w → ({ s.regs x with b := (f (s.part x.core x.part)).bank } : Regs).x c l = w)
    (hk : ∀ c l, l < 32 → d c l = none → c ∉ r →
      ({ s.regs x with b := (f (s.part x.core x.part)).bank } : Regs).x c l = (s.regs x).x c l)
    (hp : ∀ c l, l < 32 → ({ s.regs x with b := (f (s.part x.core x.part)).bank } : Regs).pred c l = (p c l).getD ((s.regs x).pred c l)) :
    Writes s (s.modPart x.core x.part f) x r d p 0 := by
  have e : (s.modPart x.core x.part f).regs x = { s.regs x with b := (f (s.part x.core x.part)).bank } := by
    simp [State.regs]
  refine ⟨rfl, fun _ _ => rfl, fun c h => State.modCore_ne s h _, ?_, ?_, ?_, rfl, ?_, ?_, ?_, ?_⟩
  · unfold State.modPart; rw [State.modCore_self]; rfl
  · intro k hk; rw [State.modPart_part, if_neg (by simp [hk])]
  · rw [State.modPart_self]; exact hg _
  · intro c l w hl h; rw [e]; exact hw c l w hl h
  · intro c l hl h h'; rw [e]; exact hk c l hl h h'
  · intro c l hl; rw [e]; exact hp c l hl
  · simp [hh]

/-- A step that writes nothing a program reads changes nothing of what follows it. -/
theorem Writes.after {s t u : State} {x : Iss} {r : List Nat} {d : Nat → Nat → Option Word} {p : Nat → Nat → Option Bool} {f : Flags}
    (h₁ : Writes s t x [] noReg noPred 0) (h₂ : Writes t u x r d p f) : Writes s u x r d p f := by
  have := h₁.trans h₂ (d := d) (p := p) (r := r) (by intros; simp [noReg]) (by intros; simp [noPred]) (by simp) (by simp [noReg])
  simpa using this

/-- Clearing the errors of a register a write replaces. -/
theorem State.cleanReg_writes (s : State) (x : Iss) (c : Nat) (m : Mask) : Writes s (s.cleanReg x c m) x [] noReg noPred 0 := by
  unfold State.cleanReg
  split
  · rename_i hh
    exact Writes.ofBank hh (fun _ => rfl) (by simp [noReg]) (fun _ _ _ _ _ => rfl) (fun _ _ _ => rfl)
  · exact Writes.ofGroup (fun _ => rfl) (by simp [noReg]) (fun _ _ _ _ _ => rfl) (fun _ _ _ => rfl) (by simp)

/-- One lane register written in the executing lanes. -/
def oneLane (x : Iss) (n : Nat) (val : Nat → Word) : Nat → Nat → Option Word := fun c l =>
  if c = n ∧ n < 128 ∧ x.exec.getLsbD l = true then some (val l) else none

/-- Mapping a name changes no value: it read 0 before and reads 0 after. -/
theorem State.mapName_writes (s : State) (x : Iss) (n : Nat) (hh : x.handler = false) :
    Writes s (s.mapName x n) x [] noReg noPred 0 := by
  unfold State.mapName
  split
  · exact Writes.refl s x
  · rename_i h
    refine Writes.ofGroup (fun _ => rfl) (by simp [noReg]) (fun c l _ _ _ => ?_) (fun _ _ _ => rfl) (by simp)
    simp only [Regs.x, Regs.v, Regs.u, State.regs_handler, hh, Bool.false_eq_true, if_false, Group.name?, State.regs_g]
    split
    · rw [Tbl.get?_set]
      by_cases hc : c = n
      · subst hc; simp only [if_true]; rw [show (s.group x.gid).names.get? c = none from h]; exact Vec.replicate_lane l
      · simp [hc]
    · rfl

theorem State.mapName_name? (s : State) (x : Iss) (n : Nat) : (((s.mapName x n).group x.gid).name? n).isSome = true := by
  unfold State.mapName
  split
  · rename_i e h; simp [h]
  · simp [Group.name?]

/-- A lane register write (R179, R193). -/
theorem State.writeV_writes (s : State) (x : Iss) (n : Nat) (val : Nat → Word) :
    Writes s (s.writeV x n val) x [] (oneLane x n val) noPred 0 := by
  unfold State.writeV
  split
  · rename_i h
    have : oneLane x n val = noReg := by funext c l; simp [oneLane, noReg]; intros; omega
    rw [this]; exact Writes.refl s x
  · rename_i hn
    split
    · rename_i hh
      refine (State.cleanReg_writes s x n x.exec).after (Writes.ofBank hh (fun _ => rfl) ?_ ?_ (fun _ _ _ => rfl))
      · intro c l w hl hw
        simp only [oneLane, Option.ite_none_right_eq_some, Option.some.injEq] at hw
        obtain ⟨⟨rfl, h1, h2⟩, rfl⟩ := hw
        simp only [Regs.x, h1, if_true, Regs.v, State.regs_handler, hh, setAt_getD, Vec.ofFn_lane _ hl, h2]
      · intro c l hl hw _
        simp only [oneLane, ite_eq_right_iff, reduceCtorEq, imp_false, not_and] at hw
        simp only [Regs.x, Regs.v, Regs.u, State.regs_handler, hh, if_true, setAt_getD]
        split
        · by_cases hc : c = n
          · subst hc
            have := hw rfl (by omega)
            simp [Vec.ofFn_lane _ hl, this]
          · simp [hc]
        · rfl
    · rename_i hh
      have hh : x.handler = false := by simpa using hh
      refine (State.cleanReg_writes s x n x.exec).after ((State.mapName_writes _ x n hh).after ?_)
      generalize hs : (s.cleanReg x n x.exec).mapName x n = t
      have hname : ((t.group x.gid).name? n).isSome = true := by subst hs; exact State.mapName_name? ..
      obtain ⟨e, he⟩ := Option.isSome_iff_exists.1 hname
      refine Writes.ofGroup ?_ ?_ ?_ ?_ ?_
      · intro g; cases g.name? n <;> rfl
      · intro c l w hl hw
        simp only [oneLane, Option.ite_none_right_eq_some, Option.some.injEq] at hw
        obtain ⟨⟨rfl, h1, h2⟩, rfl⟩ := hw
        simp only [he]
        simp only [Regs.x, h1, if_true, Regs.v, State.regs_handler, hh, Bool.false_eq_true, if_false, Group.name?, Tbl.get?_set_self,
          Vec.ofFn_lane _ hl, h2]
      · intro c l hl hw _
        simp only [oneLane, ite_eq_right_iff, reduceCtorEq, imp_false, not_and] at hw
        simp only [he]
        simp only [Regs.x, Regs.v, Regs.u, State.regs_handler, hh, Bool.false_eq_true, if_false, Group.name?, Tbl.get?_set, State.regs_g]
        split
        · by_cases hc : c = n
          · subst hc
            have := hw rfl (by omega)
            rw [if_pos rfl, show (t.group x.gid).names.get? c = some e from he]
            simp [Vec.ofFn_lane _ hl, this]
          · rw [if_neg hc]
        · rfl
      · intro c l hl; simp only [he]; rfl
      · simp only [he]; simp

/-! Last reads, wider writes, predicates and flags. -/

/-- Freeing a name touches that name alone. -/
theorem Group.freeName_spec (g : Group) (n : Nat) :
    g.freeName n = { g with names := (g.freeName n).names } ∧ ∀ c, c ≠ n → (g.freeName n).names.get? c = g.names.get? c := by
  unfold Group.freeName
  split
  · exact ⟨rfl, fun _ _ => rfl⟩
  · split
    · exact ⟨rfl, fun c h => by simp [Tbl.get?_erase, h]⟩
    · exact ⟨rfl, fun _ _ => rfl⟩

/-- Clearing LIVE bits of a name touches that name alone. -/
theorem Group.unlive_spec (g : Group) (n : Nat) (m : Mask) :
    g.unlive n m = { g with names := (g.unlive n m).names } ∧ ∀ c, c ≠ n → (g.unlive n m).names.get? c = g.names.get? c := by
  unfold Group.unlive
  split
  · exact ⟨rfl, fun _ _ => rfl⟩
  · refine ⟨?_, fun c h => ?_⟩
    · rw [(Group.freeName_spec _ n).1]
    · rw [(Group.freeName_spec _ n).2 c h, Tbl.get?_set_ne _ h]

theorem Group.unlives_spec (ns : List Nat) (m : Mask) (g : Group) :
    ns.foldl (fun g n => g.unlive n m) g = { g with names := (ns.foldl (fun g n => g.unlive n m) g).names } ∧
      ∀ c, c ∉ ns → (ns.foldl (fun g n => g.unlive n m) g).names.get? c = g.names.get? c := by
  induction ns generalizing g with
  | nil => exact ⟨rfl, fun _ _ => rfl⟩
  | cons n r ih =>
    rw [List.foldl_cons]
    refine ⟨?_, fun c h => ?_⟩
    · rw [(ih _).1, (Group.unlive_spec g n m).1]
    · rw [(ih _).2 c (fun h' => h (List.mem_cons_of_mem _ h')), (Group.unlive_spec g n m).2 c (fun e => h (e ▸ List.mem_cons_self))]

/-- Last reads (R180): only names read for the last time may change. -/
theorem State.lastReads_writes (s : State) (x : Iss) : Writes s (s.lastReads x) x x.lastOnes noReg noPred 0 := by
  unfold State.lastReads
  split
  · exact { Writes.refl s x with kept := fun _ _ _ _ _ => rfl }
  · rename_i hh
    have hh : x.handler = false := by simpa using hh
    have sp := Group.unlives_spec x.ins.lastNames x.active
    refine Writes.ofGroup (fun g => ?_) (by simp [noReg]) (fun c l _ _ hk => ?_) (fun c l _ => ?_) ?_
    · conv_lhs => rw [(sp g).1]
      rw [(sp g).1]
    · have hk : c ∉ x.ins.lastNames := by simpa [Iss.lastOnes, hh] using hk
      simp only [Regs.x, Regs.v, Regs.u, State.regs_handler, hh, Bool.false_eq_true, if_false, Group.name?, State.regs_g]
      rw [(sp _).2 c hk, (sp _).1]
    · rw [(sp _).1]; rfl
    · rw [(sp _).1]; simp

/-- Flags raised (R43). -/
theorem State.flags_writes (s : State) (x : Iss) (f : Flags) : Writes s (s.flags x f) x [] noReg noPred f := by
  unfold State.flags
  split
  · rename_i hh
    have := Writes.refl s x
    exact { this with flags := by simp [hh] }
  · rename_i hh
    exact Writes.ofGroup (fun _ => rfl) (by simp [noReg]) (fun _ _ _ _ _ => rfl) (fun _ _ _ => rfl) (by simp [hh])

/-- Lane registers from `d` on, the words of a value for each executing lane. -/
def lanesFrom (x : Iss) (d n : Nat) (v : Nat → Nat) : Nat → Nat → Option Word := fun c l =>
  if d ≤ c ∧ c < d + n ∧ c < 128 ∧ x.exec.getLsbD l = true then some (BitVec.ofNat 32 (v l >>> (32 * (c - d)))) else none

/-- Writes of several registers, one after the other. -/
theorem State.writeVs_writes (s : State) (x : Iss) (d n : Nat) (v : Nat → Nat) :
    Writes s ((List.range n).foldl (fun s k => s.writeV x (d + k) fun l => BitVec.ofNat 32 (v l >>> (32 * k))) s) x []
      (lanesFrom x d n v) noPred 0 := by
  induction n with
  | zero =>
    have : lanesFrom x d 0 v = noReg := by funext c l; simp [lanesFrom, noReg]; omega
    rw [this]; exact Writes.refl s x
  | succ n ih =>
    rw [List.range_succ, List.foldl_append]
    have h := ih.trans (State.writeV_writes _ x (d + n) (fun l => BitVec.ofNat 32 (v l >>> (32 * n)))) (d := lanesFrom x d (n + 1) v)
      (p := noPred) (r := []) ?_ (by simp [noPred]) (by simp) (by simp)
    · simpa using h
    · intro c l
      simp only [lanesFrom, oneLane]
      by_cases hc : c = d + n
      · subst hc
        by_cases h1 : d + n < 128 ∧ x.exec.getLsbD l = true
        · simp [h1]
        · rw [if_neg (by tauto), if_neg (by tauto), if_neg (by omega)]; rfl
      · by_cases h1 : d ≤ c ∧ c < d + n ∧ c < 128 ∧ x.exec.getLsbD l = true
        · rw [if_pos ⟨h1.1, by omega, h1.2.2⟩, if_neg (by tauto), if_pos h1]; rfl
        · rw [if_neg (by intro h2; exact h1 ⟨h2.1, by omega, h2.2.2⟩), if_neg (by tauto), if_neg h1]; rfl

/-- Writes from a table of lane results. -/
theorem State.writeLanes_writes (s : State) (x : Iss) (d n : Nat) (t : List (Nat × Nat)) (h : d ≠ 288) :
    Writes s (s.writeLanes x d n t) x [] (lanesFrom x d n fun l => tableAt t l 0) noPred 0 := by
  unfold State.writeLanes
  rw [if_neg h]
  exact State.writeVs_writes s x d n _

/-- One uniform register written (R55). -/
def oneUni (c₀ : Nat) (w : Word) : Nat → Nat → Option Word := fun c _ => if c = c₀ ∧ 128 ≤ c ∧ c < 288 then some w else none

theorem State.writeU_writes (s : State) (x : Iss) (c₀ : Nat) (w : Word) : Writes s (s.writeU x c₀ w) x [] (oneUni c₀ w) noPred 0 := by
  unfold State.writeU
  split
  · rename_i h
    have : oneUni c₀ w = noReg := by funext c l; simp [oneUni, noReg]; omega
    rw [this]; exact Writes.refl s x
  · rename_i hn
    split
    · rename_i hh
      refine (State.cleanReg_writes s x c₀ 1).after (Writes.ofBank hh (fun _ => rfl) ?_ ?_ (fun _ _ _ => rfl))
      · intro c l w' hl hw
        simp only [oneUni, Option.ite_none_right_eq_some, Option.some.injEq] at hw
        obtain ⟨⟨rfl, h1, h2⟩, rfl⟩ := hw
        simp only [Regs.x, h2, if_true, Regs.u, State.regs_handler, hh, setAt_getD]
        rw [if_neg (by omega)]
      · intro c l hl hw _
        simp only [oneUni, ite_eq_right_iff, reduceCtorEq, imp_false, not_and] at hw
        simp only [Regs.x, Regs.v, Regs.u, State.regs_handler, hh, if_true, setAt_getD]
        split
        · rfl
        · split
          · by_cases hc : c = c₀
            · exact absurd (by omega) (hw hc (by omega))
            · rw [if_neg (by omega)]; rfl
          · rfl
    · rename_i hh
      have hh : x.handler = false := by simpa using hh
      refine (State.cleanReg_writes s x c₀ 1).after (Writes.ofGroup (fun _ => rfl) ?_ ?_ (fun _ _ _ => rfl) (by simp))
      · intro c l w' hl hw
        simp only [oneUni, Option.ite_none_right_eq_some, Option.some.injEq] at hw
        obtain ⟨⟨rfl, h1, h2⟩, rfl⟩ := hw
        simp only [Regs.x, h2, if_true, Regs.u, State.regs_handler, hh, setAt_getD, Bool.false_eq_true, if_false]
        rw [if_neg (by omega)]
      · intro c l hl hw _
        simp only [oneUni, ite_eq_right_iff, reduceCtorEq, imp_false, not_and] at hw
        simp only [Regs.x, Regs.v, Regs.u, State.regs_handler, hh, Bool.false_eq_true, if_false, setAt_getD]
        split
        · rfl
        · split
          · by_cases hc : c = c₀
            · exact absurd (by omega) (hw hc (by omega))
            · rw [if_neg (by omega)]; rfl
          · rfl

/-- Consecutive uniform registers written. -/
theorem State.writeUs_writes (s : State) (x : Iss) (d n v : Nat) : Writes s (s.writeUs x d n v) x [] (toUniform d n v) noPred 0 := by
  unfold State.writeUs
  split
  · rename_i h
    subst h
    have : toUniform 288 n v = noReg := by funext c l; simp [toUniform, noReg]; omega
    rw [this]; exact Writes.refl s x
  · clear * -
    induction n with
    | zero =>
      have : toUniform d 0 v = noReg := by funext c l; simp [toUniform, noReg]; omega
      rw [this]; exact Writes.refl s x
    | succ n ih =>
      rw [List.range_succ, List.foldl_append]
      have h := ih.trans (State.writeU_writes _ x (d + n) (BitVec.ofNat 32 (v >>> (32 * n)))) (d := toUniform d (n + 1) v)
        (p := noPred) (r := []) ?_ (by simp [noPred]) (by simp) (by simp)
      · simpa using h
      · intro c l
        simp only [toUniform, oneUni]
        by_cases hc : c = d + n
        · subst hc
          by_cases h1 : 128 ≤ d + n ∧ d + n < 288
          · rw [if_pos ⟨by omega, by omega, h1⟩, if_pos ⟨rfl, h1⟩, Nat.add_sub_cancel_left]; rfl
          · rw [if_neg (by tauto), if_neg (by tauto), if_neg (by omega)]; rfl
        · by_cases h1 : d ≤ c ∧ c < d + n ∧ 128 ≤ c ∧ c < 288
          · rw [if_pos ⟨h1.1, by omega, h1.2.2⟩, if_neg (by tauto), if_pos h1]; rfl
          · rw [if_neg (by intro h2; exact h1 ⟨h2.1, by omega, h2.2.2⟩), if_neg (by tauto), if_neg h1]; rfl

/-- A lane predicate written (R56). -/
theorem State.writeP_writes (s : State) (x : Iss) (n : Nat) (v : Nat → Bool) : Writes s (s.writeP x n v) x [] noReg (toPred x n v) 0 := by
  unfold State.writeP
  split
  · rename_i h
    have : toPred x n v = noPred := by funext c l; simp [toPred, noPred]; omega
    rw [this]; exact Writes.refl s x
  · rename_i hn
    have key : ∀ (old : Mask) (l : Nat), l < 32 →
        (Mask.ofFn fun l => if x.exec.getLsbD l then v l else old.getLsbD l).getLsbD l = if x.exec.getLsbD l then v l else old.getLsbD l := by
      intro old l hl; rw [Mask.ofFn_getLsbD]; simp [hl]
    dsimp only
    split
    · rename_i hh
      refine Writes.ofBank hh (fun _ => rfl) (by simp [noReg]) (fun _ _ _ _ _ => rfl) ?_
      intro c l hl
      simp only [Regs.pred, State.regs_handler, hh, if_true, setAt_getD, toPred]
      by_cases h7 : c < 7
      · simp only [h7, if_true]
        by_cases hc : c = n
        · subst hc
          rw [if_pos rfl, key _ l hl]
          by_cases he : x.exec.getLsbD l = true
          · simp [he, h7]
          · simp [he]
        · simp [hc]
      · rw [if_neg (c := c = n ∧ n < 7 ∧ x.exec.getLsbD l = true) (by omega)]
        simp [h7]
    · rename_i hh
      have hh : x.handler = false := by simpa using hh
      refine Writes.ofGroup (fun _ => rfl) (by simp [noReg]) (fun _ _ _ _ _ => rfl) ?_ (by simp)
      intro c l hl
      simp only [Regs.pred, State.regs_handler, hh, Bool.false_eq_true, if_false, setAt_getD, toPred]
      by_cases h7 : c < 7
      · simp only [h7, if_true]
        by_cases hc : c = n
        · subst hc
          rw [if_pos rfl, key _ l hl]
          by_cases he : x.exec.getLsbD l = true
          · simp [he, h7]
          · simp [he]
        · simp [hc]
      · rw [if_neg (c := c = n ∧ n < 7 ∧ x.exec.getLsbD l = true) (by omega)]
        simp [h7]

/-- The bits of q0 to q3 with one replaced. -/
theorem qBits (q : BitVec 4) (n : Nat) (v : Bool) (k : Nat) :
    (BitVec.ofNat 4 ((List.range 4).foldr (fun k acc => (if k = n then v else q.getLsbD k).toNat + 2 * acc) 0)).getLsbD k =
      if k = n ∧ k < 4 then v else q.getLsbD k := by
  by_cases hk : k < 4
  · by_cases hn : n < 4
    · revert q v; interval_cases k <;> interval_cases n <;> decide
    · have : ∀ j, j < 4 → ¬ j = n := by omega
      rw [if_neg (by omega)]
      have e : (List.range 4).foldr (fun k acc => (if k = n then v else q.getLsbD k).toNat + 2 * acc) 0
        = (List.range 4).foldr (fun k acc => (q.getLsbD k).toNat + 2 * acc) 0 := by
        simp [List.range_succ, this]
      rw [e]
      clear e
      revert q; interval_cases k <;> decide
  · rw [if_neg (by omega), BitVec.getLsbD_of_ge _ _ (by omega), BitVec.getLsbD_of_ge _ _ (by omega)]

/-- A uniform predicate written (R56). -/
theorem State.writeQ_writes (s : State) (x : Iss) (n : Nat) (v : Bool) (hn : 8 ≤ n ∧ n < 12) :
    Writes s (s.writeQ x n v) x [] noReg (toQ n v) 0 := by
  unfold State.writeQ
  dsimp only
  have key : ∀ (q : BitVec 4) (c : Nat), 8 ≤ c →
      (BitVec.ofNat 4 ((List.range 4).foldr (fun k acc => (if k = n - 8 then v else q.getLsbD k).toNat + 2 * acc) 0)).getLsbD (c - 8) =
        if c = n then v else q.getLsbD (c - 8) := by
    intro q c hc
    rw [qBits]
    by_cases h : c = n
    · subst h; rw [if_pos ⟨rfl, by omega⟩, if_pos rfl]
    · rw [if_neg (by omega), if_neg h]
  split
  · rename_i hh
    refine Writes.ofBank hh (fun _ => rfl) (by simp [noReg]) (fun _ _ _ _ _ => rfl) ?_
    intro c l hl
    simp only [Regs.pred, State.regs_handler, hh, if_true, toQ]
    split
    · rw [if_neg (by omega)]; rfl
    · split
      · rw [if_neg (by omega)]; rfl
      · rw [key _ c (by omega)]
        by_cases h : c = n
        · subst h; simp [hn]
        · simp [h]
  · rename_i hh
    have hh : x.handler = false := by simpa using hh
    refine Writes.ofGroup (fun _ => rfl) (by simp [noReg]) (fun _ _ _ _ _ => rfl) ?_ (by simp)
    intro c l hl
    simp only [Regs.pred, State.regs_handler, hh, Bool.false_eq_true, if_false, toQ]
    split
    · rw [if_neg (by omega)]; rfl
    · split
      · rw [if_neg (by omega)]; rfl
      · rw [key _ c (by omega)]
        by_cases h : c = n
        · subst h; simp [hn]
        · simp [h]

end Sys2Proof.Machine
end

