-- ==== Sys2Proof/Laws/Issue.lean ====
section
/-! SUPPORT. What issuing an instruction leaves, for each shared shape of effect. -/

namespace Sys2Proof.Machine

theorem State.issuer_some {s : State} {ins : Ins} {x : Iss} (h : s.issuer ins = some x) :
    ∃ r, (s.part s.focus.1 s.focus.2).run = some r ∧ r.ended = false ∧ ((s.group r.gid).slot r.slot).valid = true ∧
      ((s.group r.gid).slot r.slot).amask ≠ 0 ∧ x = s.issAt r.gid r.slot ins := by
  unfold State.issuer at h
  split at h
  · cases h
  · rename_i r hr
    dsimp only at h
    split at h
    · cases h
    · rename_i hc
      simp only [Bool.or_eq_true, Bool.not_eq_true', beq_iff_eq, not_or, Bool.not_eq_true, Bool.not_eq_false] at hc
      exact ⟨r, hr, hc.1.1, hc.1.2, hc.2, (Option.some.inj h).symm⟩

theorem State.issuer_core {s : State} {ins : Ins} {x : Iss} (h : s.issuer ins = some x) :
    (s.group x.gid).core = x.core ∧ (s.group x.gid).part = x.part ∧ x.ins = ins := by
  obtain ⟨r, _, _, _, _, rfl⟩ := State.issuer_some h
  exact ⟨rfl, rfl, rfl⟩

/-- An executing lane is active. -/
theorem State.issuer_exec {s : State} {ins : Ins} {x : Iss} (h : s.issuer ins = some x) (l : Nat) (he : x.exec.getLsbD l = true) :
    x.active.getLsbD l = true := by
  obtain ⟨r, _, _, _, _, rfl⟩ := State.issuer_some h
  simp only [State.issAt, BitVec.getLsbD_and, Bool.and_eq_true] at he ⊢
  exact he.1.1

/-- A ready instruction's effect takes place. -/
theorem issue_ready {s : State} {ins : Ins} {x : Iss} (eff : Iss → State → Eff) (h : s.issuer ins = some x)
    (hs : s.unsettled x = false) (hc : x.ins.check (s.bounds x) = none) (hb : s.badSource x = none) :
    issue ins eff s = .next ((eff x s).settle x) := by
  simp [issue, h, State.issued, State.checked, hs, hc, hb]

/-- What an effect that only writes registers leaves. -/
theorem issue_writes {s : State} {ins : Ins} {x : Iss} {eff : Iss → State → Eff} {t : State} {d : Nat → Nat → Option Word}
    {p : Nat → Nat → Option Bool} {f : Flags} (h : s.issuer ins = some x) (hs : s.unsettled x = false)
    (hc : x.ins.check (s.bounds x) = none) (hb : s.badSource x = none) (he : eff x s = .done t) (hw : Writes s t x x.lastOnes d p f) :
    ∃ t, issue ins eff s = .next t ∧ Result s t x d p f := by
  refine ⟨_, issue_ready eff h hs hc hb, ?_⟩
  rw [he]
  exact hw.advance (State.issuer_core h).1 (State.issuer_core h).2.1

theorem tableAt_laneTable {α : Type} (x : Iss) (f : Nat → α) (d : α) {l : Nat} (hl : l < 32) (h : x.exec.getLsbD l = true) :
    tableAt (laneTable x f) l d = f l := by
  have : ∀ ls : List Nat, l ∈ ls → Tbl.getD (ls.map fun l => (l, f l)) l d = f l := by
    intro ls
    induction ls with
    | nil => simp
    | cons a r ih =>
      intro hm
      by_cases ha : a = l
      · subst ha; simp [Tbl.getD]
      · simp only [List.map_cons, Tbl.getD, ha, if_false]
        exact ih (by simpa [Ne.symm ha] using hm)
  exact this _ (Mask.mem_lanes.2 ⟨hl, h⟩)

theorem raised_eq (x : Iss) {α : Type} (f : Nat → α × Flags) :
    (laneTable x f).foldl (fun acc y => acc ||| y.2.2) 0 = raised x fun l => (f l).2 := by
  simp [laneTable, raised, List.foldl_map]

theorem lanesFrom_congr {x : Iss} {d n : Nat} {v w : Nat → Nat} (h : ∀ l, l < 32 → x.exec.getLsbD l = true → v l = w l) :
    lanesFrom x d n v = lanesFrom x d n w := by
  funext c l
  unfold lanesFrom
  split
  · rename_i hc
    have hl : l < 32 := by
      by_contra hge
      have := hc.2.2.2
      rw [BitVec.getLsbD_of_ge _ _ (by omega)] at this
      cases this
    rw [h l hl hc.2.2.2]
  · rfl

theorem toPred_congr {x : Iss} {d : Nat} {v w : Nat → Bool} (h : ∀ l, l < 32 → x.exec.getLsbD l = true → v l = w l) :
    toPred x d v = toPred x d w := by
  funext c l
  unfold toPred
  split
  · rename_i hc
    have hl : l < 32 := by
      by_contra hge
      have := hc.2.2
      rw [BitVec.getLsbD_of_ge _ _ (by omega)] at this
      cases this
    rw [h l hl hc.2.2]
  · rfl

/-- Lane results are written, then flags (R104). -/
theorem laneValN_writes (n : Nat) (f : Args → Nat × Flags) (x : Iss) (s : State) :
    ∃ t, laneValN n f x s = .done t ∧
      Writes s t x x.lastOnes (toLanes x n fun l => (f ((s.regs x).args x l)).1) noPred (raised x fun l => (f ((s.regs x).args x l)).2) := by
  refine ⟨_, rfl, ?_⟩
  rw [raised_eq x fun l => f ((s.regs x).args x l)]
  have h1 := State.lastReads_writes s x
  have h3 := fun t => State.flags_writes t x (raised x fun l => (f ((s.regs x).args x l)).2)
  have tl : toLanes x n (fun l => (f ((s.regs x).args x l)).1) = lanesFrom x x.ins.d n fun l => (f ((s.regs x).args x l)).1 := rfl
  by_cases hd : x.ins.d = 288
  · have e : toLanes x n (fun l => (f ((s.regs x).args x l)).1) = noReg := by
      funext c l; simp only [toLanes, noReg, hd]; rw [if_neg (by omega)]
    rw [e]
    have := h1.trans (h3 _) (d := noReg) (p := noPred) (r := x.lastOnes) (by simp [noReg]) (by simp [noPred]) (by simp) (by simp [noReg])
    simpa [State.writeLanes, hd] using this
  · have h2 := State.writeLanes_writes (s.lastReads x) x x.ins.d n
      ((laneTable x fun l => f ((s.regs x).args x l)).map fun y => (y.1, y.2.1)) hd
    have hm : ((laneTable x fun l => f ((s.regs x).args x l)).map fun y => (y.1, y.2.1)) =
        laneTable x fun l => (f ((s.regs x).args x l)).1 := by simp [laneTable]
    rw [hm, lanesFrom_congr (w := fun l => (f ((s.regs x).args x l)).1) (fun l hl he => tableAt_laneTable x _ 0 hl he), ← tl] at h2
    rw [hm]
    have h12 := h1.trans h2 (d := toLanes x n fun l => (f ((s.regs x).args x l)).1) (p := noPred) (r := x.lastOnes)
      (by simp [noReg]) (by simp [noPred]) (by simp) (by simp [noReg])
    have := h12.trans (h3 _) (d := toLanes x n fun l => (f ((s.regs x).args x l)).1) (p := noPred) (r := x.lastOnes)
      (by simp [noReg]) (by simp [noPred]) (by simp) (by simp)
    simpa using this

/-- A lane operation within the cap completes with its results (R104, R185). -/
theorem laneVal_result {s : State} {ins : Ins} {x : Iss} (f : Args → Nat × Flags) (h : s.issuer ins = some x)
    (hs : s.unsettled x = false) (hc : x.ins.check (s.bounds x) = none) (hb : s.badSource x = none)
    (ho : s.overCap x x.ins.dsts = false) :
    ∃ t, issue ins (laneVal f) s = .next t ∧
      Result s t x (toLanes x x.ins.dsts.length fun l => (f ((s.regs x).args x l)).1) noPred
        (raised x fun l => (f ((s.regs x).args x l)).2) := by
  obtain ⟨t, ht, hw⟩ := laneValN_writes x.ins.dsts.length f x s
  exact issue_writes h hs hc hb (by simp [laneVal, capped, ho, ht]) hw

/-- A uniform operation completes with its result (R190). -/
theorem uniVal_result {s : State} {ins : Ins} {x : Iss} (f : Args → Nat × Flags) (h : s.issuer ins = some x)
    (hs : s.unsettled x = false) (hc : x.ins.check (s.bounds x) = none) (hb : s.badSource x = none) :
    ∃ t, issue ins (uniVal f) s = .next t ∧
      Result s t x (toUniform x.ins.d x.ins.dsts.length (f ((s.regs x).args x 0)).1) noPred (f ((s.regs x).args x 0)).2 := by
  refine issue_writes h hs hc hb rfl ?_
  have := (State.writeUs_writes s x x.ins.d x.ins.dsts.length (f ((s.regs x).args x 0)).1).trans (State.flags_writes _ x (f ((s.regs x).args x 0)).2)
    (d := toUniform x.ins.d x.ins.dsts.length (f ((s.regs x).args x 0)).1) (p := noPred) (r := x.lastOnes)
    (by simp [noReg]) (by simp [noPred]) (by simp) (by simp)
  simpa using this

/-- An operation that writes a lane predicate completes with it (R115, R120). -/
theorem lanePred_result {s : State} {ins : Ins} {x : Iss} (f : Args → Bool × Flags) (h : s.issuer ins = some x)
    (hs : s.unsettled x = false) (hc : x.ins.check (s.bounds x) = none) (hb : s.badSource x = none) :
    ∃ t, issue ins (lanePred f) s = .next t ∧
      Result s t x noReg (toPred x x.ins.d fun l => mergePred x.ins.opx ((s.regs x).pred x.ins.d l) (f ((s.regs x).args x l)).1)
        (raised x fun l => (f ((s.regs x).args x l)).2) := by
  refine issue_writes h hs hc hb rfl ?_
  rw [raised_eq x fun l => f ((s.regs x).args x l)]
  have h1 := State.lastReads_writes s x
  have h2 := State.writeP_writes (s.lastReads x) x x.ins.d fun l =>
    mergePred x.ins.opx ((s.regs x).pred x.ins.d l) (tableAt (laneTable x fun l => f ((s.regs x).args x l)) l (false, 0)).1
  rw [toPred_congr (w := fun l => mergePred x.ins.opx ((s.regs x).pred x.ins.d l) (f ((s.regs x).args x l)).1)
    (fun l hl he => by rw [tableAt_laneTable x _ _ hl he])] at h2
  have h12 := h1.trans h2 (d := noReg) (p := _) (r := x.lastOnes) (by simp [noReg]) (fun c l => by simp [noPred]; rfl) (by simp) (by simp [noReg])
  have := h12.trans (State.flags_writes _ x (raised x fun l => (f ((s.regs x).args x l)).2)) (d := noReg) (r := x.lastOnes)
    (by simp [noReg]) (fun c l => by simp [noPred]; rfl) (by simp) (by simp)
  simpa using this

theorem Writes.then {s t u : State} {x : Iss} {r₁ : List Nat} {d₁ d₂ : Nat → Nat → Option Word}
    {p₁ p₂ : Nat → Nat → Option Bool} {f₁ f₂ : Flags} (h₁ : Writes s t x r₁ d₁ p₁ f₁) (h₂ : Writes t u x [] d₂ p₂ f₂) :
    Writes s u x r₁ (fun c l => (d₂ c l).or (d₁ c l)) (fun c l => (p₂ c l).or (p₁ c l)) (f₁ ||| f₂) :=
  h₁.trans h₂ (fun _ _ => rfl) (fun _ _ => rfl) (by simp) (by simp)
theorem Writes.as {s t : State} {x : Iss} {r : List Nat} {d₁ d₂ : Nat → Nat → Option Word}
    {p₁ p₂ : Nat → Nat → Option Bool} {f₁ f₂ : Flags} (h : Writes s t x r d₁ p₁ f₁) (hd : ∀ c l, d₁ c l = d₂ c l)
    (hp : ∀ c l, p₁ c l = p₂ c l) (hf : f₁ = f₂) : Writes s t x r d₂ p₂ f₂ := by
  obtain rfl : d₁ = d₂ := funext fun c => funext (hd c)
  obtain rfl : p₁ = p₂ := funext fun c => funext (hp c)
  exact hf ▸ h
theorem Writes.refl' (s : State) (x : Iss) : Writes s s x x.lastOnes noReg noPred 0 :=
  { Writes.refl s x with kept := fun _ _ _ _ _ => rfl }
/-- Lane results written to D (R104, R55). -/
theorem State.writeTable_writes (s : State) (x : Iss) (n : Nat) (f : Nat → Nat) :
    Writes s (s.writeLanes x x.ins.d n (laneTable x f)) x [] (toLanes x n f) noPred 0 := by
  by_cases hd : x.ins.d = 288
  · have e : toLanes x n f = noReg := by
      funext c l; simp only [toLanes, noReg, hd]; rw [if_neg (by omega)]
    rw [e, State.writeLanes, if_pos hd]
    exact Writes.refl s x
  · have h2 := State.writeLanes_writes s x x.ins.d n (laneTable x f) hd
    rw [lanesFrom_congr (w := f) (fun l hl he => tableAt_laneTable x _ 0 hl he)] at h2
    exact h2
theorem laneTable_map {α β : Type} (x : Iss) (f : Nat → α) (g : α → β) :
    ((laneTable x f).map fun y => (y.1, g y.2)) = laneTable x fun l => g (f l) := by simp [laneTable]
theorem regs_args_op {s : State} {x : Iss} {op : Nat} (h : x.ins.op = op) (ho : (opInfo op).isSome) (l : Nat) :
    ((s.regs x).args x l).sat = x.ins.sat ∧ ((s.regs x).args x l).ty = x.ins.ty ∧ ((s.regs x).args x l).rm = x.ins.rm ∧
    ((s.regs x).args x l).opx = x.ins.opx ∧ ((s.regs x).args x l).cc = x.ins.c ∧ ((s.regs x).args x l).lane = l ∧
    ((s.regs x).args x l).p = (s.regs x).pred x.ins.c l := by
  unfold Regs.args
  rw [← h] at ho
  obtain ⟨o, e⟩ := Option.isSome_iff_exists.1 ho
  simp only [e, and_self]
/-- Sum or difference with carry (R111). -/
theorem laneCarry_result {s : State} {ins : Ins} {x : Iss} (f : Args → Nat × Bool) (h : s.issuer ins = some x)
    (hs : s.unsettled x = false) (hc : x.ins.check (s.bounds x) = none) (hb : s.badSource x = none)
    (ho : s.overCap x x.ins.dsts = false) :
    ∃ t, issue ins (laneCarry f) s = .next t ∧
      Result s t x (toLanes x 1 fun l => (f ((s.regs x).args x l)).1) (toPred x x.ins.c fun l => (f ((s.regs x).args x l)).2) 0 := by
  refine issue_writes h hs hc hb (t := _) (eff := laneCarry f) (by simp only [laneCarry, capped, ho]; rfl) ?_
  rw [laneTable_map]
  refine (((State.lastReads_writes s x).then (State.writeTable_writes _ x 1 _)).then (State.writeP_writes _ x x.ins.c _)).as ?_ ?_ (by simp)
  · intro c l; simp [noReg]
  · intro c l
    rw [toPred_congr fun l hl he => by rw [tableAt_laneTable x _ _ hl he]]
    simp [noPred]


/-- A ready operation's effect takes place. -/
theorem Ready.exec_eq {s : State} {i : Instr} {x : Iss} (h : Ready s i x) {eff : Iss → State → Eff}
    (he : effectOf x.ins.op = some eff) : exec i s = .next ((eff x s).settle x) := by
  obtain ⟨hw, hi, hs, hc, hb⟩ := h
  obtain ⟨w, hw, e⟩ := Option.map_eq_some_iff.1 hw
  rw [exec_op hw (e ▸ he), e]
  exact issue_ready eff hi hs hc hb

/-- The issuing split stands where its group says. -/
theorem Ready.place {s : State} {i : Instr} {x : Iss} (h : Ready s i x) :
    (s.group x.gid).core = x.core ∧ (s.group x.gid).part = x.part :=
  ⟨(State.issuer_core h.issuer).1, (State.issuer_core h.issuer).2.1⟩

/-- A ready operation whose effect only writes registers completes with them. -/
theorem Ready.result {s : State} {i : Instr} {x : Iss} (h : Ready s i x) {eff : Iss → State → Eff} {t : State}
    {d : Nat → Nat → Option Word} {p : Nat → Nat → Option Bool} {f : Flags}
    (ho : effectOf x.ins.op = some eff) (he : eff x s = .done t) (hw : Writes s t x x.lastOnes d p f) :
    ∃ t, exec i s = .next t ∧ Result s t x d p f := by
  refine ⟨_, h.exec_eq ho, ?_⟩
  rw [he]
  exact hw.advance h.place.1 h.place.2

/-- A split whose lanes are sent on after register writes. -/
theorem Writes.transfers {s t : State} {x : Iss} {d : Nat → Nat → Option Word} {dest : Nat → CodeAddr}
    (h : Writes s t x [] d noPred 0) (hc : (s.group x.gid).core = x.core) (hp : (s.group x.gid).part = x.part) :
    Transfers s ((t.sendLanes x dest).transferred x) x dest d := by
  have hg : (t.group x.gid).core = x.core := by rw [h.group]; exact hc
  have hq : (t.group x.gid).part = x.part := by rw [h.group]; exact hp
  generalize hu : (fun g : Group => (g.modLanes x.active fun l y => { y with lpc := dest l }).modSlot x.slot Slot.issued) = upd
  have hadv : (t.sendLanes x dest).transferred x = (t.modGroup x.gid upd).modPart x.core x.part fun p => { p with run := p.run.map fun r =>
      if r.gid = x.gid ∧ r.slot = x.slot then { r with ended := true, cut := false } else r } := by
    have e : (t.sendLanes x dest).transferred x = (t.modGroup x.gid upd).endRun x.gid x.slot false := by
      subst hu
      simp only [State.transferred, State.sendLanes, State.modGroup_modGroup]
      rfl
    rw [e, State.endRun_eq]
    simp only [State.modGroup_self]
    subst hu
    rw [show ∀ (g : Group) k m (F : Nat → Lane → Lane) (f : Slot → Slot), ((g.modLanes m F).modSlot k f).core = g.core from fun _ _ _ _ _ => rfl,
      show ∀ (g : Group) k m (F : Nat → Lane → Lane) (f : Slot → Slot), ((g.modLanes m F).modSlot k f).part = g.part from fun _ _ _ _ _ => rfl, hg, hq]
  generalize hT : (t.sendLanes x dest).transferred x = T at *
  have eg : T.group x.gid = upd (t.group x.gid) := by rw [hadv]; simp
  have ep : T.part x.core x.part = { t.part x.core x.part with run := x.ended (t.part x.core x.part) } := by rw [hadv]; simp [Iss.ended]
  have er : ∀ c l, (T.regs x).x c l = (t.regs x).x c l := by
    intro c l
    apply Regs.x_congr
    · rfl
    · intro _; subst hu; simp [eg]; rfl
    · intro _; subst hu; simp [eg]; rfl
    · intro _; simp [ep]
  have epr : ∀ c l, (T.regs x).pred c l = (t.regs x).pred c l := by
    intro c l
    apply Regs.pred_congr
    · rfl
    · intro _; subst hu; simp [eg]; rfl
    · intro _; subst hu; simp [eg]; rfl
    · intro _; simp [ep]
  refine ⟨⟨?_, ?_, ?_, ?_, ?_, ?_⟩, ?_, ?_, ?_, ?_, ?_, ?_, ?_, ?_, ?_⟩
  · obtain ⟨G, C, e⟩ : ∃ G C, t = { s with groups := G, cores := C } := ⟨_, _, h.rest⟩
    rw [hadv, e]
    rfl
  · intro g hgn
    rw [← h.others g hgn, hadv]
    simp [State.modGroup_ne _ hgn]
  · intro c hcn
    rw [← h.cores c hcn, hadv]
    unfold State.modPart; rw [State.modCore_ne _ hcn]; rfl
  · rw [hadv]
    unfold State.modPart; rw [State.modCore_self]; simp only [State.modGroup_core]; rw [h.core]; rfl
  · intro k hk
    rw [← h.parts k hk, hadv]
    rw [State.modPart_part, if_neg (by simp [hk])]; rfl
  · rw [ep, h.part]
  · unfold RegsOnly
    rw [eg]
    subst hu
    rw [h.group]
    rfl
  · intro l hl
    rw [eg]
    subst hu
    dsimp only
    rw [Group.modSlot_lane, Group.modLanes_lane _ _ _ hl, h.group]
    rfl
  · rw [eg]
    subst hu
    dsimp only
    rw [Group.modSlot_slot, if_pos rfl, Group.modLanes_slot, h.group]
    rfl
  · intro k hk
    rw [eg]
    subst hu
    dsimp only
    rw [Group.modSlot_slot, if_neg hk, Group.modLanes_slot, h.group]
    rfl
  · rw [ep, h.part]; rfl
  · intro c l w hl hw; rw [er]; exact h.written c l w hl hw
  · intro c l hl hn; rw [er]; exact h.kept c l hl hn (by simp)
  · intro c l hl; rw [epr]; exact h.preds c l hl
  · rw [eg]
    have := h.flags
    subst hu
    simp at this
    exact this

/-- A ready transfer that divides no lanes into a join. -/
theorem Ready.transfers {s : State} {i : Instr} {x : Iss} (h : Ready s i x) {eff : Iss → State → Eff} {t : State}
    {d : Nat → Nat → Option Word} {dest : Nat → CodeAddr}
    (ho : effectOf x.ins.op = some eff) (he : eff x s = .moved (t.sendLanes x dest)) (hw : Writes s t x [] d noPred 0) :
    ∃ t, exec i s = .next t ∧ Transfers s t x dest d := by
  refine ⟨_, h.exec_eq ho, ?_⟩
  rw [he]
  exact hw.transfers h.place.1 h.place.2

/-- A ready transfer that changes its group in a way of its own. -/
theorem Ready.moved {s : State} {i : Instr} {x : Iss} (h : Ready s i x) {eff : Iss → State → Eff} {f : Group → Group}
    (ho : effectOf x.ins.op = some eff) (he : eff x s = .moved (s.modGroup x.gid f))
    (hc : (f (s.group x.gid)).core = (s.group x.gid).core) (hp : (f (s.group x.gid)).part = (s.group x.gid).part) :
    ∃ t, exec i s = .next t ∧ Local s t x ∧ t.group x.gid = (f (s.group x.gid)).modSlot x.slot Slot.issued ∧
      t.part x.core x.part = { s.part x.core x.part with run := x.ended (s.part x.core x.part) } := by
  refine ⟨_, h.exec_eq ho, ?_⟩
  rw [he]
  have e : (Eff.moved (s.modGroup x.gid f)).settle x = (s.modGroup x.gid fun g => (f g).modSlot x.slot Slot.issued).modPart x.core x.part
      fun p => { p with run := x.ended p } := by
    have : (Eff.moved (s.modGroup x.gid f)).settle x = (s.modGroup x.gid fun g => (f g).modSlot x.slot Slot.issued).endRun x.gid x.slot false := by
      simp only [Eff.settle, State.transferred, State.modGroup_modGroup]; rfl
    rw [this, State.endRun_eq]
    simp only [State.modGroup_self]
    rw [show ∀ (g : Group) k (f : Slot → Slot), (g.modSlot k f).core = g.core from fun _ _ _ => rfl,
      show ∀ (g : Group) k (f : Slot → Slot), (g.modSlot k f).part = g.part from fun _ _ _ => rfl, hc, hp, h.place.1, h.place.2]
    rfl
  rw [e]
  refine ⟨⟨rfl, fun g hg => by simp [State.modGroup_ne _ hg], fun c hcn => ?_, ?_, fun k hk => ?_, ?_⟩, by simp, by simp⟩
  · unfold State.modPart; rw [State.modCore_ne _ hcn]; rfl
  · unfold State.modPart; rw [State.modCore_self]; rfl
  · rw [State.modPart_part, if_neg (by simp [hk])]; rfl
  · simp

end Sys2Proof.Machine
end

