-- ==== Sys2Proof/Laws/Kept.lean ====
section
/-! SUPPORT. What the operations that put work under way leave unchanged, built up from the steps they are made of. -/

namespace Sys2Proof.Machine

/-- What Kept says before the split goes on. -/
structure Queues (s t : State) (x : Iss) : Prop where
  mem : t.mem = s.mem
  others : ∀ g, g ≠ x.gid → t.group g = s.group g
  group : t.group x.gid = { s.group x.gid with
    names := (t.group x.gid).names, loads := (t.group x.gid).loads,
    ops := (t.group x.gid).ops, issued := (t.group x.gid).issued, tl := (t.group x.gid).tl }
  regs : ∀ c l, l < 32 → (t.regs x).x c l = (s.regs x).x c l
  cores : ∀ c, t.core c = { s.core c with l1 := (t.core c).l1 }

theorem Queues.refl (s : State) (x : Iss) : Queues s s x := ⟨rfl, fun _ _ => rfl, rfl, fun _ _ _ => rfl, fun _ => rfl⟩

theorem Queues.trans {s t u : State} {x : Iss} (h₁ : Queues s t x) (h₂ : Queues t u x) : Queues s u x where
  mem := h₂.mem.trans h₁.mem
  others g hg := (h₂.others g hg).trans (h₁.others g hg)
  group := by rw [h₂.group, h₁.group]
  regs c l hl := (h₂.regs c l hl).trans (h₁.regs c l hl)
  cores c := by rw [h₂.cores c, h₁.cores c]

theorem Queues.part {s t : State} {x : Iss} (h : Queues s t x) (c p : Nat) : t.part c p = s.part c p := by
  unfold State.part
  rw [h.cores c]
  rfl

/-- A change outside groups, cores and memory. -/
theorem Queues.outside {s t : State} (x : Iss) (hm : t.mem = s.mem) (hg : t.groups = s.groups) (hc : t.cores = s.cores) : Queues s t x := by
  have g : ∀ g, t.group g = s.group g := fun g => by unfold State.group; rw [hg]
  have c : ∀ c, t.core c = s.core c := fun c => by unfold State.core; rw [hc]
  refine ⟨hm, fun k _ => g k, by rw [g], fun k l _ => ?_, fun k => by rw [c]⟩
  apply Regs.x_congr
  · rfl
  · intro _; simp [State.regs, g]
  · intro _; simp [State.regs, g]
  · intro _; simp [State.regs, State.part, c]

/-- A change of the issuing group that leaves what its names hold. -/
theorem Queues.ofGroup {s : State} {x : Iss} {f : Group → Group}
    (hf : f (s.group x.gid) = { s.group x.gid with
      names := (f (s.group x.gid)).names, loads := (f (s.group x.gid)).loads, ops := (f (s.group x.gid)).ops,
      issued := (f (s.group x.gid)).issued, tl := (f (s.group x.gid)).tl })
    (hn : (f (s.group x.gid)).names = (s.group x.gid).names) : Queues s (s.modGroup x.gid f) x := by
  refine ⟨rfl, fun g hg => by simp [State.modGroup_ne _ hg], by simpa using hf, fun c l _ => ?_, fun c => rfl⟩
  apply Regs.x_congr
  · rfl
  · intro _; simpa [State.regs] using hn
  · intro _; simp only [State.regs, State.modGroup_self]; rw [hf]
  · intro _; rfl

theorem Queues.modQuad (s : State) (x : Iss) (q : Nat) (f : Quad → Quad) : Queues s (s.modQuad q f) x := .outside x rfl rfl rfl
theorem Queues.modDie (s : State) (x : Iss) (q : Nat) (f : Die → Die) : Queues s (s.modDie q f) x := .outside x rfl rfl rfl
theorem Queues.modCtx (s : State) (x : Iss) (q : Nat) (f : Ctx → Ctx) : Queues s (s.modCtx q f) x := .outside x rfl rfl rfl
theorem Queues.modBlock (s : State) (x : Iss) (q : Nat) (f : Block → Block) : Queues s (s.modBlock q f) x := .outside x rfl rfl rfl
theorem Queues.setBlock (s : State) (x : Iss) (q : Nat) (b : Block) : Queues s (s.setBlock q b) x := .outside x rfl rfl rfl
theorem Queues.newId (s : State) (x : Iss) : Queues s s.newId.2 x := .outside x rfl rfl rfl
theorem Queues.draw (s : State) (x : Iss) : Queues s s.draw.2 x := .outside x rfl rfl rfl

theorem Queues.fold {α : Type} (x : Iss) (f : State → α → State) (h : ∀ s a, Queues s (f s a) x) (l : List α) (s : State) :
    Queues s (l.foldl f s) x := by
  induction l generalizing s with
  | nil => exact .refl s x
  | cons a r ih => exact (h s a).trans (ih _)

theorem Queues.newLoad (s : State) (x : Iss) (m : Mask) (l : List (Nat × Nat)) (wd : Nat) : Queues s (s.newLoad x m l wd).2 x := by
  exact (Queues.newId s x).trans (.ofGroup (f := fun g => { g with loads := g.loads ++ [_] }) rfl rfl)
theorem Queues.newUniLoad (s : State) (x : Iss) (d n a wd : Nat) : Queues s (s.newUniLoad x d n a wd).2 x := by
  exact (Queues.newId s x).trans (.ofGroup (f := fun g => { g with loads := g.loads ++ [_] }) rfl rfl)
theorem Queues.returnWords (s : State) (x : Iss) (seq : Nat) (ws : List (Nat × List Word)) : Queues s (s.returnWords x.gid seq ws) x := by
  unfold State.returnWords
  split
  · exact .refl s x
  · exact .ofGroup rfl rfl
theorem Queues.returnLoad (s : State) (x : Iss) (seq : Nat) (r : List (Nat × List Byte)) (b : Bool) : Queues s (s.returnLoad x.gid seq r b) x := by
  unfold State.returnLoad
  split
  · exact .refl s x
  · exact .ofGroup rfl rfl
theorem Queues.countOp (s : State) (x : Iss) (cls : Nat) (mk : EngOp → EngOp) : Queues s (s.countOp x.gid cls mk).2 x := by
  exact .ofGroup (f := fun g => { g with issued := g.issued.set cls _, ops := g.ops ++ [_] }) rfl rfl

theorem Queues.mapName (s : State) (x : Iss) (n : Nat) (hh : x.handler = false) : Queues s (s.mapName x n) x := by
  have h := State.mapName_writes s x n hh
  have hm : (s.mapName x n).mem = s.mem := by unfold State.mapName; split <;> rfl
  have hc : (s.mapName x n).cores = s.cores := by unfold State.mapName; split <;> rfl
  refine ⟨hm, h.others, ?_, fun c l hl => h.kept c l hl rfl (by simp), fun c => by unfold State.core; rw [hc]⟩
  unfold State.mapName
  split <;> simp

theorem Queues.mapDest (s : State) (x : Iss) : Queues s (s.mapDest x) x := by
  unfold State.mapDest
  split
  · exact .refl s x
  · rename_i hh
    have hh : x.handler = false := by simpa using hh
    refine Queues.fold x _ (fun s n => (Queues.mapName s x n hh).trans ?_) _ s
    generalize s.mapName x n = u
    refine ⟨rfl, fun g hg => by simp [State.modGroup_ne _ hg], ?_, fun c l _ => ?_, fun c => rfl⟩
    · simp only [State.modGroup_self]; split <;> rfl
    · unfold Regs.x
      split
      · simp only [State.regs, State.modGroup_self, Regs.v, hh]
        simp only [Bool.false_eq_true, if_false]
        cases e : (u.group x.gid).name? n with
        | none => rfl
        | some v =>
          simp only [Group.name?, Tbl.get?_set]
          by_cases hcn : c = n
          · subst hcn
            simp only [if_true]
            rw [show Tbl.get? (u.group x.gid).names c = some v from e]
          · rw [if_neg hcn]
      · split
        · simp only [State.regs, State.modGroup_self, Regs.u, hh]
          split
          · rfl
          · split <;> rfl
        · rfl

theorem Queues.startRelease (s : State) (x : Iss) (g c : Nat) (m : Mask) (sco : Nat) : Queues s (s.startRelease g c m sco).2 x := by
  unfold State.startRelease
  dsimp only
  split
  · exact .refl s x
  · exact .outside x rfl rfl rfl
theorem Queues.releaseFor (s : State) (x : Iss) : Queues s (s.releaseFor x).2 x := by
  unfold State.releaseFor
  split
  · exact .startRelease s x _ _ _ _
  · exact .refl s x
theorem Queues.startAccess (s : State) (x : Iss) (a : Access) (l : List Nat) : Queues s (s.startAccess a l) x := .outside x rfl rfl rfl
theorem Queues.recordStore (s : State) (x : Iss) (l : List Nat) : Queues s (s.recordStore x l) x := by
  unfold State.recordStore
  dsimp only
  split
  · split
    · exact .ofGroup rfl rfl
    · exact .modCtx s x _ _
  · exact .refl s x
theorem Queues.startAtoms (s : State) (x : Iss) (r : Regs) (k : AccKind) (l : Option Nat) (rel : List Nat) (ok : List (Nat × Nat × Nat)) :
    Queues s (s.startAtoms x r k l rel ok) x := Queues.fold x _ (fun _ _ => .startAccess _ x _ _) _ s

/-- A change of an L1 array. -/
theorem Queues.setL1 (s : State) (x : Iss) (c line : Nat) (l : L1Line) : Queues s (s.setL1 c line l) x := by
  unfold State.setL1
  have hp : ∀ d, ((s.modCore c fun k => { k with l1 := if l.valid = 0 ∧ l.fill = [] then k.l1.erase line else k.l1.set line l }).core d) =
      { s.core d with l1 := ((s.modCore c fun k => { k with l1 := if l.valid = 0 ∧ l.fill = [] then k.l1.erase line else k.l1.set line l }).core d).l1 } := by
    intro d
    rw [State.modCore_get]
    split
    · rename_i h; subst h; rfl
    · rfl
  refine ⟨rfl, fun _ _ => rfl, rfl, fun k lane _ => ?_, hp⟩
  apply Regs.x_congr
  · rfl
  · intro _; rfl
  · intro _; rfl
  · intro _; simp only [State.regs, State.part]; rw [hp]; rfl
theorem Queues.invalidate (s : State) (x : Iss) (c : Nat) : Queues s (s.invalidate c) x := by
  unfold State.invalidate
  exact Queues.fold x _ (fun s line => .setL1 s x _ _ _) _ s
theorem Queues.acquire (s : State) (x : Iss) (c sco sem : Nat) : Queues s (s.acquire c sco sem) x := by
  unfold State.acquire
  split
  · exact .invalidate s x _
  · exact .refl s x

theorem Queues.spadPerform (s : State) (x : Iss) (m : SpadMsg) (c : Nat) (hg : m.gid = x.gid) : Queues s (s.spadPerform m c) x := by
  unfold State.spadPerform
  dsimp only
  have h1 := Queues.setBlock s x m.blk ((s.block m.blk).perform m).1
  cases e : m.load with
  | none =>
    simp only
    split
    · exact h1.trans (.acquire _ x _ _ _)
    · exact h1
  | some seq =>
    simp only [hg]
    split
    · exact (h1.trans (.returnLoad _ x _ _ _)).trans (.acquire _ x _ _ _)
    · exact h1.trans (.returnLoad _ x _ _ _)
theorem Queues.spadIssue (s : State) (x : Iss) (m : SpadMsg) (r : List Nat) (hg : m.gid = x.gid) : Queues s (s.spadIssue x m r) x := by
  unfold State.spadIssue
  dsimp only
  split
  · exact .spadPerform s x m _ hg
  · exact .outside x rfl rfl rfl

theorem Queues.addReq (s : State) (x : Iss) (q : Nat) (e : Req) : Queues s (s.addReq q e) x := .modQuad s x _ _
theorem Queues.enterReq (s : State) (x : Iss) (e : Req) : Queues s (s.enterReq x e) x := by
  unfold State.enterReq
  dsimp only
  have h1 := Queues.countOp s x 2 id
  split
  · exact h1.trans ((Queues.modQuad _ x _ _).trans (.ofGroup rfl rfl))
  · exact h1.trans ((Queues.newId _ x).trans (.addReq _ x _ _))
theorem Queues.modPlane (s : State) (x : Iss) (q k : Nat) (f : Plane → Plane) : Queues s (s.modPlane q k f) x := .modQuad s x _ _


/-- Going on changes groups and cores only. -/
theorem State.advance_rest (t : State) (x : Iss) :
    t.advance x = { t with groups := (t.advance x).groups, cores := (t.advance x).cores } := by
  unfold State.advance
  dsimp only
  split
  · rw [State.endRun_eq]; rfl
  · rfl
/-- Of a group, going on changes lanes and slots only. -/
theorem State.advance_group (t : State) (x : Iss) (g : Nat) :
    (t.advance x).group g = { t.group g with lanes := ((t.advance x).group g).lanes, slots := ((t.advance x).group g).slots } := by
  unfold State.advance
  dsimp only
  by_cases h : g = x.gid
  · subst h
    split
    · rw [State.endRun_eq]; simp only [State.modPart_group, State.modGroup_self]; rfl
    · simp only [State.modGroup_self]; rfl
  · split
    · rw [State.endRun_eq]; simp only [State.modPart_group, State.modGroup_ne _ h]
    · simp only [State.modGroup_ne _ h]
@[simp] theorem State.advance_on (t : State) (x : Iss) : (t.advance x).on = t.on := by rw [State.advance_rest]
@[simp] theorem State.advance_blocks (t : State) (x : Iss) : (t.advance x).blocks = t.blocks := by rw [State.advance_rest]
@[simp] theorem State.advance_grids (t : State) (x : Iss) : (t.advance x).grids = t.grids := by rw [State.advance_rest]
@[simp] theorem State.advance_quads (t : State) (x : Iss) : (t.advance x).quads = t.quads := by rw [State.advance_rest]
@[simp] theorem State.advance_dies (t : State) (x : Iss) : (t.advance x).dies = t.dies := by rw [State.advance_rest]
@[simp] theorem State.advance_ctxs (t : State) (x : Iss) : (t.advance x).ctxs = t.ctxs := by rw [State.advance_rest]
@[simp] theorem State.advance_lqs (t : State) (x : Iss) : (t.advance x).lqs = t.lqs := by rw [State.advance_rest]
@[simp] theorem State.advance_mem (t : State) (x : Iss) : (t.advance x).mem = t.mem := by rw [State.advance_rest]
@[simp] theorem State.advance_accs (t : State) (x : Iss) : (t.advance x).accs = t.accs := by rw [State.advance_rest]
@[simp] theorem State.advance_spads (t : State) (x : Iss) : (t.advance x).spads = t.spads := by rw [State.advance_rest]
@[simp] theorem State.advance_steals (t : State) (x : Iss) : (t.advance x).steals = t.steals := by rw [State.advance_rest]
@[simp] theorem State.advance_redos (t : State) (x : Iss) : (t.advance x).redos = t.redos := by rw [State.advance_rest]
@[simp] theorem State.advance_sigs (t : State) (x : Iss) : (t.advance x).sigs = t.sigs := by rw [State.advance_rest]
@[simp] theorem State.advance_notices (t : State) (x : Iss) : (t.advance x).notices = t.notices := by rw [State.advance_rest]
@[simp] theorem State.advance_colls (t : State) (x : Iss) : (t.advance x).colls = t.colls := by rw [State.advance_rest]
@[simp] theorem State.advance_drains (t : State) (x : Iss) : (t.advance x).drains = t.drains := by rw [State.advance_rest]
@[simp] theorem State.advance_bars (t : State) (x : Iss) : (t.advance x).bars = t.bars := by rw [State.advance_rest]
@[simp] theorem State.advance_barHeld (t : State) (x : Iss) : (t.advance x).barHeld = t.barHeld := by rw [State.advance_rest]
@[simp] theorem State.advance_ports (t : State) (x : Iss) : (t.advance x).ports = t.ports := by rw [State.advance_rest]
@[simp] theorem State.advance_rtab (t : State) (x : Iss) : (t.advance x).rtab = t.rtab := by rw [State.advance_rest]
@[simp] theorem State.advance_pkg (t : State) (x : Iss) : (t.advance x).pkg = t.pkg := by rw [State.advance_rest]
@[simp] theorem State.advance_fabFail (t : State) (x : Iss) : (t.advance x).fabFail = t.fabFail := by rw [State.advance_rest]
@[simp] theorem State.advance_out (t : State) (x : Iss) : (t.advance x).out = t.out := by rw [State.advance_rest]
@[simp] theorem State.advance_resent (t : State) (x : Iss) : (t.advance x).resent = t.resent := by rw [State.advance_rest]
@[simp] theorem State.advance_outHeld (t : State) (x : Iss) : (t.advance x).outHeld = t.outHeld := by rw [State.advance_rest]
@[simp] theorem State.advance_parts (t : State) (x : Iss) : (t.advance x).parts = t.parts := by rw [State.advance_rest]
@[simp] theorem State.advance_kept (t : State) (x : Iss) : (t.advance x).kept = t.kept := by rw [State.advance_rest]
@[simp] theorem State.advance_erasure (t : State) (x : Iss) : (t.advance x).erasure = t.erasure := by rw [State.advance_rest]
@[simp] theorem State.advance_hand (t : State) (x : Iss) : (t.advance x).hand = t.hand := by rw [State.advance_rest]
@[simp] theorem State.advance_power (t : State) (x : Iss) : (t.advance x).power = t.power := by rw [State.advance_rest]
@[simp] theorem State.advance_linkClamped (t : State) (x : Iss) : (t.advance x).linkClamped = t.linkClamped := by rw [State.advance_rest]
@[simp] theorem State.advance_nextGrid (t : State) (x : Iss) : (t.advance x).nextGrid = t.nextGrid := by rw [State.advance_rest]
@[simp] theorem State.advance_nextBlock (t : State) (x : Iss) : (t.advance x).nextBlock = t.nextBlock := by rw [State.advance_rest]
@[simp] theorem State.advance_nextId (t : State) (x : Iss) : (t.advance x).nextId = t.nextId := by rw [State.advance_rest]
@[simp] theorem State.advance_fresh (t : State) (x : Iss) : (t.advance x).fresh = t.fresh := by rw [State.advance_rest]
@[simp] theorem State.advance_focus (t : State) (x : Iss) : (t.advance x).focus = t.focus := by rw [State.advance_rest]
@[simp] theorem State.advance_agenda (t : State) (x : Iss) : (t.advance x).agenda = t.agenda := by rw [State.advance_rest]
@[simp] theorem State.advance_block (t : State) (x : Iss) (k : Nat) : (t.advance x).block k = t.block k := by rw [State.advance_rest]; rfl
@[simp] theorem State.advance_quad (t : State) (x : Iss) (k : Nat) : (t.advance x).quad k = t.quad k := by rw [State.advance_rest]; rfl
@[simp] theorem State.advance_die (t : State) (x : Iss) (k : Nat) : (t.advance x).die k = t.die k := by rw [State.advance_rest]; rfl
@[simp] theorem State.advance_ctx (t : State) (x : Iss) (k : Nat) : (t.advance x).ctx k = t.ctx k := by rw [State.advance_rest]; rfl
@[simp] theorem State.advance_lq (t : State) (x : Iss) (k : Nat) : (t.advance x).lq k = t.lq k := by rw [State.advance_rest]; rfl
@[simp] theorem State.advance_plane (t : State) (x : Iss) (q k : Nat) : (t.advance x).plane q k = t.plane q k := by unfold State.plane; simp
@[simp] theorem State.advance_group_ctx (t : State) (x : Iss) (g : Nat) : ((t.advance x).group g).ctx = (t.group g).ctx := by rw [State.advance_group]
@[simp] theorem State.advance_group_grid (t : State) (x : Iss) (g : Nat) : ((t.advance x).group g).grid = (t.group g).grid := by rw [State.advance_group]
@[simp] theorem State.advance_group_blk (t : State) (x : Iss) (g : Nat) : ((t.advance x).group g).blk = (t.group g).blk := by rw [State.advance_group]
@[simp] theorem State.advance_group_index (t : State) (x : Iss) (g : Nat) : ((t.advance x).group g).index = (t.group g).index := by rw [State.advance_group]
@[simp] theorem State.advance_group_core (t : State) (x : Iss) (g : Nat) : ((t.advance x).group g).core = (t.group g).core := by rw [State.advance_group]
@[simp] theorem State.advance_group_part (t : State) (x : Iss) (g : Nat) : ((t.advance x).group g).part = (t.group g).part := by rw [State.advance_group]
@[simp] theorem State.advance_group_pos (t : State) (x : Iss) (g : Nat) : ((t.advance x).group g).pos = (t.group g).pos := by rw [State.advance_group]
@[simp] theorem State.advance_group_prio (t : State) (x : Iss) (g : Nat) : ((t.advance x).group g).prio = (t.group g).prio := by rw [State.advance_group]
@[simp] theorem State.advance_group_joins (t : State) (x : Iss) (g : Nat) : ((t.advance x).group g).joins = (t.group g).joins := by rw [State.advance_group]
@[simp] theorem State.advance_group_names (t : State) (x : Iss) (g : Nat) : ((t.advance x).group g).names = (t.group g).names := by rw [State.advance_group]
@[simp] theorem State.advance_group_cap (t : State) (x : Iss) (g : Nat) : ((t.advance x).group g).cap = (t.group g).cap := by rw [State.advance_group]
@[simp] theorem State.advance_group_budG (t : State) (x : Iss) (g : Nat) : ((t.advance x).group g).budG = (t.group g).budG := by rw [State.advance_group]
@[simp] theorem State.advance_group_budM (t : State) (x : Iss) (g : Nat) : ((t.advance x).group g).budM = (t.group g).budM := by rw [State.advance_group]
@[simp] theorem State.advance_group_budC (t : State) (x : Iss) (g : Nat) : ((t.advance x).group g).budC = (t.group g).budC := by rw [State.advance_group]
@[simp] theorem State.advance_group_g (t : State) (x : Iss) (g : Nat) : ((t.advance x).group g).g = (t.group g).g := by rw [State.advance_group]
@[simp] theorem State.advance_group_p (t : State) (x : Iss) (g : Nat) : ((t.advance x).group g).p = (t.group g).p := by rw [State.advance_group]
@[simp] theorem State.advance_group_q (t : State) (x : Iss) (g : Nat) : ((t.advance x).group g).q = (t.group g).q := by rw [State.advance_group]
@[simp] theorem State.advance_group_fpstat (t : State) (x : Iss) (g : Nat) : ((t.advance x).group g).fpstat = (t.group g).fpstat := by rw [State.advance_group]
@[simp] theorem State.advance_group_loads (t : State) (x : Iss) (g : Nat) : ((t.advance x).group g).loads = (t.group g).loads := by rw [State.advance_group]
@[simp] theorem State.advance_group_sys (t : State) (x : Iss) (g : Nat) : ((t.advance x).group g).sys = (t.group g).sys := by rw [State.advance_group]
@[simp] theorem State.advance_group_pend (t : State) (x : Iss) (g : Nat) : ((t.advance x).group g).pend = (t.group g).pend := by rw [State.advance_group]
@[simp] theorem State.advance_group_tiles (t : State) (x : Iss) (g : Nat) : ((t.advance x).group g).tiles = (t.group g).tiles := by rw [State.advance_group]
@[simp] theorem State.advance_group_accs (t : State) (x : Iss) (g : Nat) : ((t.advance x).group g).accs = (t.group g).accs := by rw [State.advance_group]
@[simp] theorem State.advance_group_accFail (t : State) (x : Iss) (g : Nat) : ((t.advance x).group g).accFail = (t.group g).accFail := by rw [State.advance_group]
@[simp] theorem State.advance_group_accBad (t : State) (x : Iss) (g : Nat) : ((t.advance x).group g).accBad = (t.group g).accBad := by rw [State.advance_group]
@[simp] theorem State.advance_group_regBad (t : State) (x : Iss) (g : Nat) : ((t.advance x).group g).regBad = (t.group g).regBad := by rw [State.advance_group]
@[simp] theorem State.advance_group_edges (t : State) (x : Iss) (g : Nat) : ((t.advance x).group g).edges = (t.group g).edges := by rw [State.advance_group]
@[simp] theorem State.advance_group_amxEn (t : State) (x : Iss) (g : Nat) : ((t.advance x).group g).amxEn = (t.group g).amxEn := by rw [State.advance_group]
@[simp] theorem State.advance_group_amxIdx (t : State) (x : Iss) (g : Nat) : ((t.advance x).group g).amxIdx = (t.group g).amxIdx := by rw [State.advance_group]
@[simp] theorem State.advance_group_step (t : State) (x : Iss) (g : Nat) : ((t.advance x).group g).step = (t.group g).step := by rw [State.advance_group]
@[simp] theorem State.advance_group_level (t : State) (x : Iss) (g : Nat) : ((t.advance x).group g).level = (t.group g).level := by rw [State.advance_group]
@[simp] theorem State.advance_group_ops (t : State) (x : Iss) (g : Nat) : ((t.advance x).group g).ops = (t.group g).ops := by rw [State.advance_group]
@[simp] theorem State.advance_group_issued (t : State) (x : Iss) (g : Nat) : ((t.advance x).group g).issued = (t.group g).issued := by rw [State.advance_group]
@[simp] theorem State.advance_group_tl (t : State) (x : Iss) (g : Nat) : ((t.advance x).group g).tl = (t.group g).tl := by rw [State.advance_group]
@[simp] theorem State.advance_group_epoch (t : State) (x : Iss) (g : Nat) : ((t.advance x).group g).epoch = (t.group g).epoch := by rw [State.advance_group]
@[simp] theorem State.advance_group_clamped (t : State) (x : Iss) (g : Nat) : ((t.advance x).group g).clamped = (t.group g).clamped := by rw [State.advance_group]
@[simp] theorem State.advance_group_sb (t : State) (x : Iss) (g : Nat) : ((t.advance x).group g).sb = (t.group g).sb := by rw [State.advance_group]
@[simp] theorem State.advance_group_stamp (t : State) (x : Iss) (g : Nat) : ((t.advance x).group g).stamp = (t.group g).stamp := by rw [State.advance_group]
@[simp] theorem State.advance_group_hparked (t : State) (x : Iss) (g : Nat) : ((t.advance x).group g).hparked = (t.group g).hparked := by rw [State.advance_group]

/-- Of its partition, going on changes the run. -/
theorem State.advance_part (t : State) (x : Iss) (hg : (t.group x.gid).core = x.core) (hq : (t.group x.gid).part = x.part) :
    (t.advance x).part x.core x.part = { t.part x.core x.part with run := ((t.advance x).part x.core x.part).run } := by
  unfold State.advance
  dsimp only
  split
  · rw [State.endRun_eq]; simp only [State.modGroup_self]
    rw [show ∀ (g : Group) k m pc (f : Slot → Slot), ((g.moveSplit k m pc).modSlot k f).core = g.core from fun _ _ _ _ _ => rfl,
      show ∀ (g : Group) k m pc (f : Slot → Slot), ((g.moveSplit k m pc).modSlot k f).part = g.part from fun _ _ _ _ _ => rfl, hg, hq]
    simp
  · rfl

/-- The split goes on after putting work under way. -/
theorem Queues.advance {s t : State} {x : Iss} (h : Queues s t x) (hc : (s.group x.gid).core = x.core) (hp : (s.group x.gid).part = x.part) :
    Kept s (t.advance x) x := by
  have hg : (t.group x.gid).core = x.core := by rw [h.group]; exact hc
  have hq : (t.group x.gid).part = x.part := by rw [h.group]; exact hp
  have r := (Writes.refl' t x).advance hg hq
  have hgr : (t.advance x).group x.gid = { t.group x.gid with
      lanes := ((t.advance x).group x.gid).lanes, slots := ((t.advance x).group x.gid).slots } := by
    unfold State.advance
    dsimp only
    split
    · rw [State.endRun_eq]; simp only [State.modPart_group, State.modGroup_self]; rfl
    · simp only [State.modGroup_self]; rfl
  have hregs : ∀ c l, ((t.advance x).regs x).x c l = (t.regs x).x c l := by
    intro c l
    apply Regs.x_congr
    · rfl
    · intro _; simp only [State.regs]; rw [hgr]
    · intro _; simp only [State.regs]; rw [hgr]
    · intro _; simp only [State.regs]; rw [State.advance_part t x hg hq]
  refine ⟨?_, ?_, ?_, ?_, ?_, ?_, ?_, ?_⟩
  · rw [r.here.rest]; exact h.mem
  · intro g hgn; rw [r.here.others g hgn]; exact h.others g hgn
  · rw [hgr, h.group]
  · intro c l hl; rw [hregs]; exact h.regs c l hl
  · intro c l hl
    rw [r.preds c l hl]
    simp only [noPred, Option.getD_none]
    apply Regs.pred_congr
    · rfl
    · intro _; simp only [State.regs]; rw [h.group]
    · intro _; simp only [State.regs]; rw [h.group]
    · intro _; simp only [State.regs]; rw [h.part]
  · intro c
    by_cases hcc : c = x.core
    · subst hcc; rw [r.here.core, h.cores]
    · rw [r.here.cores c hcc, h.cores c]
  · intro c p
    by_cases hcc : c = x.core
    · subst hcc
      by_cases hpp : p = x.part
      · subst hpp; rw [State.advance_part t x hg hq, h.part]
      · rw [r.here.parts p hpp, h.part]
    · unfold State.part; rw [r.here.cores c hcc, h.cores c]; rfl
  · refine ⟨fun l hl => ?_, ?_, fun k hk => ?_, ?_⟩
    · rw [r.passes.lanes l hl, h.group]; rfl
    · rw [r.passes.slot, h.group]; rfl
    · rw [r.passes.slots k hk, h.group]; rfl
    · rw [r.passes.run, h.part]

/-- A ready operation that puts work under way and goes on. -/
theorem Ready.kept {s : State} {i : Instr} {x : Iss} (h : Ready s i x) {eff : Iss → State → Eff} {u : State}
    (ho : effectOf x.ins.op = some eff) (he : eff x s = .done u) (hw : Queues s u x) :
    exec i s = .next (u.advance x) ∧ Kept s (u.advance x) x := by
  refine ⟨?_, hw.advance h.place.1 h.place.2⟩
  rw [h.exec_eq ho, he]
  rfl

end Sys2Proof.Machine
end

