-- ==== Sys2Proof/Laws/Memory.lean ====
section
/-! SUPPORT. The laws of the cell list that holds memory: what a read finds after a write, and that every operation keeps the
canonical form. -/

namespace Sys2Proof.Machine

/-- A bound that a cell list lies above may be lowered. -/
theorem Mem.above_weaken {m : Mem} {x y : Nat} (h : Mem.above (some x) m = true) (hy : y ≤ x) : Mem.above (some y) m = true := by
  cases m with
  | nil => rfl
  | cons c r =>
    obtain ⟨a, b⟩ := c
    simp only [Mem.above, Bool.and_eq_true, decide_eq_true_eq] at h ⊢
    exact ⟨⟨by omega, h.1.2⟩, h.2⟩

theorem Mem.above_none {m : Mem} {x : Nat} (h : Mem.above (some x) m = true) : Mem.above none m = true := by
  cases m with
  | nil => rfl
  | cons c r =>
    obtain ⟨a, b⟩ := c
    simp only [Mem.above, Bool.and_eq_true, decide_eq_true_eq] at h ⊢
    exact ⟨⟨trivial, h.1.2⟩, h.2⟩

/-- Below its bound a cell list reads 0. -/
theorem Mem.read_below {m : Mem} {x a : Nat} (h : Mem.above (some x) m = true) (ha : a ≤ x) : Mem.read m a = 0 := by
  cases m with
  | nil => rfl
  | cons c r =>
    obtain ⟨y, b⟩ := c
    simp only [Mem.above, Bool.and_eq_true, decide_eq_true_eq] at h
    simp only [Mem.read]
    rw [if_pos (by omega)]

theorem Mem.above_write {m : Mem} (lo : Option Nat) (h : Mem.above lo m = true) (a : Nat) (b : Byte)
    (ha : ∀ l, lo = some l → l < a) : Mem.above lo (Mem.write m a b) = true := by
  induction m generalizing lo with
  | nil =>
    by_cases hb : b = 0#8
    · simp [Mem.write, hb, Mem.above]
    · cases lo with
      | none => simp [Mem.write, hb, Mem.above]
      | some l => simp [Mem.write, hb, Mem.above, ha l rfl]
  | cons c r ih =>
    obtain ⟨x, v⟩ := c
    have h' := h
    simp only [Mem.above, Bool.and_eq_true] at h
    obtain ⟨⟨h1, h2⟩, h3⟩ := h
    simp only [Mem.write]
    split
    · split
      · exact h'
      · cases lo with
        | none => simp_all [Mem.above]
        | some l => simp_all [Mem.above]
    · split
      · split
        · cases lo with
          | none => exact Mem.above_none h3
          | some l => exact Mem.above_weaken h3 (by simp at h1; omega)
        · subst a
          cases lo with
          | none => simp_all [Mem.above]
          | some l => simp_all [Mem.above]
      · have := ih (some x) h3 (by intro l hl; cases hl; omega)
        simp only [Mem.above, Bool.and_eq_true]
        exact ⟨⟨h1, h2⟩, this⟩

/-- A write keeps the canonical form. -/
theorem Mem.write_wf {m : Mem} (h : Mem.wf m = true) (a : Nat) (b : Byte) : Mem.wf (Mem.write m a b) = true :=
  Mem.above_write none h a b (by simp)

theorem Mem.writes_wf {m : Mem} (h : Mem.wf m = true) (a : Nat) (bs : List Byte) : Mem.wf (Mem.writes m a bs) = true := by
  induction bs generalizing m a with
  | nil => exact h
  | cons b r ih => exact ih (Mem.write_wf h a b) (a + 1)

theorem Mem.fold_write_wf {m : Mem} (h : Mem.wf m = true) (cs : List Host.Cell) :
    Mem.wf (cs.foldl (fun m c => Mem.write m c.1 c.2) m) = true := by
  induction cs generalizing m with
  | nil => exact h
  | cons c r ih => exact ih (Mem.write_wf h c.1 c.2)

/-- What one byte reads as after a write of one byte. -/
theorem Mem.read_write_above (m : Mem) (lo : Option Nat) (h : Mem.above lo m = true) (a c : Nat) (b : Byte) :
    Mem.read (Mem.write m a b) c = if c = a then b else Mem.read m c := by
  induction m generalizing lo with
  | nil =>
    by_cases hb : b = 0#8
    · simp [Mem.write, hb, Mem.read]
    · by_cases hc : c = a
      · subst hc; simp [Mem.write, hb, Mem.read]
      · simp [Mem.write, hb, Mem.read, hc]
  | cons k r ih =>
    obtain ⟨x, v⟩ := k
    simp only [Mem.above, Bool.and_eq_true] at h
    obtain ⟨_, h3⟩ := h
    have ih := ih (some x) h3
    simp only [Mem.write]
    split
    · rename_i hlt
      split
      · rename_i hb
        subst hb
        by_cases hc : c = a
        · subst hc; simp [Mem.read, hlt]
        · simp [hc]
      · by_cases hc : c = a
        · subst hc; simp [Mem.read]
        · simp only [Mem.read, hc, if_false]
          split <;> simp_all
          intros; omega
    · split
      · subst a
        split
        · rename_i hb
          subst hb
          by_cases hc : c = x
          · subst hc; simp [Mem.read_below h3 (Nat.le_refl _)]
          · simp only [hc, if_false, Mem.read]
            split
            · rename_i hl
              exact Mem.read_below h3 (by omega)
            · rfl
        · by_cases hc : c = x
          · subst hc; simp [Mem.read]
          · simp [Mem.read, hc]
      · simp only [Mem.read, ih]
        split
        · rename_i h1 h2 h4
          rw [if_neg (by omega)]
        · split
          · rename_i h1 h2 h4 h5
            rw [if_neg (by omega)]
          · rfl

theorem Mem.read_write {m : Mem} (h : Mem.wf m = true) (a c : Nat) (b : Byte) :
    Mem.read (Mem.write m a b) c = if c = a then b else Mem.read m c := Mem.read_write_above m none h a c b

/-- Consecutive bytes written are the bytes read there; every other byte reads as before. -/
theorem Mem.read_writes {m : Mem} (h : Mem.wf m = true) (a c : Nat) (bs : List Byte) :
    Mem.read (Mem.writes m a bs) c = if a ≤ c ∧ c < a + bs.length then bs.getD (c - a) 0 else Mem.read m c := by
  induction bs generalizing m a with
  | nil => simp [Mem.writes]
  | cons b r ih =>
    simp only [Mem.writes, ih (Mem.write_wf h a b), Mem.read_write h, List.length_cons]
    by_cases h1 : c = a
    · subst h1; simp
    · by_cases h2 : a + 1 ≤ c ∧ c < a + 1 + r.length
      · have : c - a = (c - (a + 1)) + 1 := by omega
        rw [if_pos h2, if_pos (by omega), this]; simp
      · rw [if_neg h2, if_neg h1, if_neg (by omega)]

/-- Performing cells at home keeps the canonical form of memory. -/
theorem State.homeCells_wf {s : State} (h : Mem.wf s.mem = true) (cs : List Host.Cell) : Mem.wf (s.homeCells cs).mem = true := by
  have := Mem.fold_write_wf h cs
  unfold State.homeCells
  split
  · exact this
  · dsimp only
    split
    · split <;> exact this
    · exact this

theorem State.homeBytes_wf {s : State} (h : Mem.wf s.mem = true) (pa : Nat) (bs : List Byte) : Mem.wf (s.homeBytes pa bs).mem = true :=
  State.homeCells_wf h _

end Sys2Proof.Machine
end

