-- ==== Sys2Proof/Laws/PerInstr.lean ====
section
/-! SUPPORT. One lemma for every row of the table: the fields and operation code a well-formed term stands for name that
row again (R49, R52, R65, R66). An event stands for no word. -/

namespace Sys2Proof.Laws.RoundTrip

/-- The words of a well-formed instruction name it again. -/
def Statement (i : Instr) : Prop := ∀ w : Words, i.wellFormed = true → i.words = some w → w.instr = .ok i

theorem iadd (f : W64F) : Statement (.iadd f) := by intro w _ h; cases h; rfl
theorem iaddC16 (f : C16F) : Statement (.iaddC16 f) := by intro w _ h; cases h; rfl
theorem iaddW32 (f : W32F) : Statement (.iaddW32 f) := by intro w _ h; cases h; rfl
theorem isub (f : W64F) : Statement (.isub f) := by intro w _ h; cases h; rfl
theorem isubC16 (f : C16F) : Statement (.isubC16 f) := by intro w _ h; cases h; rfl
theorem isubW32 (f : W32F) : Statement (.isubW32 f) := by intro w _ h; cases h; rfl
theorem imul (f : W64F) : Statement (.imul f) := by intro w _ h; cases h; rfl
theorem imulC16 (f : C16F) : Statement (.imulC16 f) := by intro w _ h; cases h; rfl
theorem imulW32 (f : W32F) : Statement (.imulW32 f) := by intro w _ h; cases h; rfl
theorem imulh (f : W64F) : Statement (.imulh f) := by intro w _ h; cases h; rfl
theorem imulhW32 (f : W32F) : Statement (.imulhW32 f) := by intro w _ h; cases h; rfl
theorem imad (f : W64F) : Statement (.imad f) := by intro w _ h; cases h; rfl
theorem imadw (f : W64F) : Statement (.imadw f) := by intro w _ h; cases h; rfl
theorem iaddc (f : W64F) : Statement (.iaddc f) := by intro w _ h; cases h; rfl
theorem isubb (f : W64F) : Statement (.isubb f) := by intro w _ h; cases h; rfl
theorem ineg (f : W64F) : Statement (.ineg f) := by intro w _ h; cases h; rfl
theorem inegW32 (f : W32F) : Statement (.inegW32 f) := by intro w _ h; cases h; rfl
theorem iabs (f : W64F) : Statement (.iabs f) := by intro w _ h; cases h; rfl
theorem iabsW32 (f : W32F) : Statement (.iabsW32 f) := by intro w _ h; cases h; rfl
theorem imin (f : W64F) : Statement (.imin f) := by intro w _ h; cases h; rfl
theorem iminW32 (f : W32F) : Statement (.iminW32 f) := by intro w _ h; cases h; rfl
theorem imax (f : W64F) : Statement (.imax f) := by intro w _ h; cases h; rfl
theorem imaxW32 (f : W32F) : Statement (.imaxW32 f) := by intro w _ h; cases h; rfl
theorem and (f : W64F) : Statement (.and f) := by intro w _ h; cases h; rfl
theorem andC16 (f : C16F) : Statement (.andC16 f) := by intro w _ h; cases h; rfl
theorem andW32 (f : W32F) : Statement (.andW32 f) := by intro w _ h; cases h; rfl
theorem or (f : W64F) : Statement (.or f) := by intro w _ h; cases h; rfl
theorem orC16 (f : C16F) : Statement (.orC16 f) := by intro w _ h; cases h; rfl
theorem orW32 (f : W32F) : Statement (.orW32 f) := by intro w _ h; cases h; rfl
theorem xor (f : W64F) : Statement (.xor f) := by intro w _ h; cases h; rfl
theorem xorC16 (f : C16F) : Statement (.xorC16 f) := by intro w _ h; cases h; rfl
theorem xorW32 (f : W32F) : Statement (.xorW32 f) := by intro w _ h; cases h; rfl
theorem not (f : W64F) : Statement (.not f) := by intro w _ h; cases h; rfl
theorem notC16 (f : C16F) : Statement (.notC16 f) := by intro w _ h; cases h; rfl
theorem notW32 (f : W32F) : Statement (.notW32 f) := by intro w _ h; cases h; rfl
theorem andn (f : W64F) : Statement (.andn f) := by intro w _ h; cases h; rfl
theorem andnW32 (f : W32F) : Statement (.andnW32 f) := by intro w _ h; cases h; rfl
theorem shl (f : W64F) : Statement (.shl f) := by intro w _ h; cases h; rfl
theorem shlC16 (f : C16F) : Statement (.shlC16 f) := by intro w _ h; cases h; rfl
theorem shlW32 (f : W32F) : Statement (.shlW32 f) := by intro w _ h; cases h; rfl
theorem shrl (f : W64F) : Statement (.shrl f) := by intro w _ h; cases h; rfl
theorem shrlC16 (f : C16F) : Statement (.shrlC16 f) := by intro w _ h; cases h; rfl
theorem shrlW32 (f : W32F) : Statement (.shrlW32 f) := by intro w _ h; cases h; rfl
theorem shra (f : W64F) : Statement (.shra f) := by intro w _ h; cases h; rfl
theorem shraC16 (f : C16F) : Statement (.shraC16 f) := by intro w _ h; cases h; rfl
theorem shraW32 (f : W32F) : Statement (.shraW32 f) := by intro w _ h; cases h; rfl
theorem rotl (f : W64F) : Statement (.rotl f) := by intro w _ h; cases h; rfl
theorem rotlW32 (f : W32F) : Statement (.rotlW32 f) := by intro w _ h; cases h; rfl
theorem funl (f : W64F) : Statement (.funl f) := by intro w _ h; cases h; rfl
theorem bfx (f : W64F) : Statement (.bfx f) := by intro w _ h; cases h; rfl
theorem bfi (f : W64F) : Statement (.bfi f) := by intro w _ h; cases h; rfl
theorem popc (f : W64F) : Statement (.popc f) := by intro w _ h; cases h; rfl
theorem popcW32 (f : W32F) : Statement (.popcW32 f) := by intro w _ h; cases h; rfl
theorem clz (f : W64F) : Statement (.clz f) := by intro w _ h; cases h; rfl
theorem clzW32 (f : W32F) : Statement (.clzW32 f) := by intro w _ h; cases h; rfl
theorem brev (f : W64F) : Statement (.brev f) := by intro w _ h; cases h; rfl
theorem brevW32 (f : W32F) : Statement (.brevW32 f) := by intro w _ h; cases h; rfl
theorem idiv (f : W64F) : Statement (.idiv f) := by intro w _ h; cases h; rfl
theorem irem (f : W64F) : Statement (.irem f) := by intro w _ h; cases h; rfl
theorem lea (f : W64F) : Statement (.lea f) := by intro w _ h; cases h; rfl
theorem iaddw (f : W64F) : Statement (.iaddw f) := by intro w _ h; cases h; rfl
theorem icmp (f : W64F) : Statement (.icmp f) := by intro w _ h; cases h; rfl
theorem bysel (f : W64F) : Statement (.bysel f) := by intro w _ h; cases h; rfl
theorem dot4 (f : W64F) : Statement (.dot4 f) := by intro w _ h; cases h; rfl
theorem fadd (f : W64F) : Statement (.fadd f) := by intro w _ h; cases h; rfl
theorem faddC16 (f : C16F) : Statement (.faddC16 f) := by intro w _ h; cases h; rfl
theorem faddW32 (f : W32F) : Statement (.faddW32 f) := by intro w _ h; cases h; rfl
theorem fsub (f : W64F) : Statement (.fsub f) := by intro w _ h; cases h; rfl
theorem fsubC16 (f : C16F) : Statement (.fsubC16 f) := by intro w _ h; cases h; rfl
theorem fsubW32 (f : W32F) : Statement (.fsubW32 f) := by intro w _ h; cases h; rfl
theorem fmul (f : W64F) : Statement (.fmul f) := by intro w _ h; cases h; rfl
theorem fmulC16 (f : C16F) : Statement (.fmulC16 f) := by intro w _ h; cases h; rfl
theorem fmulW32 (f : W32F) : Statement (.fmulW32 f) := by intro w _ h; cases h; rfl
theorem ffma (f : W64F) : Statement (.ffma f) := by intro w _ h; cases h; rfl
theorem fmin (f : W64F) : Statement (.fmin f) := by intro w _ h; cases h; rfl
theorem fminC16 (f : C16F) : Statement (.fminC16 f) := by intro w _ h; cases h; rfl
theorem fminW32 (f : W32F) : Statement (.fminW32 f) := by intro w _ h; cases h; rfl
theorem fmax (f : W64F) : Statement (.fmax f) := by intro w _ h; cases h; rfl
theorem fmaxC16 (f : C16F) : Statement (.fmaxC16 f) := by intro w _ h; cases h; rfl
theorem fmaxW32 (f : W32F) : Statement (.fmaxW32 f) := by intro w _ h; cases h; rfl
theorem fminn (f : W64F) : Statement (.fminn f) := by intro w _ h; cases h; rfl
theorem fminnW32 (f : W32F) : Statement (.fminnW32 f) := by intro w _ h; cases h; rfl
theorem fmaxn (f : W64F) : Statement (.fmaxn f) := by intro w _ h; cases h; rfl
theorem fmaxnW32 (f : W32F) : Statement (.fmaxnW32 f) := by intro w _ h; cases h; rfl
theorem fcmp (f : W64F) : Statement (.fcmp f) := by intro w _ h; cases h; rfl
theorem fclass (f : W64F) : Statement (.fclass f) := by intro w _ h; cases h; rfl
theorem fdiv (f : W64F) : Statement (.fdiv f) := by intro w _ h; cases h; rfl
theorem fdivW32 (f : W32F) : Statement (.fdivW32 f) := by intro w _ h; cases h; rfl
theorem fsqrt (f : W64F) : Statement (.fsqrt f) := by intro w _ h; cases h; rfl
theorem fsqrtW32 (f : W32F) : Statement (.fsqrtW32 f) := by intro w _ h; cases h; rfl
theorem frcp (f : W64F) : Statement (.frcp f) := by intro w _ h; cases h; rfl
theorem frcpW32 (f : W32F) : Statement (.frcpW32 f) := by intro w _ h; cases h; rfl
theorem frsq (f : W64F) : Statement (.frsq f) := by intro w _ h; cases h; rfl
theorem frsqW32 (f : W32F) : Statement (.frsqW32 f) := by intro w _ h; cases h; rfl
theorem fexp2 (f : W64F) : Statement (.fexp2 f) := by intro w _ h; cases h; rfl
theorem fexp2W32 (f : W32F) : Statement (.fexp2W32 f) := by intro w _ h; cases h; rfl
theorem flog2 (f : W64F) : Statement (.flog2 f) := by intro w _ h; cases h; rfl
theorem flog2W32 (f : W32F) : Statement (.flog2W32 f) := by intro w _ h; cases h; rfl
theorem fsinpi (f : W64F) : Statement (.fsinpi f) := by intro w _ h; cases h; rfl
theorem fcospi (f : W64F) : Statement (.fcospi f) := by intro w _ h; cases h; rfl
theorem ftanh (f : W64F) : Statement (.ftanh f) := by intro w _ h; cases h; rfl
theorem ftanhW32 (f : W32F) : Statement (.ftanhW32 f) := by intro w _ h; cases h; rfl
theorem frint (f : W64F) : Statement (.frint f) := by intro w _ h; cases h; rfl
theorem frintW32 (f : W32F) : Statement (.frintW32 f) := by intro w _ h; cases h; rfl
theorem fldexp (f : W64F) : Statement (.fldexp f) := by intro w _ h; cases h; rfl
theorem hfma2 (f : W64F) : Statement (.hfma2 f) := by intro w _ h; cases h; rfl
theorem hadd2 (f : W64F) : Statement (.hadd2 f) := by intro w _ h; cases h; rfl
theorem hadd2W32 (f : W32F) : Statement (.hadd2W32 f) := by intro w _ h; cases h; rfl
theorem hmul2 (f : W64F) : Statement (.hmul2 f) := by intro w _ h; cases h; rfl
theorem hmul2W32 (f : W32F) : Statement (.hmul2W32 f) := by intro w _ h; cases h; rfl
theorem hmin2 (f : W64F) : Statement (.hmin2 f) := by intro w _ h; cases h; rfl
theorem hmin2W32 (f : W32F) : Statement (.hmin2W32 f) := by intro w _ h; cases h; rfl
theorem hmax2 (f : W64F) : Statement (.hmax2 f) := by intro w _ h; cases h; rfl
theorem hmax2W32 (f : W32F) : Statement (.hmax2W32 f) := by intro w _ h; cases h; rfl
theorem dadd (f : W64F) : Statement (.dadd f) := by intro w _ h; cases h; rfl
theorem daddW32 (f : W32F) : Statement (.daddW32 f) := by intro w _ h; cases h; rfl
theorem dmul (f : W64F) : Statement (.dmul f) := by intro w _ h; cases h; rfl
theorem dmulW32 (f : W32F) : Statement (.dmulW32 f) := by intro w _ h; cases h; rfl
theorem dfma (f : W64F) : Statement (.dfma f) := by intro w _ h; cases h; rfl
theorem dmin (f : W64F) : Statement (.dmin f) := by intro w _ h; cases h; rfl
theorem dmax (f : W64F) : Statement (.dmax f) := by intro w _ h; cases h; rfl
theorem dcmp (f : W64F) : Statement (.dcmp f) := by intro w _ h; cases h; rfl
theorem ddiv (f : W64F) : Statement (.ddiv f) := by intro w _ h; cases h; rfl
theorem dsqrt (f : W64F) : Statement (.dsqrt f) := by intro w _ h; cases h; rfl
theorem cvt (f : W64F) : Statement (.cvt f) := by intro w _ h; cases h; rfl
theorem cvtn (f : W64F) : Statement (.cvtn f) := by intro w _ h; cases h; rfl
theorem cvtw (f : W64F) : Statement (.cvtw f) := by intro w _ h; cases h; rfl
theorem sprs (f : W64F) : Statement (.sprs f) := by intro w _ h; cases h; rfl
theorem sel (f : W64F) : Statement (.sel f) := by intro w _ h; cases h; rfl
theorem pset (f : W64F) : Statement (.pset f) := by intro w _ h; cases h; rfl
theorem pmov (f : W64F) : Statement (.pmov f) := by intro w _ h; cases h; rfl
theorem rngh (f : W64F) : Statement (.rngh f) := by intro w _ h; cases h; rfl
theorem sreg (f : W64F) : Statement (.sreg f) := by intro w _ h; cases h; rfl
theorem mov (f : W64F) : Statement (.mov f) := by intro w _ h; cases h; rfl
theorem movC16 (f : C16F) : Statement (.movC16 f) := by intro w _ h; cases h; rfl
theorem movW32 (f : W32F) : Statement (.movW32 f) := by intro w _ h; cases h; rfl
theorem bcast (f : W64F) : Statement (.bcast f) := by intro w _ h; cases h; rfl
theorem bcastW32 (f : W32F) : Statement (.bcastW32 f) := by intro w _ h; cases h; rfl
theorem readl (f : W64F) : Statement (.readl f) := by intro w _ h; cases h; rfl
theorem readlW32 (f : W32F) : Statement (.readlW32 f) := by intro w _ h; cases h; rfl
theorem vfree (f : W64F) : Statement (.vfree f) := by intro w _ h; cases h; rfl
theorem vfreeW32 (f : W32F) : Statement (.vfreeW32 f) := by intro w _ h; cases h; rfl
theorem shfl (f : W64F) : Statement (.shfl f) := by intro w _ h; cases h; rfl
theorem shflW32 (f : W32F) : Statement (.shflW32 f) := by intro w _ h; cases h; rfl
theorem vred (f : W64F) : Statement (.vred f) := by intro w _ h; cases h; rfl
theorem vredW32 (f : W32F) : Statement (.vredW32 f) := by intro w _ h; cases h; rfl
theorem vscan (f : W64F) : Statement (.vscan f) := by intro w _ h; cases h; rfl
theorem vote (f : W64F) : Statement (.vote f) := by intro w _ h; cases h; rfl
theorem ballot (f : W64F) : Statement (.ballot f) := by intro w _ h; cases h; rfl
theorem matchLanes (f : W64F) : Statement (.matchLanes f) := by intro w _ h; cases h; rfl
theorem brd (f : W64F) : Statement (.brd f) := by intro w _ h; cases h; rfl
theorem brany (f : W64F) : Statement (.brany f) := by intro w _ h; cases h; rfl
theorem brall (f : W64F) : Statement (.brall f) := by intro w _ h; cases h; rfl
theorem brnone (f : W64F) : Statement (.brnone f) := by intro w _ h; cases h; rfl
theorem jmp (f : W64F) : Statement (.jmp f) := by intro w _ h; cases h; rfl
theorem jmpi (f : W64F) : Statement (.jmpi f) := by intro w _ h; cases h; rfl
theorem call (f : W64F) : Statement (.call f) := by intro w _ h; cases h; rfl
theorem calli (f : W64F) : Statement (.calli f) := by intro w _ h; cases h; rfl
theorem ret (f : W64F) : Statement (.ret f) := by intro w _ h; cases h; rfl
theorem retW32 (f : W32F) : Statement (.retW32 f) := by intro w _ h; cases h; rfl
theorem exit (f : W64F) : Statement (.exit f) := by intro w _ h; cases h; rfl
theorem exitW32 (f : W32F) : Statement (.exitW32 f) := by intro w _ h; cases h; rfl
theorem yield (f : W64F) : Statement (.yield f) := by intro w _ h; cases h; rfl
theorem yieldW32 (f : W32F) : Statement (.yieldW32 f) := by intro w _ h; cases h; rfl
theorem loopg (f : W64F) : Statement (.loopg f) := by intro w _ h; cases h; rfl
theorem nop (f : W64F) : Statement (.nop f) := by intro w _ h; cases h; rfl
theorem nopW32 (f : W32F) : Statement (.nopW32 f) := by intro w _ h; cases h; rfl
theorem ld (f : W64F) : Statement (.ld f) := by intro w _ h; cases h; rfl
theorem st (f : W64F) : Statement (.st f) := by intro w _ h; cases h; rfl
theorem lds (f : W64F) : Statement (.lds f) := by intro w _ h; cases h; rfl
theorem sts (f : W64F) : Statement (.sts f) := by intro w _ h; cases h; rfl
theorem ldfe (f : W64F) : Statement (.ldfe f) := by intro w _ h; cases h; rfl
theorem stfe (f : W64F) : Statement (.stfe f) := by intro w _ h; cases h; rfl
theorem feset (f : W64F) : Statement (.feset f) := by intro w _ h; cases h; rfl
theorem atom (f : W64F) : Statement (.atom f) := by intro w _ h; cases h; rfl
theorem atoms (f : W64F) : Statement (.atoms f) := by intro w _ h; cases h; rfl
theorem red (f : W64F) : Statement (.red f) := by intro w _ h; cases h; rfl
theorem redo (f : W64F) : Statement (.redo f) := by intro w _ h; cases h; rfl
theorem fence (f : W64F) : Statement (.fence f) := by intro w _ h; cases h; rfl
theorem pref (f : W64F) : Statement (.pref f) := by intro w _ h; cases h; rfl
theorem drop (f : W64F) : Statement (.drop f) := by intro w _ h; cases h; rfl
theorem gld (f : W64F) : Statement (.gld f) := by intro w _ h; cases h; rfl
theorem gst (f : W64F) : Statement (.gst f) := by intro w _ h; cases h; rfl
theorem gadd (f : W64F) : Statement (.gadd f) := by intro w _ h; cases h; rfl
theorem gaddW32 (f : W32F) : Statement (.gaddW32 f) := by intro w _ h; cases h; rfl
theorem gsub (f : W64F) : Statement (.gsub f) := by intro w _ h; cases h; rfl
theorem gsubW32 (f : W32F) : Statement (.gsubW32 f) := by intro w _ h; cases h; rfl
theorem gmul (f : W64F) : Statement (.gmul f) := by intro w _ h; cases h; rfl
theorem gmulW32 (f : W32F) : Statement (.gmulW32 f) := by intro w _ h; cases h; rfl
theorem gmad (f : W64F) : Statement (.gmad f) := by intro w _ h; cases h; rfl
theorem gand (f : W64F) : Statement (.gand f) := by intro w _ h; cases h; rfl
theorem gandW32 (f : W32F) : Statement (.gandW32 f) := by intro w _ h; cases h; rfl
theorem gor (f : W64F) : Statement (.gor f) := by intro w _ h; cases h; rfl
theorem gorW32 (f : W32F) : Statement (.gorW32 f) := by intro w _ h; cases h; rfl
theorem gxor (f : W64F) : Statement (.gxor f) := by intro w _ h; cases h; rfl
theorem gxorW32 (f : W32F) : Statement (.gxorW32 f) := by intro w _ h; cases h; rfl
theorem gshl (f : W64F) : Statement (.gshl f) := by intro w _ h; cases h; rfl
theorem gshlW32 (f : W32F) : Statement (.gshlW32 f) := by intro w _ h; cases h; rfl
theorem gshr (f : W64F) : Statement (.gshr f) := by intro w _ h; cases h; rfl
theorem gshrW32 (f : W32F) : Statement (.gshrW32 f) := by intro w _ h; cases h; rfl
theorem gcmp (f : W64F) : Statement (.gcmp f) := by intro w _ h; cases h; rfl
theorem gsel (f : W64F) : Statement (.gsel f) := by intro w _ h; cases h; rfl
theorem gmin (f : W64F) : Statement (.gmin f) := by intro w _ h; cases h; rfl
theorem gminW32 (f : W32F) : Statement (.gminW32 f) := by intro w _ h; cases h; rfl
theorem gmax (f : W64F) : Statement (.gmax f) := by intro w _ h; cases h; rfl
theorem gmaxW32 (f : W32F) : Statement (.gmaxW32 f) := by intro w _ h; cases h; rfl
theorem glea (f : W64F) : Statement (.glea f) := by intro w _ h; cases h; rfl
theorem gfadd (f : W64F) : Statement (.gfadd f) := by intro w _ h; cases h; rfl
theorem gfaddW32 (f : W32F) : Statement (.gfaddW32 f) := by intro w _ h; cases h; rfl
theorem gfmul (f : W64F) : Statement (.gfmul f) := by intro w _ h; cases h; rfl
theorem gfmulW32 (f : W32F) : Statement (.gfmulW32 f) := by intro w _ h; cases h; rfl
theorem wait (f : W64F) : Statement (.wait f) := by intro w _ h; cases h; rfl
theorem waitW32 (f : W32F) : Statement (.waitW32 f) := by intro w _ h; cases h; rfl
theorem sleept (f : W64F) : Statement (.sleept f) := by
  intro w m h
  cases h
  simp_all [Instr.wellFormed, Instr.modeOk, Words.instr, splitRow, Instr.isEvent, Instr.words]
theorem sleeptProm (f : W64F) : Statement (.sleeptProm f) := by
  intro w m h
  cases h
  simp_all [Instr.wellFormed, Instr.modeOk, Words.instr, splitRow, Instr.isEvent, Instr.words]
theorem plvl (f : W64F) : Statement (.plvl f) := by intro w _ h; cases h; rfl
theorem regclm (f : W64F) : Statement (.regclm f) := by intro w _ h; cases h; rfl
theorem regrel (f : W64F) : Statement (.regrel f) := by intro w _ h; cases h; rfl
theorem bar (f : W64F) : Statement (.bar f) := by intro w _ h; cases h; rfl
theorem dqpush (f : W64F) : Statement (.dqpush f) := by intro w _ h; cases h; rfl
theorem dqpop (f : W64F) : Statement (.dqpop f) := by intro w _ h; cases h; rfl
theorem dqsteal (f : W64F) : Statement (.dqsteal f) := by intro w _ h; cases h; rfl
theorem lnch (f : W64F) : Statement (.lnch f) := by intro w _ h; cases h; rfl
theorem trap (f : W64F) : Statement (.trap f) := by intro w _ h; cases h; rfl
theorem eret (f : W64F) : Statement (.eret f) := by intro w _ h; cases h; rfl
theorem mfsr (f : W64F) : Statement (.mfsr f) := by intro w _ h; cases h; rfl
theorem mtsr (f : W64F) : Statement (.mtsr f) := by intro w _ h; cases h; rfl
theorem tlbinv (f : W64F) : Statement (.tlbinv f) := by intro w _ h; cases h; rfl
theorem bkpt (f : W64F) : Statement (.bkpt f) := by intro w _ h; cases h; rfl
theorem mld (f : W64F) : Statement (.mld f) := by intro w _ h; cases h; rfl
theorem mst (f : W64F) : Statement (.mst f) := by intro w _ h; cases h; rfl
theorem mshp (f : W64F) : Statement (.mshp f) := by intro w _ h; cases h; rfl
theorem mmov (f : W64F) : Statement (.mmov f) := by intro w _ h; cases h; rfl
theorem mzero (f : W64F) : Statement (.mzero f) := by intro w _ h; cases h; rfl
theorem emsk (f : W64F) : Statement (.emsk f) := by intro w _ h; cases h; rfl
theorem mma (f : W64F) : Statement (.mma f) := by intro w _ h; cases h; rfl
theorem mmas (f : W64F) : Statement (.mmas f) := by intro w _ h; cases h; rfl
theorem mcnt (f : W64F) : Statement (.mcnt f) := by intro w _ h; cases h; rfl
theorem mqch (f : W64F) : Statement (.mqch f) := by intro w _ h; cases h; rfl
theorem mmrg (f : W64F) : Statement (.mmrg f) := by
  intro w m h
  cases h
  simp_all [Instr.wellFormed, Instr.modeOk, Words.instr, splitRow, Instr.isEvent, Instr.words]
theorem mmrgPeer (f : W64F) : Statement (.mmrgPeer f) := by
  intro w m h
  cases h
  simp_all [Instr.wellFormed, Instr.modeOk, Words.instr, splitRow, Instr.isEvent, Instr.words]
theorem mdrn (f : W64F) : Statement (.mdrn f) := by intro w _ h; cases h; rfl
theorem mdrna (f : W64F) : Statement (.mdrna f) := by intro w _ h; cases h; rfl
theorem macz (f : W64F) : Statement (.macz f) := by intro w _ h; cases h; rfl
theorem sctrd (f : W64F) : Statement (.sctrd f) := by intro w _ h; cases h; rfl
theorem sctadv (f : W64F) : Statement (.sctadv f) := by
  intro w m h
  cases h
  have m : f.m12.extractLsb' 0 2 = 0#2 ∨ f.m12.extractLsb' 0 2 = 3#2 := by simpa [Instr.wellFormed, Instr.modeOk, Instr.isEvent, Instr.words] using m
  rcases m with m | m <;> simp [Words.instr, splitRow, m]
theorem sctadvAmax (f : W64F) : Statement (.sctadvAmax f) := by
  intro w m h
  cases h
  simp_all [Instr.wellFormed, Instr.modeOk, Words.instr, splitRow, Instr.isEvent, Instr.words]
theorem sctadvOff (f : W64F) : Statement (.sctadvOff f) := by
  intro w m h
  cases h
  simp_all [Instr.wellFormed, Instr.modeOk, Words.instr, splitRow, Instr.isEvent, Instr.words]
theorem bcpy (f : W64F) : Statement (.bcpy f) := by intro w _ h; cases h; rfl
theorem bfill (f : W64F) : Statement (.bfill f) := by intro w _ h; cases h; rfl
theorem frz (f : W64F) : Statement (.frz f) := by intro w _ h; cases h; rfl
theorem thaw (f : W64F) : Statement (.thaw f) := by intro w _ h; cases h; rfl
theorem frzq (f : W64F) : Statement (.frzq f) := by intro w _ h; cases h; rfl
theorem pbar (f : W64F) : Statement (.pbar f) := by intro w _ h; cases h; rfl
theorem pflush (f : W64F) : Statement (.pflush f) := by intro w _ h; cases h; rfl
theorem steptag (f : W64F) : Statement (.steptag f) := by intro w _ h; cases h; rfl
theorem stepcm (f : W64F) : Statement (.stepcm f) := by intro w _ h; cases h; rfl
theorem stepab (f : W64F) : Statement (.stepab f) := by intro w _ h; cases h; rfl
theorem snapreq (f : W64F) : Statement (.snapreq f) := by intro w _ h; cases h; rfl
theorem coll (f : W64F) : Statement (.coll f) := by intro w _ h; cases h; rfl
theorem sigadd (f : W64F) : Statement (.sigadd f) := by intro w _ h; cases h; rfl
theorem sigwait (f : W64F) : Statement (.sigwait f) := by intro w _ h; cases h; rfl
theorem movi (f : W64IF) : Statement (.movi f) := by intro w _ h; cases h; rfl
theorem gmovi (f : W64IF) : Statement (.gmovi f) := by intro w _ h; cases h; rfl
theorem iaddi (f : W64IF) : Statement (.iaddi f) := by intro w _ h; cases h; rfl
theorem gaddi (f : W64IF) : Statement (.gaddi f) := by intro w _ h; cases h; rfl
theorem icmpi (f : W64IF) : Statement (.icmpi f) := by intro w _ h; cases h; rfl
theorem gcmpi (f : W64IF) : Statement (.gcmpi f) := by intro w _ h; cases h; rfl
theorem andi (f : W64IF) : Statement (.andi f) := by intro w _ h; cases h; rfl
theorem runSelect (_core _part : Nat) : Statement (.runSelect _core _part) := by intro _ _ h; cases h
theorem runBoundary (_core _part : Nat) : Statement (.runBoundary _core _part) := by intro _ _ h; cases h
theorem joinTimeout (_gid _j : Nat) : Statement (.joinTimeout _gid _j) := by intro _ _ h; cases h
theorem runRotation (_gid _slot : Nat) : Statement (.runRotation _gid _slot) := by intro _ _ h; cases h
theorem stallRotation (_gid _slot : Nat) : Statement (.stallRotation _gid _slot) := by intro _ _ h; cases h
theorem instructionFetchFill (_core _ctx : Nat) (_line : CodeAddr) : Statement (.instructionFetchFill _core _ctx _line) := by intro _ _ h; cases h
theorem loadReturn (_id : Nat) : Statement (.loadReturn _id) := by intro _ _ h; cases h
theorem settleCommit (_gid _slot : Nat) : Statement (.settleCommit _gid _slot) := by intro _ _ h; cases h
theorem trapEntry (_core _part : Nat) : Statement (.trapEntry _core _part) := by intro _ _ h; cases h
theorem sleeptWake (_gid _slot : Nat) : Statement (.sleeptWake _gid _slot) := by intro _ _ h; cases h
theorem clockRestart (_core _grains : Nat) : Statement (.clockRestart _core _grains) := by intro _ _ h; cases h
theorem levelRaiseSettled (_dom : Nat) : Statement (.levelRaiseSettled _dom) := by intro _ _ h; cases h
theorem regclmClaimServed (_blk : Nat) : Statement (.regclmClaimServed _blk) := by intro _ _ h; cases h
theorem regpoolDeadlock (_blk : Nat) : Statement (.regpoolDeadlock _blk) := by intro _ _ h; cases h
theorem emptyOrphan (_blk : Nat) : Statement (.emptyOrphan _blk) := by intro _ _ h; cases h
theorem barrierComplete (_owner _lvl _id _unit : Nat) : Statement (.barrierComplete _owner _lvl _id _unit) := by intro _ _ h; cases h
theorem groupRetire (_gid : Nat) : Statement (.groupRetire _gid) := by intro _ _ h; cases h
theorem remoteScratchpadAccess (_id : Nat) : Statement (.remoteScratchpadAccess _id) := by intro _ _ h; cases h
theorem dqstealArrival (_id : Nat) : Statement (.dqstealArrival _id) := by intro _ _ h; cases h
theorem tlOperation (_gid : Nat) : Statement (.tlOperation _gid) := by intro _ _ h; cases h
theorem fusionHoldEnd (_quad _req : Nat) : Statement (.fusionHoldEnd _quad _req) := by intro _ _ h; cases h
theorem priorityAging (_quad _req : Nat) : Statement (.priorityAging _quad _req) := by intro _ _ h; cases h
theorem anvilPass (_quad : Nat) : Statement (.anvilPass _quad) := by intro _ _ h; cases h
theorem passResult (_quad _req : Nat) : Statement (.passResult _quad _req) := by intro _ _ h; cases h
theorem accumulatorPortGrant (_quad : Nat) : Statement (.accumulatorPortGrant _quad) := by intro _ _ h; cases h
theorem mdrnaArrival (_id : Nat) : Statement (.mdrnaArrival _id) := by intro _ _ h; cases h
theorem peerMergeTransfer (_quad _req : Nat) : Statement (.peerMergeTransfer _quad _req) := by intro _ _ h; cases h
theorem mxComplete (_gid : Nat) : Statement (.mxComplete _gid) := by intro _ _ h; cases h
theorem pageWalk (_core _ctx : Nat) (_va : Dword) : Statement (.pageWalk _core _ctx _va) := by intro _ _ h; cases h
theorem homeAccess (_id : Nat) : Statement (.homeAccess _id) := by intro _ _ h; cases h
theorem l1Eviction (_core _line : Nat) : Statement (.l1Eviction _core _line) := by intro _ _ h; cases h
theorem redoArrival (_id : Nat) : Statement (.redoArrival _id) := by intro _ _ h; cases h
theorem faultRecordWrite (_ctx : Nat) : Statement (.faultRecordWrite _ctx) := by intro _ _ h; cases h
theorem fresp (_die : Nat) (_v : Dword) : Statement (.fresp _die _v) := by intro _ _ h; cases h
theorem firmwareResume (_gid _slot : Nat) : Statement (.firmwareResume _gid _slot) := by intro _ _ h; cases h
theorem tongsChunk (_die _engine _ctx : Nat) : Statement (.tongsChunk _die _engine _ctx) := by intro _ _ h; cases h
theorem wbqEntry (_id : Nat) : Statement (.wbqEntry _id) := by intro _ _ h; cases h
theorem wbqDrain (_die : Nat) : Statement (.wbqDrain _die) := by intro _ _ h; cases h
theorem pflushComplete (_id : Nat) : Statement (.pflushComplete _id) := by intro _ _ h; cases h
theorem stepcmOperation (_ctx : Nat) : Statement (.stepcmOperation _ctx) := by intro _ _ h; cases h
theorem stepabOperation (_ctx : Nat) : Statement (.stepabOperation _ctx) := by intro _ _ h; cases h
theorem snapshotLine (_die : Nat) : Statement (.snapshotLine _die) := by intro _ _ h; cases h
theorem freezeNotice (_die _page : Nat) : Statement (.freezeNotice _die _page) := by intro _ _ h; cases h
theorem freezeAck (_die _page : Nat) : Statement (.freezeAck _die _page) := by intro _ _ h; cases h
theorem sealingEnd (_page : Nat) : Statement (.sealingEnd _page) := by intro _ _ h; cases h
theorem gather (_die _page : Nat) : Statement (.gather _die _page) := by intro _ _ h; cases h
theorem gatherEnd (_page : Nat) : Statement (.gatherEnd _page) := by intro _ _ h; cases h
theorem lqprodWrite (_q : Nat) (_v : Dword) : Statement (.lqprodWrite _q _v) := by intro _ _ h; cases h
theorem recordStart (_q : Nat) : Statement (.recordStart _q) := by intro _ _ h; cases h
theorem predecessorRead (_q _n : Nat) : Statement (.predecessorRead _q _n) := by intro _ _ h; cases h
theorem gridComplete (_grid : Nat) : Statement (.gridComplete _grid) := by intro _ _ h; cases h
theorem blockPlacement (_grid : Nat) (_at_ : List Place) : Statement (.blockPlacement _grid _at_) := by intro _ _ h; cases h
theorem gateRequest (_quad : Nat) : Statement (.gateRequest _quad) := by intro _ _ h; cases h
theorem quadWake (_quad : Nat) : Statement (.quadWake _quad) := by intro _ _ h; cases h
theorem ktvalWrite (_ctx _w : Nat) (_v : Dword) : Statement (.ktvalWrite _ctx _w _v) := by intro _ _ h; cases h
theorem swout (_ctx : Nat) : Statement (.swout _ctx) := by intro _ _ h; cases h
theorem swoutComplete (_ctx : Nat) : Statement (.swoutComplete _ctx) := by intro _ _ h; cases h
theorem swin (_ctx : Nat) (_at_ : List (List Place)) : Statement (.swin _ctx _at_) := by intro _ _ h; cases h
theorem clamp (_ctx : Nat) : Statement (.clamp _ctx) := by intro _ _ h; cases h
theorem release (_ctx : Nat) : Statement (.release _ctx) := by intro _ _ h; cases h
theorem destroy (_ctx : Nat) : Statement (.destroy _ctx) := by intro _ _ h; cases h
theorem mclmpClamp (_ctx : Nat) (_v : Dword) : Statement (.mclmpClamp _ctx _v) := by intro _ _ h; cases h
theorem mclmpRelease (_ctx : Nat) (_v : Dword) : Statement (.mclmpRelease _ctx _v) := by intro _ _ h; cases h
theorem todev (_host : Bool) : Statement (.todev _host) := by intro _ _ h; cases h
theorem tohost (_host : Bool) : Statement (.tohost _host) := by intro _ _ h; cases h
theorem handoverDone : Statement (.handoverDone) := by intro _ _ h; cases h
theorem registerWrite (_host : Bool) (_off : Nat) (_v : Dword) : Statement (.registerWrite _host _off _v) := by intro _ _ h; cases h
theorem steprecWrite (_ctx : Nat) (_v : Dword) : Statement (.steprecWrite _ctx _v) := by intro _ _ h; cases h
theorem regionEnable (_ctx _r : Nat) (_v : Dword) : Statement (.regionEnable _ctx _r _v) := by intro _ _ h; cases h
theorem enableSweepEnd (_ctx _r : Nat) : Statement (.enableSweepEnd _ctx _r) := by intro _ _ h; cases h
theorem scrub (_die : Nat) (_v : Dword) : Statement (.scrub _die _v) := by intro _ _ h; cases h
theorem powerFailure : Statement (.powerFailure) := by intro _ _ h; cases h
theorem bellowsInterval (_now : Sensors) (_cur : Tbl Nat) : Statement (.bellowsInterval _now _cur) := by intro _ _ h; cases h
theorem currentLimit (_dom : Nat) : Statement (.currentLimit _dom) := by intro _ _ h; cases h
theorem thermalTrip (_tmax : Nat) : Statement (.thermalTrip _tmax) := by intro _ _ h; cases h
theorem bringUp (_b : BringUp) : Statement (.bringUp _b) := by intro _ _ h; cases h
theorem attestationRequest (_nonce : BitVec 256) : Statement (.attestationRequest _nonce) := by intro _ _ h; cases h
theorem nullFlit (_port : Nat) (_f : Flit) : Statement (.nullFlit _port _f) := by intro _ _ h; cases h
theorem rdFlit (_port : Nat) (_f : Flit) : Statement (.rdFlit _port _f) := by intro _ _ h; cases h
theorem rddFlit (_port : Nat) (_f : Flit) : Statement (.rddFlit _port _f) := by intro _ _ h; cases h
theorem wrFlit (_port : Nat) (_f : Flit) : Statement (.wrFlit _port _f) := by intro _ _ h; cases h
theorem wackFlit (_port : Nat) (_f : Flit) : Statement (.wackFlit _port _f) := by intro _ _ h; cases h
theorem atFlit (_port : Nat) (_f : Flit) : Statement (.atFlit _port _f) := by intro _ _ h; cases h
theorem atdFlit (_port : Nat) (_f : Flit) : Statement (.atdFlit _port _f) := by intro _ _ h; cases h
theorem rdoFlit (_port : Nat) (_f : Flit) : Statement (.rdoFlit _port _f) := by intro _ _ h; cases h
theorem frznFlit (_port : Nat) (_f : Flit) : Statement (.frznFlit _port _f) := by intro _ _ h; cases h
theorem fackFlit (_port : Nat) (_f : Flit) : Statement (.fackFlit _port _f) := by intro _ _ h; cases h
theorem coldFlit (_port : Nat) (_f : Flit) : Statement (.coldFlit _port _f) := by intro _ _ h; cases h
theorem barmFlit (_port : Nat) (_f : Flit) : Statement (.barmFlit _port _f) := by intro _ _ h; cases h
theorem strFlit (_port : Nat) (_f : Flit) : Statement (.strFlit _port _f) := by intro _ _ h; cases h
theorem bulkFlit (_port : Nat) (_f : Flit) : Statement (.bulkFlit _port _f) := by intro _ _ h; cases h
theorem badFlit (_port : Nat) (_f : Flit) : Statement (.badFlit _port _f) := by intro _ _ h; cases h
theorem flitCrcFailure (_port : Nat) : Statement (.flitCrcFailure _port) := by intro _ _ h; cases h
theorem fabfailWrite (_w : Nat) (_v : Dword) : Statement (.fabfailWrite _w _v) := by intro _ _ h; cases h
theorem egctlEnable (_v : Dword) : Statement (.egctlEnable _v) := by intro _ _ h; cases h
theorem egrbldGo (_v : Dword) : Statement (.egrbldGo _v) := by intro _ _ h; cases h
theorem rebuildStripe : Statement (.rebuildStripe) := by intro _ _ h; cases h
theorem collectiveComplete (_job _key _seq : Nat) : Statement (.collectiveComplete _job _key _seq) := by intro _ _ h; cases h
theorem sigaddApplied (_id : Nat) : Statement (.sigaddApplied _id) := by intro _ _ h; cases h
theorem sigwaitRetest (_gid _slot : Nat) : Statement (.sigwaitRetest _gid _slot) := by intro _ _ h; cases h
theorem hostWrite (_ctx _pa : Nat) (_data : List Byte) : Statement (.hostWrite _ctx _pa _data) := by intro _ _ h; cases h
theorem dieTlbinvCommand (_die _ctx _kind _reach : Nat) (_va : Dword) : Statement (.dieTlbinvCommand _die _ctx _kind _reach _va) := by intro _ _ h; cases h
theorem clockStop (_core : Nat) : Statement (.clockStop _core) := by intro _ _ h; cases h
theorem throttling (_tmax : Nat) : Statement (.throttling _tmax) := by intro _ _ h; cases h
theorem flitReplay (_port : Nat) : Statement (.flitReplay _port) := by intro _ _ h; cases h
theorem nearBufferEviction (_die _line : Nat) : Statement (.nearBufferEviction _die _line) := by intro _ _ h; cases h
theorem softError (_e : SoftError) : Statement (.softError _e) := by intro _ _ h; cases h

end Sys2Proof.Laws.RoundTrip
end

