-- ==== Sys2Proof/Tests/Slice0.lean ====
section
/-! SUPPORT. Tests of single steps on small states, the words of the spec's encodings, ill-formed terms that are refused, and for
every statement with hypotheses a state and operands that meet them. Expected values are the spec's own examples or worked from
its rules by hand. -/

set_option Elab.async false
open Sys2Proof Sys2Proof.Machine

namespace Sys2Proof.Tests

/-- Whether an instruction issues with nothing in its way, as an issue of which `p` holds. -/
def readyAt (s : State) (i : Instr) (p : Iss → Bool) : Bool :=
  match i.words with
  | none => false
  | some w =>
    match s.issuer (insOfWords w) with
    | none => false
    | some x => !s.unsettled x && decide (x.ins.check (s.bounds x) = none) && decide (s.badSource x = none) && p x
theorem issuer_ins {s : State} {i : Ins} {x : Iss} (h : s.issuer i = some x) : x.ins = i := by
  unfold State.issuer at h
  split at h
  · cases h
  · dsimp only at h
    split at h
    · cases h
    · cases h; rfl
theorem ready_of {s : State} {i : Instr} {P : Iss → Prop} [DecidablePred P] (h : readyAt s i (fun x => decide (P x)) = true) :
    ∃ x, Ready s i x ∧ P x := by
  unfold readyAt at h
  split at h
  · cases h
  · next w hw =>
    split at h
    · cases h
    · next x hx =>
      simp only [Bool.and_eq_true, Bool.not_eq_true', decide_eq_true_eq] at h
      obtain ⟨⟨⟨h1, h2⟩, h3⟩, h4⟩ := h
      have e := issuer_ins hx
      exact ⟨x, ⟨by rw [hw, e]; rfl, by rw [e]; exact hx, h1, h2, h3⟩, h4⟩

/-- The fields of a W64 word without a guard, S and E. -/
def op (d a b c m12 : Nat) : W64F :=
  { m12 := BitVec.ofNat 12 m12, c := BitVec.ofNat 9 c, b := BitVec.ofNat 9 b, a := BitVec.ofNat 9 a, d := BitVec.ofNat 9 d,
    gn := 0, g := 7, st := 0, e := 0 }
/-- The same under a false guard: p0 is 0 in every lane of `lab`. -/
def off (f : W64F) : W64F := { f with g := 0 }
/-- The fields of a W64I word without a guard, S and E. -/
def im (d mod7 imm : Nat) : W64IF :=
  { imm := BitVec.ofNat 32 imm, mod7 := BitVec.ofNat 7 mod7, d := BitVec.ofNat 9 d, gn := 0, g := 7, st := 0, e := 0 }
/-- A mapped name with one word for each lane. -/
def nm (phys : Nat) (v : Nat → Nat) : NameEnt :=
  { phys := phys, live := BitVec.allOnes 32, val := (List.range 32).map fun l => BitVec.ofNat 32 (v l) }
/-- One group of one block of context 0 runs in core 0, partition 0, all lanes bound at address 0, with virtual pages that map to
the physical addresses of the same number: v0 holds the lane, v1 to v3 hold 0, 256 times the lane and 2.0, v4 and v5 a pair of 256 times the lane; g0 holds 0x100. -/
def lab : State :=
  let s := State.reset.withFetchWord 16 0
  { s with
    ctxs := [(0, { valid := true, asid := 1 })]
    groups := [(0, { s.group 0 with
      names := [(0, nm 0 id), (1, nm 1 fun _ => 0), (2, nm 2 fun l => 256 * l), (3, nm 3 fun _ => 0x40000000), (4, nm 4 fun l => 256 * l), (5, nm 5 fun _ => 0)]
      g := 0x100 :: List.replicate 159 0, sys := { tvec := 0x2000 } })]
    blocks := [(0, { s.block 0 with spad := 16384 })]
    power := { svn := 0 }
    cores := [(0, { s.core 0 with utlb := [{ asid := 1, va := 0, bits := 30, pa := 0, x := true, w := true, rd := true }] })] }
/-- `lab` with its group changed. -/
def labG (f : Group → Group) : State := { lab with groups := [(0, f (lab.group 0))] }
/-- `lab` with its split in a trap handler. -/
def labH : State := labG fun g => { g with slots := { g.slot 0 with mode := .handler, active := BitVec.allOnes 32 } :: g.slots.drop 1 }

/-! Words written out in the spec, as stored: each decodes to the instruction it stands for (R71, R94, R115, R150, R170, R174, R177, R182, R187,
R191, R197, R211, R216, R233, R251, R283, R286, R304, R319, R323, R341, R370, R371, R397, R401, R403). -/

theorem test_decode_brd : decode [0x07#8, 0x78#8, 0x00#8, 0x06#8, 0x20#8, 0x80#8, 0x00#8, 0x00#8] =
    .ok (.brd { m12 := 0, c := 0x10, b := 8, a := 3, d := 0, gn := 0, g := 7, st := 0, e := 1 }, 8) := by decide +kernel
theorem test_decode_icmp : decode [0xF3#8, 0x71#8, 0x03#8, 0x0C#8, 0x08#8, 0x12#8, 0x20#8, 0x00#8] =
    .ok (.icmp { m12 := 2, c := 2, b := 130, a := 6, d := 3, gn := 0, g := 7, st := 0, e := 0 }, 8) := by decide +kernel
theorem test_decode_ld : decode [0x0B#8, 0x79#8, 0x0A#8, 0x04#8, 0x18#8, 0x02#8, 0x40#8, 0x05#8] =
    .ok (.ld { m12 := 0x054, c := 0, b := 134, a := 2, d := 10, gn := 0, g := 7, st := 1, e := 0 }, 8) := by decide +kernel
theorem test_decode_plvl : decode [0x23#8, 0x7C#8, 0x00#8, 0x00#8, 0x00#8, 0x00#8, 0x10#8, 0x80#8] = .ok (.plvl (op 0 0 0 0 0x801), 8) := by decide +kernel
theorem test_decode_waitW32 : decode [0x55#8, 0x0B#8, 0x00#8, 0x00#8] =
    .ok (.waitW32 { k := 0, b := 0, a := 0, d := 2, st := 0, e := 1 }, 4) := by decide +kernel
theorem test_decode_vfreeW32 : decode [0x81#8, 0x02#8, 0x12#8, 0x00#8] =
    .ok (.vfreeW32 { k := 0, b := 0, a := 9, d := 0, st := 0, e := 0 }, 4) := by decide +kernel
theorem test_decode_sleeptProm : decode (bytesOf 8 0x2000000000007C17) = .ok (.sleeptProm { op 0 0 0 0 0x200 with e := 1 }, 8) := by decide +kernel
theorem test_decode_regclm : decode [0x33#8, 0x7C#8, 0x00#8, 0x00#8, 0x00#8, 0x00#8, 0xC0#8, 0x01#8] = .ok (.regclm (op 0 0 0 0 28), 8) := by decide +kernel
theorem test_decode_gcmp : decode [0x93#8, 0x7B#8, 0x09#8, 0x08#8, 0x15#8, 0x12#8, 0x00#8, 0x00#8] = .ok (.gcmp (op 9 132 133 2 0), 8) := by decide +kernel
theorem test_decode_mld : decode [0x03#8, 0x7D#8, 0x03#8, 0x10#8, 0x25#8, 0x52#8, 0x04#8, 0x00#8] = .ok (.mld (op 3 136 137 138 0), 8) := by decide +kernel
theorem test_decode_bar : decode [0x57#8, 0x7C#8, 0x00#8, 0x00#8, 0x00#8, 0x00#8, 0x20#8, 0x60#8] = .ok (.bar { op 0 0 0 0 0x602 with e := 1 }, 8) := by decide +kernel
theorem test_decode_stfe : decode [0x57#8, 0x79#8, 0x00#8, 0x02#8, 0x80#8, 0x3C#8, 0x00#8, 0x40#8] = .ok (.stfe { op 0 1 288 7 0x400 with e := 1 }, 8) := by decide +kernel
theorem test_decode_mma : decode [0x67#8, 0x1D#8, 0x02#8, 0x08#8, 0x14#8, 0x00#8, 0x40#8, 0x24#8] =
    .ok (.mma { op 2 4 5 0 0x244 with g := 1, e := 1 }, 8) := by decide +kernel
theorem test_decode_mcnt : decode [0x87#8, 0x7D#8, 0x01#8, 0x08#8, 0x14#8, 0x00#8, 0x00#8, 0x4C#8] = .ok (.mcnt { op 1 4 5 0 0x4C0 with e := 1 }, 8) := by decide +kernel
theorem test_decode_fence : decode [0xB7#8, 0x79#8, 0x00#8, 0x00#8, 0x00#8, 0x00#8, 0xF0#8, 0x42#8] = .ok (.fence { op 0 0 0 0 0x42F with e := 1 }, 8) := by decide +kernel
theorem test_decode_redo : decode [0xA7#8, 0x79#8, 0x00#8, 0x04#8, 0x14#8, 0x40#8, 0xE0#8, 0x08#8] = .ok (.redo { op 0 2 5 8 0x08E with e := 1 }, 8) := by decide +kernel
theorem test_decode_bcpy : decode [0x07#8, 0x7E#8, 0x84#8, 0x10#8, 0x01#8, 0x00#8, 0x00#8, 0x50#8] = .ok (.bcpy { op 132 136 0 0 0x500 with e := 1 }, 8) := by decide +kernel
theorem test_decode_frz : decode [0x27#8, 0x7E#8, 0x00#8, 0x08#8, 0x19#8, 0x02#8, 0x00#8, 0x00#8] = .ok (.frz { op 0 132 134 0 0 with e := 1 }, 8) := by decide +kernel
theorem test_decode_frzq : decode [0x43#8, 0x7E#8, 0x8A#8, 0x08#8, 0x01#8, 0x00#8, 0x00#8, 0x00#8] = .ok (.frzq (op 138 132 0 0 0), 8) := by decide +kernel
theorem test_decode_lnch : decode [0x97#8, 0x7C#8, 0x00#8, 0x10#8, 0x29#8, 0x02#8, 0x00#8, 0x00#8] = .ok (.lnch { op 0 136 138 0 0 with e := 1 }, 8) := by decide +kernel
theorem test_decode_stepab : decode [0x97#8, 0x7E#8, 0x00#8, 0x04#8, 0x01#8, 0x00#8, 0x00#8, 0x00#8] = .ok (.stepab { op 0 130 0 0 0 with e := 1 }, 8) := by decide +kernel
theorem test_decode_stepcm : decode [0x87#8, 0x7E#8, 0x00#8, 0x04#8, 0x01#8, 0x00#8, 0x00#8, 0x00#8] = .ok (.stepcm { op 0 130 0 0 0 with e := 1 }, 8) := by decide +kernel
theorem test_decode_coll : decode [0xB7#8, 0x7E#8, 0x00#8, 0x10#8, 0x01#8, 0x00#8, 0x00#8, 0x00#8] = .ok (.coll { op 0 136 0 0 0 with e := 1 }, 8) := by decide +kernel
theorem test_decode_sigadd : decode [0xC3#8, 0x7E#8, 0x00#8, 0x08#8, 0x19#8, 0x02#8, 0x00#8, 0x00#8] = .ok (.sigadd (op 0 132 134 0 0), 8) := by decide +kernel
theorem test_decode_barPod : decode [0x57#8, 0x7C#8, 0x00#8, 0x0E#8, 0x01#8, 0x00#8, 0x30#8, 0xA0#8] = .ok (.bar { op 0 135 0 0 0xA03 with e := 1 }, 8) := by decide +kernel
/-- A length that the bytes do not have, and a reserved op8 (R45, R69). -/
theorem test_decode_refuses : decode [] = .error .truncated ∧ decode [0x23#8, 0x72#8, 0, 0, 0, 0, 0] = .error .truncated ∧
    decode [0x23#8, 0x72#8, 0, 0, 0, 0, 0, 0] = .error (.reservedOp8 0x22) ∧ decode [0x73#8, 0x7F#8, 0, 0, 0, 0, 0, 0] = .error (.reservedOp8 0xF7) := by decide +kernel

/-! Ill-formed terms, which the check refuses: a term with the mode code of another row, and events. -/

theorem test_illFormed_sleept : (Instr.sleept (op 0 0 0 0 0x200)).wellFormed = false := by decide
theorem test_illFormed_sleeptProm : (Instr.sleeptProm (op 0 0 0 0 0x400)).wellFormed = false := by decide
theorem test_illFormed_mmrg : (Instr.mmrg (op 0 1 0 0 1)).wellFormed = false := by decide
theorem test_illFormed_mmrgPeer : (Instr.mmrgPeer (op 0 0 128 0 2)).wellFormed = false := by decide
theorem test_illFormed_sctadv : (Instr.sctadv (op 0 0 0 0 1)).wellFormed = false ∧ (Instr.sctadv (op 0 0 0 0 2)).wellFormed = false := by decide
theorem test_illFormed_sctadvAmax : (Instr.sctadvAmax (op 0 0 0 0 0)).wellFormed = false := by decide
theorem test_illFormed_sctadvOff : (Instr.sctadvOff (op 0 0 0 0 3)).wellFormed = false := by decide
theorem test_illFormed_event : (Instr.powerFailure).wellFormed = false ∧ encode .powerFailure = none := by decide

/-! Witnesses: the register-writing instructions. -/

theorem witness_LaneOperationsWriteTheirResults : ∃ x, Ready lab (.iadd (op 6 0 2 0 0)) x ∧
    (laneRule x.ins.op).isSome = true ∧ lab.overCap x x.ins.dsts = false := ready_of (by decide +kernel)
theorem witness_UniformOperationsWriteTheirResults : ∃ x, Ready lab (.gadd (op 130 128 129 0 0)) x ∧
    (uniformRule x.ins.op).isSome = true := ready_of (by decide +kernel)
theorem witness_CarryOperationsWriteSumAndCarry :
    (∃ x, Ready lab (.iaddc (op 6 0 2 1 0)) x ∧ lab.overCap x x.ins.dsts = false) ∧
    ∃ x, Ready lab (.isubb (op 6 0 2 1 0)) x ∧ lab.overCap x x.ins.dsts = false := ⟨ready_of (by decide +kernel), ready_of (by decide +kernel)⟩
theorem witness_ComparesWriteTheirPredicate :
    (∃ x, Ready lab (.icmp (op 3 0 2 2 2)) x ∧ True) ∧ (∃ x, Ready lab (.fcmp (op 3 3 3 7 0x600)) x ∧ True) ∧
    ∃ x, Ready lab (.dcmp (op 3 2 4 0 0x900)) x ∧ True := ⟨ready_of (by decide +kernel), ready_of (by decide +kernel), ready_of (by decide +kernel)⟩
theorem witness_ImmediateFormsWriteTheirResults :
    (∃ x, Ready lab (.movi (im 6 0 5)) x ∧ lab.overCap x x.ins.dsts = false) ∧
    (∃ x, Ready lab (.iaddi (im 0 1 5)) x ∧ lab.overCap x x.ins.dsts = false) ∧
    (∃ x, Ready lab (.andi (im 0 0 5)) x ∧ lab.overCap x x.ins.dsts = false) ∧
    (∃ x, Ready lab (.icmpi (im 0 0x4E 5)) x ∧ True) ∧ (∃ x, Ready lab (.gmovi (im 287 0 5)) x ∧ True) ∧
    (∃ x, Ready lab (.gaddi (im 128 0 5)) x ∧ True) ∧ (∃ x, Ready lab (.gcmpi (im 128 0x4B 5)) x ∧ True) ∧
    ∃ x, Ready lab (.gcmp (op 11 128 129 2 2)) x ∧ True :=
  ⟨ready_of (by decide +kernel), ready_of (by decide +kernel), ready_of (by decide +kernel), ready_of (by decide +kernel),
   ready_of (by decide +kernel), ready_of (by decide +kernel), ready_of (by decide +kernel), ready_of (by decide +kernel)⟩
theorem witness_MovesWriteTheirResults :
    (∃ x, Ready lab (.mov (op 3 3 0 0 0)) x ∧ x.ins.op = 0x69 ∧ x.ins.selfMove = true) ∧
    (∃ x, Ready lab (.mov (op 6 3 0 0 0)) x ∧ x.ins.op = 0x69 ∧ x.ins.selfMove = false ∧ lab.overCap x x.ins.dsts = false) ∧
    (∃ x, Ready lab (.readl (op 130 0 288 0 0)) x ∧ x.ins.op = 0x6B) ∧
    (∃ x, Ready lab (.pset (op 7 1 11 0 3)) x ∧ x.ins.op = 0x65) ∧
    (∃ x, Ready lab (.pmov (op 6 0 0 0 0)) x ∧ x.ins.op = 0x66 ∧ x.ins.opx = 0 ∧ lab.overCap x x.ins.dsts = false) ∧
    ∃ x, Ready lab (.pmov (op 0 2 0 0 1)) x ∧ x.ins.op = 0x66 ∧ x.ins.opx = 1 :=
  ⟨ready_of (by decide +kernel), ready_of (by decide +kernel), ready_of (by decide +kernel), ready_of (by decide +kernel),
   ready_of (by decide +kernel), ready_of (by decide +kernel)⟩
theorem witness_VfreeFreesItsName : ∃ x, Ready lab (.vfree (op 0 3 0 0 0)) x ∧ x.ins.op = 0x6C := ready_of (by decide +kernel)
/-- Format slots: 1 to 3 hold FP16, E5M2 and INT8. -/
def labF : State := { lab with blocks := [(0, { lab.block 0 with fmts := [0, 1, 4, 6, 7, 3, 0x24, 0x21] })] }
theorem witness_SlotConversionsWriteTheirResults :
    (∃ x, Ready labF (.cvtn (op 0 3 3 2 0x601)) x ∧ labF.overCap x x.ins.dsts = false ∧ slotOk (labF.fmtSlot x.gid x.ins.c) = true ∧
      slotFmt (labF.fmtSlot x.gid x.ins.c) ≠ 0 ∧ slotScale (labF.fmtSlot x.gid x.ins.c) = 0 ∧
      (2 * x.ins.opx + 2) * (slotFormat (labF.fmtSlot x.gid x.ins.c)).width ≤ 32) ∧
    (∃ x, Ready labF (.cvtw (op 6 3 1 1 0x600)) x ∧ labF.overCap x x.ins.dsts = false ∧ slotOk (labF.fmtSlot x.gid x.ins.c) = true ∧
      slotFmt (labF.fmtSlot x.gid x.ins.c) ≠ 0 ∧ slotScale (labF.fmtSlot x.gid x.ins.c) = 0 ∧
      (x.ins.b + 1) * (slotFormat (labF.fmtSlot x.gid x.ins.c)).width ≤ 32) ∧
    ∃ x, Ready labF (.sprs (op 6 3 0 2 0)) x ∧ slotOk (labF.fmtSlot x.gid x.ins.c) = true ∧ slotFmt (labF.fmtSlot x.gid x.ins.c) ∉ [0, 6, 7] ∧
      slotScale (labF.fmtSlot x.gid x.ins.c) = 0 ∧ ((slotFormat (labF.fmtSlot x.gid x.ins.c)).width ≠ 16 → x.ins.b = 0) ∧
      labF.overCap x [6, 7] = false := ⟨ready_of (by decide +kernel), ready_of (by decide +kernel), ready_of (by decide +kernel)⟩
theorem witness_CrossLaneOperationsWriteTheirResults :
    (∃ x, Ready lab (.shfl (op 6 0 1 3 0)) x ∧ x.ins.op = 0x70 ∧ lab.overCap x x.ins.dsts = false) ∧
    (∃ x, Ready lab (.vred (op 6 0 0 0 0)) x ∧ x.ins.op = 0x71 ∧ lab.overCap x x.ins.dsts = false) ∧
    (∃ x, Ready lab (.vscan (op 6 0 0 0 0)) x ∧ x.ins.op = 0x72 ∧ lab.overCap x x.ins.dsts = false) ∧
    (∃ x, Ready lab (.vote (op 7 0 0 0 3)) x ∧ x.ins.op = 0x73 ∧ lab.overCap x x.ins.dsts = false) ∧
    (∃ x, Ready lab (.ballot (op 6 7 0 0 3)) x ∧ x.ins.op = 0x74 ∧ lab.overCap x x.ins.dsts = false) ∧
    ∃ x, Ready lab (.matchLanes (op 6 0 0 0 0)) x ∧ x.ins.op = 0x75 ∧ lab.overCap x x.ins.dsts = false :=
  ⟨ready_of (by decide +kernel), ready_of (by decide +kernel), ready_of (by decide +kernel), ready_of (by decide +kernel),
   ready_of (by decide +kernel), ready_of (by decide +kernel)⟩
theorem witness_SregReadsItsRegister :
    (∃ x, Ready lab (.sreg (op 6 22 0 0 0)) x ∧ lab.overCap x x.ins.dsts = false) ∧
    (∃ x, Ready lab (.sreg (op 6 17 0 0 0xA00)) x ∧ lab.overCap x x.ins.dsts = false) ∧
    ∃ x, Ready lab (.sreg (op 6 20 0 0 1)) x ∧ lab.overCap x x.ins.dsts = false :=
  ⟨ready_of (by decide +kernel), ready_of (by decide +kernel), ready_of (by decide +kernel)⟩
/-! Witnesses: the control group. -/

/-- `lab` with the indirect targets of a JMPI or a CALLI at address 0. -/
def labI (call : Bool) : State := { lab with blocks := [(0, { lab.block 0 with itt := [{ site := 0, call := call, targets := [0x100] }] })] }
theorem witness_BranchesSendTheirLanes :
    (∃ x, Ready lab (.brd (op 0 1 0 0 0)) x ∧ x.ins.op = 0x80 ∧ x.ins.jdist = 0) ∧
    (∃ x, Ready lab (.brany (op 0 1 0 0 0)) x ∧ x.ins.op = 0x81) ∧ (∃ x, Ready lab (.brall (op 0 1 0 0 0)) x ∧ x.ins.op = 0x82) ∧
    (∃ x, Ready lab (.brnone (op 0 1 0 0 0)) x ∧ x.ins.op = 0x83) ∧ (∃ x, Ready lab (.jmp (op 0 0 0 0 0)) x ∧ x.ins.op = 0x84) ∧
    (∃ x, Ready (labI false) (.jmpi (op 0 128 0 0 0)) x ∧ x.ins.op = 0x85 ∧ (labI false).outside x false = 0) ∧
    (∃ x, Ready lab (.loopg (off (op 128 0 0 0 0))) x ∧ x.ins.op = 0x8B ∧ x.exec = 0) ∧
    ∃ x, Ready lab (.loopg (op 128 0 0 0 0)) x ∧ x.ins.op = 0x8B ∧ x.exec ≠ 0 :=
  ⟨ready_of (by decide +kernel), ready_of (by decide +kernel), ready_of (by decide +kernel), ready_of (by decide +kernel),
   ready_of (by decide +kernel), ready_of (by decide +kernel), ready_of (by decide +kernel), ready_of (by decide +kernel)⟩
/-- `lab` with p1 set in the even lanes. -/
def labP : State := labG fun g => { g with p := [0, 0x55555555, 0, 0, 0, 0, 0] }
theorem witness_DividedLanesFormAJoin : (∃ x, Ready labP (.brd (op 0 1 255 0 0)) x ∧ x.ins.jdist ≠ 0) ∧
    ((let g := (lab.group 0).modLanes 1 fun _ y => { y with lpc := 64 }
      ∃ k l, k < 32 ∧ l < 32 ∧ (BitVec.allOnes 32 &&& g.liveLanes).getLsbD k = true ∧ (BitVec.allOnes 32 &&& g.liveLanes).getLsbD l = true ∧
        (g.lane k).lpc ≠ (g.lane l).lpc) ∧ (lab.group 0).joins.length < 8) ∧
    (let joins (b : Nat) : List Join := (List.range 8).map fun k => { id := k, jpc := 0, jset := 1 <<< (k + b), since := none, made := k };
     let kept (b : Nat) : List Join := ((joins b).map fun j => { j with jset := j.jset &&& ~~~(3 : Mask) }).filter fun j => j.jset != 0;
      (joins 0).length = 8 ∧ (kept 0).length < 8 ∧ (kept 2).length = 8 ∧ ((kept 2).map (·.id)).Nodup) :=
  ⟨ready_of (by decide +kernel), ⟨⟨0, 1, by decide +kernel⟩, by decide +kernel⟩, by decide +kernel⟩
theorem witness_CallsPushTheirReturn :
    (∃ x, Ready lab (.call (op 0 0 0 0 0)) x ∧ ∀ l, l < 32 → x.exec.getLsbD l = true → ((lab.group x.gid).lane l).rdep < 8) ∧
    ∃ x, Ready (labI true) (.calli (op 0 128 0 0 0)) x ∧ (labI true).outside x true = 0 ∧
      ∀ l, l < 32 → x.exec.getLsbD l = true → (((labI true).group x.gid).lane l).rdep < 8 := ⟨ready_of (by decide +kernel), ready_of (by decide +kernel)⟩
theorem witness_ReturnsAndExitsEndTheirLanes :
    (∃ x, Ready lab (.ret (op 0 0 0 0 0)) x ∧ x.handler = false ∧ x.ins.op = 0x88) ∧
    (∃ x, Ready lab (.retW32 { k := 0, b := 0, a := 0, d := 0, st := 0, e := 0 }) x ∧ x.handler = false ∧ x.ins.op = 0x88) ∧
    (∃ x, Ready lab (.exitW32 { k := 0, b := 0, a := 0, d := 0, st := 0, e := 0 }) x ∧ x.handler = false ∧ x.ins.op = 0x89) ∧
    (∃ x, Ready labH (.exit (op 0 0 0 0 0)) x ∧ x.handler = true ∧ x.ins.op = 0x89) ∧
    ∃ x, Ready lab (.exit (op 0 0 0 0 0)) x ∧ x.handler = false ∧ x.ins.op = 0x89 :=
  ⟨ready_of (by decide +kernel), ready_of (by decide +kernel), ready_of (by decide +kernel), ready_of (by decide +kernel), ready_of (by decide +kernel)⟩
theorem witness_NopAndYieldOnlyGoOn :
    (∃ x, Ready lab (.nop (op 0 0 0 0 0)) x ∧ x.ins.op = 0x8C) ∧
    ∃ x, Ready lab (.yield (op 0 0 0 0 0)) x ∧ x.ins.op = 0x8A := ⟨ready_of (by decide +kernel), ready_of (by decide +kernel)⟩
/-! Witnesses: memory instructions. -/

theorem witness_LoadsAndStoresStartTheirAccesses :
    (∃ x, Ready lab (.ld (op 6 4 288 0 0x400)) x ∧ x.misaligned false (wdBytes x.ins.wd) (x.addrs ((lab.regs x).gaddr x)) = none ∧
      lab.loadCount x < 32 ∧ lab.overCap x x.ins.dsts = false ∧ (lab.lanesAt x .read (x.addrs ((lab.regs x).gaddr x))).2 = [] ∧ x.exec ≠ 0) ∧
    (∃ x, Ready lab (.ld (off (op 6 4 288 0 0x400))) x ∧ x.misaligned false (wdBytes x.ins.wd) (x.addrs ((lab.regs x).gaddr x)) = none ∧
      lab.loadCount x < 32 ∧ lab.overCap x x.ins.dsts = false ∧ x.exec = 0) ∧
    ∃ x, Ready lab (.st (op 0 4 288 2 0x400)) x ∧ x.misaligned false (wdBytes x.ins.wd) (x.addrs ((lab.regs x).gaddr x)) = none ∧
      (lab.lanesAt x .write (x.addrs ((lab.regs x).gaddr x))).2 = [] := ⟨ready_of (by decide +kernel), ready_of (by decide +kernel), ready_of (by decide +kernel)⟩
theorem witness_UniformLoadsAndStoresStartOneAccess :
    (∃ x, Ready lab (.gld (op 130 128 288 0 0x400)) x ∧ x.exec ≠ 0 ∧ (lab.regs x).gaddr x 0 % wdBytes x.ins.wd = 0 ∧
      lab.laneAccess x.core 0 0 .read ((lab.regs x).gaddr x 0) = .ok 0x100 ∧ lab.loadCount x < 32) ∧
    (∃ x, Ready lab (.gst (op 0 128 288 129 0x400)) x ∧ x.exec ≠ 0 ∧ (lab.regs x).gaddr x 0 % wdBytes x.ins.wd = 0 ∧
      lab.laneAccess x.core 0 0 .write ((lab.regs x).gaddr x 0) = .ok 0x100) ∧
    (∃ x, Ready lab (.gld (off (op 130 128 288 0 0x400))) x ∧ x.exec = 0) ∧ ∃ x, Ready lab (.gst (off (op 0 128 288 129 0x400))) x ∧ x.exec = 0 :=
  ⟨ready_of (by decide +kernel), ready_of (by decide +kernel), ready_of (by decide +kernel), ready_of (by decide +kernel)⟩
theorem witness_AtomicsStartOneAccessPerLocation :
    (∃ x, Ready lab (.atom (op 6 4 288 2 0x004)) x ∧ x.misaligned false (atyBytes x.ins.aty) (x.addrs ((lab.regs x).gaddr x)) = none ∧
      (lab.lanesAt x .atomic (x.addrs ((lab.regs x).gaddr x))).2 = [] ∧ x.exec ≠ 0 ∧ lab.loadCount x < 32 ∧ lab.overCap x x.ins.dsts = false ∧
      x.ins.d ≠ 288) ∧
    (∃ x, Ready lab (.atom (op 288 4 288 2 0x004)) x ∧ x.misaligned false (atyBytes x.ins.aty) (x.addrs ((lab.regs x).gaddr x)) = none ∧
      (lab.lanesAt x .quiet (x.addrs ((lab.regs x).gaddr x))).2 = [] ∧ x.exec ≠ 0 ∧ lab.overCap x x.ins.dsts = false ∧ x.ins.d = 288) ∧
    ∃ x, Ready lab (.red (op 0 4 288 2 0x004)) x ∧ x.misaligned false (atyBytes x.ins.aty) (x.addrs ((lab.regs x).gaddr x)) = none ∧
      (lab.lanesAt x .atomic (x.addrs ((lab.regs x).gaddr x))).2 = [] ∧ x.exec ≠ 0 :=
  ⟨ready_of (by decide +kernel), ready_of (by decide +kernel), ready_of (by decide +kernel)⟩
theorem witness_PrefetchAndDropComplete : (∃ x, Ready lab (.pref (op 0 4 288 0 0x400)) x ∧ True) ∧
    (∃ x, Ready lab (.pref (op 0 4 288 0 0x440)) x ∧ x.ins.pl = 1) ∧ ∃ x, Ready lab (.drop (op 0 4 288 0 0x400)) x ∧ True :=
  ⟨ready_of (by decide +kernel), ready_of (by decide +kernel), ready_of (by decide +kernel)⟩
theorem witness_FenceCompletesWhenOrdered :
    (∃ x, Ready lab (.fence (off (op 0 0 0 0 0x42F))) x ∧ x.exec = 0) ∧
    ∃ x, Ready lab (.fence (op 0 0 0 0 0x433)) x ∧ lab.releaseDone x x.ins.sco = (true, lab) ∧ lab.readsUnder x.gid x.exec = false :=
  ⟨ready_of (by decide +kernel), ready_of (by decide +kernel)⟩
theorem witness_OrderedReductionContributes : ∃ x, Ready lab (.redo (op 0 4 288 2 0x004)) x ∧ ((lab.group x.gid).slot x.slot).redo = [] ∧
    x.misaligned false (atyBytes x.ins.aty) (x.addrs fun l => (lab.regs x).xs x.ins.a 2 l) = none ∧
    (∀ a ∈ x.addrs fun l => (lab.regs x).xs x.ins.a 2 l,
      ((lab.regs x).x x.ins.b a.1).toNat % 4096 ≤ ((lab.regs x).x x.ins.b a.1).toNat / 4096 % 4096) ∧
    (lab.lanesAt x .atomic (x.addrs fun l => (lab.regs x).xs x.ins.a 2 l)).2 = [] ∧ x.exec ≠ 0 := ready_of (by decide +kernel)
theorem witness_ScratchpadAccessesArePerformedOrUnderWay :
    (∃ x, Ready lab (.lds (op 6 2 288 0 0x400)) x ∧ lab.loadCount x < 32 ∧ lab.overCap x x.ins.dsts = false ∧
      x.misaligned false (wdBytes x.ins.wd) (x.addrs ((lab.regs x).saddr x)) = none ∧
      x.outOfExtent (lab.blockOf x) (wdBytes x.ins.wd) (x.addrs ((lab.regs x).saddr x)) = none ∧ x.exec ≠ 0) ∧
    (∃ x, Ready lab (.sts (op 0 2 288 1 0x400)) x ∧ x.misaligned false (wdBytes x.ins.wd) (x.addrs ((lab.regs x).saddr x)) = none ∧
      x.outOfExtent (lab.blockOf x) (wdBytes x.ins.wd) (x.addrs ((lab.regs x).saddr x)) = none) ∧
    (∃ x, Ready lab (.atoms (op 288 2 288 1 0x004)) x ∧ x.ins.d = 288 ∧ lab.overCap x x.ins.dsts = false ∧
      (∀ a ∈ x.addrs ((lab.regs x).saddr x), (lab.blockOf x).badAt a.2 (atyBytes x.ins.aty) = false) ∧ (lab.blockOf x).coreOf 0 = x.core ∧
      (lab.releaseFor x).1 = [] ∧ lab.spadDeps x.gid 1 0 = [] ∧
      x.misaligned false (atyBytes x.ins.aty) (x.addrs ((lab.regs x).saddr x)) = none ∧
      x.outOfExtent (lab.blockOf x) (atyBytes x.ins.aty) (x.addrs ((lab.regs x).saddr x)) = none) ∧
    ∃ x, Ready lab (.atoms (op 6 2 288 1 0x004)) x ∧ x.ins.d ≠ 288 ∧ lab.loadCount x < 32 ∧ lab.overCap x x.ins.dsts = false ∧
      x.misaligned false (atyBytes x.ins.aty) (x.addrs ((lab.regs x).saddr x)) = none ∧
      x.outOfExtent (lab.blockOf x) (atyBytes x.ins.aty) (x.addrs ((lab.regs x).saddr x)) = none ∧ x.exec ≠ 0 :=
  ⟨ready_of (by decide +kernel), ready_of (by decide +kernel), ready_of (by decide +kernel), ready_of (by decide +kernel)⟩
/-- `lab` with the words at 0, 256, 512 and so on full, and g1 holding the words from 0x100 to the end of the scratchpad. -/
def labE : State := { labG (fun g => { g with g := [0x100, 4032] ++ g.g.drop 2 }) with
  blocks := [(0, (List.range 32).foldl (fun b l => b.setFull (256 * l) true) (lab.block 0))] }
/-- `lab` with the step of its LDFE or STFE done. -/
def labD : State := labG fun g => { g with slots := { g.slot 0 with fedone := true } :: g.slots.drop 1 }
theorem witness_FullEmptyOperationsComplete :
    ((∃ x, Ready labD (.ldfe (op 6 2 288 0 0x440)) x ∧ labD.feDone x = true) ∧ ∃ x, Ready labD (.stfe (op 0 2 288 1 0x40E)) x ∧ labD.feDone x = true) ∧
    (∃ x, Ready labE (.ldfe (op 6 2 288 0 0x440)) x ∧ labE.feDone x = false ∧ labE.loadCount x < 32 ∧ labE.overCap x x.ins.dsts = false ∧
      x.feCheck (labE.blockOf x) (x.addrs ((labE.regs x).saddr x)) = none ∧ labE.feReady x = true ∧ x.exec ≠ 0) ∧
    (∃ x, Ready lab (.stfe (op 0 2 288 1 0x40E)) x ∧ lab.feDone x = false ∧ x.feCheck (lab.blockOf x) (x.addrs ((lab.regs x).saddr x)) = none ∧
      lab.feReady x = true ∧ x.ins.sem = 2 ∧ lab.releaseDone x x.ins.sco = (true, lab)) ∧
    (∃ x, Ready labE (.feset (op 0 128 288 129 0x440)) x ∧ x.exec ≠ 0 ∧ (labE.regs x).saddr x 0 % 4 = 0 ∧
      (labE.blockOf x).spadOk ((labE.regs x).saddr x 0) 4 = true ∧
      spadOff ((labE.regs x).saddr x 0) + 4 * ((labE.regs x).x x.ins.c 0).toNat ≤ (labE.blockOf x).spad ∧
      labE.feOrdered x [(0, (labE.regs x).saddr x 0)] = true) ∧
    (∃ x, Ready lab (.feset (op 0 128 288 129 0x440)) x ∧ (lab.regs x).saddr x 0 % 4 = 0 ∧ ((lab.regs x).x x.ins.c 0).toNat = 0) ∧
    ∃ x, Ready lab (.feset (off (op 0 128 288 129 0x440))) x ∧ x.exec = 0 :=
  ⟨⟨ready_of (by decide +kernel), ready_of (by decide +kernel)⟩, ready_of (by decide +kernel), ready_of (by decide +kernel), ready_of (by decide +kernel), ready_of (by decide +kernel), ready_of (by decide +kernel)⟩
/-! Witnesses: the core group and traps. -/

theorem witness_WaitsCompleteWhenDue :
    (∃ x, Ready lab (.wait (op 0 0 0 0 0xA00)) x ∧ x.ins.op = 0xC0 ∧ (lab.group x.gid).counter (x.ins.m12 / 512) ≤ x.ins.m12 % 64 ∧
      (lab.group x.gid).toReport (x.ins.m12 / 512) (x.ins.m12 % 64) = none) ∧
    (∃ x, Ready lab (.wait (op 0 0 0 0 0x23F)) x ∧ x.ins.op = 0xC0 ∧ (lab.group x.gid).counter (x.ins.m12 / 512) ≤ x.ins.m12 % 64 ∧
      (lab.group x.gid).toReport (x.ins.m12 / 512) (x.ins.m12 % 64) = none) ∧
    (∃ x, Ready lab (.sleept (op 0 288 0 0 0)) x ∧ x.ins.m12 / 512 = 0 ∧ (lab.regs x).xs x.ins.a 2 0 ≤ (lab.core x.core).time) ∧
    ∃ x, Ready lab (.sleeptProm (op 0 0 0 0 0x200)) x ∧ x.ins.m12 / 512 = 1 ∧ (lab.sleepOp x).bind (lab.group x.gid).bcOp = none :=
  ⟨ready_of (by decide +kernel), ready_of (by decide +kernel), ready_of (by decide +kernel), ready_of (by decide +kernel)⟩
/-- `lab` with a partition-local block, and with a served claim. -/
def labC : State := { labG (fun g => { g with slots := { g.slot 0 with claim := .served } :: g.slots.drop 1 }) with
  blocks := [(0, { lab.block 0 with isLocal := true })] }
theorem witness_LevelsAndCapsChange :
    (∃ x, Ready lab (.plvl (op 0 0 0 0 0x803)) x ∧ True) ∧ (∃ x, Ready lab (.plvl (op 0 128 0 0 0)) x ∧ True) ∧
    (∃ x, Ready labC (.regclm (op 0 0 0 0 128)) x ∧ ((labC.group x.gid).slot x.slot).claim = .served) ∧
    ∃ x, Ready labC (.regrel (op 0 0 0 0 122)) x ∧ (labC.block (labC.group x.gid).blk).isLocal = true ∧
      (labC.group x.gid).footprint + x.ins.m12 ≤ (labC.group x.gid).cap :=
  ⟨ready_of (by decide +kernel), ready_of (by decide +kernel), ready_of (by decide +kernel), ready_of (by decide +kernel)⟩
theorem witness_BarrierHoldsItsLanes :
    (∃ x, Ready lab (.bar (op 0 0 0 0 0x20F)) x ∧ x.ins.m12 / 512 < 4 ∧
      lab.releaseDone { x with exec := x.active } (x.ins.m12 / 512) = (true, lab)) ∧
    (∃ x, Ready lab (.bar (op 0 128 0 0 0x80F)) x ∧ ((lab.regs x).x x.ins.a 0).toNat % 2 ^ 20 ≠ 0 ∧ x.ins.m12 / 512 = 4 ∧
      ((lab.regs x).x x.ins.a 0).toNat / 2 ^ 20 = 0 ∧ lab.releaseDone { x with exec := x.active } (x.ins.m12 / 512) = (true, lab)) ∧
    ∃ x, Ready lab (.bar (op 0 128 0 0 0xA0F)) x ∧ ((lab.regs x).x x.ins.a 0).toNat % 2 ^ 20 ≠ 0 ∧ x.ins.m12 / 512 = 5 ∧
      lab.releaseDone { x with exec := x.active } (x.ins.m12 / 512) = (true, lab) :=
  ⟨ready_of (by decide +kernel), ready_of (by decide +kernel), ready_of (by decide +kernel)⟩
/-- `lab` with g0 as given. -/
def labV (v : Nat) : State := labG fun g => { g with g := BitVec.ofNat 32 v :: g.g.drop 1 }
theorem witness_DequeOperationsComplete :
    (∃ x, Ready lab (.dqpush (op 0 128 0 130 0)) x ∧ lab.releaseDone { x with exec := x.active } 3 = (true, lab)) ∧
    (∃ x, Ready lab (.dqpop (op 130 0 0 132 0)) x ∧ True) ∧
    (∃ x, Ready (labV 512) (.dqsteal (op 130 128 0 132 0)) x ∧ (labV 512).loadCount x < 32 ∧ 511 < (((labV 512).regs x).x x.ins.a 0).toNat) ∧
    (∃ x, Ready (labV 511) (.dqsteal (op 130 128 0 132 0)) x ∧ (labV 511).loadCount x < 32 ∧ dieOf (((labV 511).regs x).x x.ins.a 0).toNat ≠ dieOf x.core) ∧
    (∃ x, Ready (labV 127) (.dqsteal (op 130 128 0 132 0)) x ∧ (labV 127).loadCount x < 32 ∧
      dieOf (((labV 127).regs x).x x.ins.a 0).toNat = dieOf x.core ∧ (((labV 127).regs x).x x.ins.a 0).toNat ≠ x.core) ∧
    ∃ x, Ready (labV 0) (.dqsteal (op 130 128 0 132 0)) x ∧ (labV 0).loadCount x < 32 ∧ (((labV 0).regs x).x x.ins.a 0).toNat = x.core :=
  ⟨ready_of (by decide +kernel), ready_of (by decide +kernel), ready_of (by decide +kernel), ready_of (by decide +kernel), ready_of (by decide +kernel),
   ready_of (by decide +kernel)⟩
/-- `lab` with a sound launch record at 0x100, its kernel, g2 = 63, and device queue 63 of 16 records with one free. -/
def labQ : State :=
  { labG (fun g => { g with g := [0x100, 0, 63] ++ g.g.drop 3 }) with
    ctxs := [(0, { lab.ctx 0 with kernels := [(0, { entry := 0x4000, region := 0, shape := 31, res := 0, vcap := 128, depth := 0, itt := [] })] })]
    mem := [(0x101, 0x40), (0x110, 1), (0x114, 1), (0x118, 1), (0x120, 31), (0x130, 128)]
    lqs := [(63, { base := 0x10000, en := true, src := true, pi := 7, ci := 2 ^ 32 - 8 })] }
theorem witness_LaunchEntersItsRecord : ∃ x, Ready labQ (.lnch (op 0 128 130 0 0)) x ∧ (labQ.regs x).xs x.ins.a 2 0 = 0x100 ∧
    ((labQ.regs x).x x.ins.b 0).toNat = 63 ∧ (labQ.lq 63).en = true ∧ (labQ.lq 63).src = true ∧ (labQ.lq 63).ctx = (labQ.group x.gid).ctx ∧
    labQ.releaseDone { x with exec := x.active } 4 = (true, labQ) ∧ ((labQ.lq 63).pi + 2 ^ 32 - (labQ.lq 63).ci) % 2 ^ 32 < (labQ.lq 63).size ∧
    (match labQ.fetchRecord x 0x100 4 with
      | .bytes pas bs => let s1 := labQ.linesRead (.lane x.gid x.slot) x.core pas
        s1.recordBad (labQ.group x.gid).ctx (dwordsOf bs) == none && s1.wbqRoom (s1.recordPa (labQ.lq 63) (labQ.lq 63).pi)
      | _ => false) = true := ready_of (by decide +kernel)
theorem witness_TrapsEnterTheirHandlerOrClamp :
    (lab.handlerOpen 0 0 ∧ (lab.ctx (lab.group 0).ctx).debug = false) ∧ ((labH.group 0).slot 0).mode = .handler ∧
    ((labG fun g => { g with sys := {} }).group 0).sys.tvec = 0 := by unfold State.handlerOpen; decide +kernel
theorem witness_SoftwareTrapsEnterTheHandler : lab.handlerOpen 0 0 ∧ (lab.ctx (lab.group 0).ctx).debug = false ∧
    (∃ x, Ready lab (.trap (op 0 0 0 0 0xFF)) x ∧ x.gid = 0 ∧ x.slot = 0) ∧ ∃ x, Ready lab (.bkpt (op 0 0 0 0 0)) x ∧ x.gid = 0 ∧ x.slot = 0 :=
  ⟨by unfold State.handlerOpen; decide +kernel, by decide +kernel, ready_of (by decide +kernel), ready_of (by decide +kernel)⟩
theorem witness_ReservedCodesAndFailedChecksTrap :
    (0x22 ≤ (0x22#8).toNat ∧ (0x22#8).toNat ≤ 0x2F) ∧ (lab.part lab.focus.1 0).run.isSome = true ∧
    ((Instr.iadd (op 6 0 2 0 0x600)).words.bind fun w => (lab.issuer (insOfWords w)).bind fun x =>
      if lab.unsettled x then none else x.ins.check (lab.bounds x)) = some .illegalOperand := by decide +kernel
theorem witness_HandlerInstructionsNeedAHandler : (∃ x, Ready labH (.eret (op 0 0 0 0 0)) x ∧ x.ins.op = 0xCB) ∧
    ((Instr.mfsr (op 6 0 0 0 0)).words.bind fun w => (lab.issuer (insOfWords w)).bind fun x =>
      if lab.unsettled x || x.handler then none else some (decide (x.ins.check { lab.bounds x with handler := true } ≠ some .illegalOpcode))) = some true :=
  ⟨ready_of (by decide +kernel), by decide +kernel⟩
theorem witness_ReturnFromTrapResumes : ∃ x, Ready labH (.eret (op 0 0 0 0 0)) x ∧ (labH.part x.core x.part).trapq = [] ∧
    (labH.group x.gid).pend = [] ∧ (labH.group x.gid).hparked = 0 ∧ ∀ k, k < 4 → k ≠ x.slot → ((labH.group x.gid).slot k).mode ≠ .handler := ready_of (by decide +kernel)
theorem witness_SystemRegistersAreReadAndWritten :
    (∃ x, Ready labH (.mfsr (op 143 6 0 0 3)) x ∧ True) ∧ (∃ x, Ready labH (.mtsr (op 0 143 0 0 1)) x ∧ True) ∧
    (∃ x, Ready labH (.mtsr (op 6 143 0 0 1)) x ∧ True) ∧ (∃ x, Ready labH (.tlbinv (op 0 142 0 0 0x300)) x ∧ labH.tongsHolds (labH.group x.gid).ctx (x.ins.m12 / 256 % 4) x.core = false) ∧
    ∃ x, Ready labH (.tlbinv (op 0 0 0 0 0x400)) x ∧ labH.tongsHolds (labH.group x.gid).ctx (x.ins.m12 / 256 % 4) x.core = false :=
  ⟨ready_of (by decide +kernel), ready_of (by decide +kernel), ready_of (by decide +kernel), ready_of (by decide +kernel), ready_of (by decide +kernel)⟩
/-! Witnesses: tiles, matrix operations, counted arithmetic and the scale table. -/

/-- `lab` with tiles: 0 and 1 of 64 × 64 FP16 (slot 1), 2 of 64 × 32 INT4 (slot 4), 3 of 64 × 64 FP16, 4 and 5 of 64 × 64 INT4,
6 of 32 × 32 E4M3 with block scales (slot 2), 7 and 8 of 32 × 64 and 64 × 32 E2M1 with a per-tensor scale (slot 5),
9 of 128 × 32 FP16; g2 is a pitch, g3 a shape of 32 × 128. -/
def labT : State :=
  let tl (r c k : Nat) : Tile := { shaped := true, rows := r, cols := c, slot := k }
  { labG (fun g => { g with
      tiles := [(0, tl 64 64 1), (1, tl 64 64 1), (2, tl 64 32 4), (3, tl 64 64 1), (4, tl 64 64 4), (5, tl 64 64 4), (6, tl 32 32 2),
        (7, tl 32 64 5), (8, tl 64 32 5), (9, tl 128 32 1)]
      g := [0x100, 0, 0x200, 0x00800020, 0, 0] ++ g.g.drop 6 }) with
    blocks := [(0, { lab.block 0 with fmts := [0, 2, 0x23, 9, 10, 0x18, 0x28, 0], groups := [0, 1], ngroups := 2 })] }
/-- `labT` with a second group of the block. -/
def labT2 : State := { labT with groups := labT.groups ++ [(1, { labT.group 0 with index := 1, core := 1 })] }
/-- `labT` with plane k0 owned by its group, at depth 63. -/
def labK (opened : Bool) : State := { labT with quads := [(0, { labT.quad 0 with planes := [{ owner := some 0, fmt := 1, depth := if opened then [63, 63, 63, 63] else [0, 0, 0, 0] }, {}] })] }
theorem witness_TileOperationsNeedALane : (∃ x, Ready labT (.mma (off (op 0 0 1 0 0x240))) x ∧ x.exec = 0 ∧ 0xD0 ≤ x.ins.op ∧ x.ins.op ≤ 0xDF) ∧
    ∃ x, Ready labT (.mld (off (op 0 128 288 130 0))) x ∧ x.exec = 0 ∧ 0xD0 ≤ x.ins.op ∧ x.ins.op ≤ 0xDF :=
  ⟨ready_of (by decide +kernel), ready_of (by decide +kernel)⟩
/-- The hypotheses of the sound tile moves. -/
abbrev SoundMove (s : State) (x : Iss) (store : Bool) : Prop :=
  let tile := (s.group x.gid).tile x.ins.d
  let word := s.fmtSlot x.gid tile.slot
  let rb := rowBytes tile.cols (slotFormat word).width
  let base := (s.regs x).saddr x 0
  let p0 := ((s.regs x).x x.ins.c 0).toNat
  let pitch := if p0 = 0 then rb else p0
  let plane := ((s.regs x).x (x.ins.c + 1) 0).toNat
  let b := s.blockOf x
  s.counterFull x.gid 1 = false ∧ x.exec ≠ 0 ∧ tile.shaped = true ∧ slotOk word = true ∧ base % 4 = 0 ∧ pitch % 4 = 0 ∧
    (∀ a ∈ rowAddrs base pitch tile.rows, b.extentAddr a rb = none) ∧ (slotScale word = 2 → b.extentAddr plane (planeBytes tile.rows tile.cols) = none) ∧
    (store = true → rb ≤ pitch)
theorem witness_TileOperationsAreQueued :
    (∃ x, Ready labT (.mld (op 6 128 288 132 0)) x ∧ SoundMove labT x false) ∧ (∃ x, Ready labT (.mst (op 0 132 288 132 0)) x ∧ SoundMove labT x true) ∧
    (∃ x, Ready labT (.mmov (op 15 0 0 0 0)) x ∧ labT.counterFull x.gid 1 = false ∧ x.exec ≠ 0) ∧
    ∃ x, Ready labT (.mzero (op 15 0 0 0 0)) x ∧ labT.counterFull x.gid 1 = false ∧ x.exec ≠ 0 :=
  ⟨ready_of (by decide +kernel), ready_of (by decide +kernel), ready_of (by decide +kernel), ready_of (by decide +kernel)⟩
theorem witness_ShapesMasksAndScalesAreSet :
    (∃ x, Ready labT (.mshp (op 15 131 0 1 0)) x ∧ x.exec ≠ 0 ∧
      let v := ((labT.regs x).x x.ins.a 0).toNat
      let word := labT.fmtSlot x.gid x.ins.c
      slotOk word = true ∧ bitsOf v 31 27 = 0 ∧ bitsOf v 15 9 = 0 ∧ v % 512 ≠ 0 ∧ v % 512 ≤ 256 ∧ bitsOf v 26 16 ≠ 0 ∧
      bitsOf v 26 16 ≤ 1024 ∧ v % 512 * rowBytes (bitsOf v 26 16) (slotFormat word).width ≤ 8192) ∧
    (∃ x, Ready labT (.emsk (op 3 128 0 0 0)) x ∧ x.exec ≠ 0) ∧ (∃ x, Ready labT (.emsk (op 3 129 0 0 1)) x ∧ x.exec ≠ 0) ∧
    (∃ x, Ready labT (.sctadvAmax (op 0 128 0 0 1)) x ∧ x.exec ≠ 0) ∧ (∃ x, Ready labT (.sctadvOff (op 0 0 0 0 2)) x ∧ x.exec ≠ 0) ∧
    (∃ x, Ready labT (.sctadv (op 0 128 0 0 0)) x ∧ x.exec ≠ 0 ∧ labT.recordsWait x = false) ∧
    ∃ x, Ready labT (.sctrd (op 130 128 0 0 0)) x ∧ x.exec ≠ 0 ∧ labT.recordsWait x = false ∧ labT.loadCount x < 32 :=
  ⟨ready_of (by decide +kernel), ready_of (by decide +kernel), ready_of (by decide +kernel), ready_of (by decide +kernel), ready_of (by decide +kernel),
   ready_of (by decide +kernel), ready_of (by decide +kernel)⟩
/-- The hypotheses on the operands of MMA and MMAS. -/
abbrev TwoTiles (s : State) (x : Iss) : Prop :=
  let X := (s.group x.gid).tile x.ins.a
  let Y := (s.group x.gid).tile x.ins.b
  let sa := s.fmtSlot x.gid x.ins.sa
  let sb := s.fmtSlot x.gid x.ins.sb
  x.exec ≠ 0 ∧ s.mxFull x = false ∧ X.shaped = true ∧ Y.shaped = true ∧ slotOk sa = true ∧ slotOk sb = true ∧ x.ins.sa = X.slot ∧
    x.ins.sb = Y.slot ∧ pairOk sa sb = true
theorem witness_MatrixOperationsEnterTheTable :
    (∃ x, Ready labT (.mma (op 7 0 1 0 0x240)) x ∧ TwoTiles labT x ∧
      let h := opShapes x.ins.ta x.ins.tb ((labT.group x.gid).tile x.ins.a) ((labT.group x.gid).tile x.ins.b)
      h.2.1 = h.2.2.1 ∧ h.1 ≤ 64 ∧ h.2.2.2 ≤ 64 ∧ slotScale (labT.fmtSlot x.gid x.ins.sa) ≠ 1 ∧ slotScale (labT.fmtSlot x.gid x.ins.sb) ≠ 1 ∧ x.ins.c = 0) ∧
    (let s : State := { labT with blocks := [(0, { labT.block 0 with fmts := (labT.block 0).fmts.set 5 0x13 })] }
     ∃ x, Ready s (.mma (op 7 7 8 128 0xB40)) x ∧ TwoTiles s x ∧ slotScale (s.fmtSlot x.gid x.ins.sa) = 1 ∧
      let h := opShapes x.ins.ta x.ins.tb ((s.group x.gid).tile x.ins.a) ((s.group x.gid).tile x.ins.b)
      h.2.1 = h.2.2.1 ∧ h.1 ≤ 64 ∧ h.2.2.2 ≤ 64 ∧ x.ins.operandOk (s.bounds x) kgp x.ins.c = true ∧ s.badAmong x [x.ins.c, x.ins.c + 1] = none) ∧
    (∃ x, Ready labT (.mmas (op 7 0 9 2 0x240)) x ∧ TwoTiles labT x ∧
      let Z := (labT.group x.gid).tile x.ins.c
      let sa := labT.fmtSlot x.gid x.ins.sa
      let sc := labT.fmtSlot x.gid Z.slot
      let k := opShapes false x.ins.tb ((labT.group x.gid).tile x.ins.a) ((labT.group x.gid).tile x.ins.b)
      Z.shaped = true ∧ slotOk sc = true ∧ sparseFmt sa = true ∧ slotScale sa = 0 ∧ slotScale (labT.fmtSlot x.gid x.ins.sb) ≠ 1 ∧
      slotFormat sc = .int4 ∧ slotScale sc = 0 ∧ k.2.1 % 2 = 0 ∧ k.2.2.1 = 2 * k.2.1 ∧ k.1 ≤ 64 ∧ k.2.2.2 ≤ 64 ∧ Z.rows = k.1 ∧ 2 * Z.cols = k.2.1) ∧
    (∃ x, Ready labT (.mdrn (op 0 7 288 0 0)) x ∧ x.exec ≠ 0 ∧ labT.mxFull x = false ∧
      let D := (labT.group x.gid).tile x.ins.d
      let sd := labT.fmtSlot x.gid D.slot
      D.shaped = true ∧ slotOk sd = true ∧ slotScale sd ≠ 2 ∧ D.rows ≤ 64 ∧ D.cols ≤ 64) ∧
    (∃ x, Ready labT (.mdrna (op 0 7 132 0 0)) x ∧ x.exec ≠ 0 ∧ labT.mxFull x = false ∧
      let v := ((labT.regs x).x x.ins.b 0).toNat
      bitsOf v 31 19 = 0 ∧ bitsOf v 15 11 = 0 ∧ v % 2 ^ 11 < (labT.block (labT.group x.gid).blk).ngroups ∧
      v % 2 ^ 11 = (labT.group x.gid).index ∧ bitsOf v 18 16 ≠ x.ins.a) ∧
    ∃ x, Ready labT (.macz (op 7 0 0 0 0)) x ∧ x.exec ≠ 0 ∧ labT.mxFull x = false :=
  ⟨ready_of (by decide +kernel), ready_of (by decide +kernel), ready_of (by decide +kernel), ready_of (by decide +kernel), ready_of (by decide +kernel), ready_of (by decide +kernel)⟩
/-- The hypotheses on the operands of MCNT. -/
abbrev CountedTiles (s : State) (x : Iss) : Prop :=
  let X := (s.group x.gid).tile x.ins.a
  let Y := (s.group x.gid).tile x.ins.b
  let sa := s.fmtSlot x.gid x.ins.sa
  let sb := s.fmtSlot x.gid x.ins.sb
  let h := opShapes x.ins.ta x.ins.tb X Y
  let p := s.plane (quadOf x.core) x.ins.d
  x.exec ≠ 0 ∧ s.mxFull x = false ∧ X.shaped = true ∧ Y.shaped = true ∧ slotOk sa = true ∧ slotOk sb = true ∧ x.ins.sa = X.slot ∧
    x.ins.sb = Y.slot ∧ h.2.1 = h.2.2.1 ∧ h.1 ≤ 64 ∧ h.2.2.2 ≤ 64 ∧ slotFormat sa = slotFormat sb ∧
    (slotFormat sa = .e2m1 ∨ slotFormat sa = .int4) ∧ (slotScale sa = 2 ↔ slotScale sb = 2) ∧ (slotScale sa = 2 → x.ins.c < (s.group x.gid).budC) ∧
    (slotScale sa ≠ 2 → x.ins.c = 0) ∧ p.blocks x.gid = false ∧
    (p.opened = true → p.fmt = (slotFormat sa == .int4).toNat ∧ p.mode = (slotScale sa == 2).toNat ∧ p.tsa = (slotScale sa == 1) ∧ p.tsb = (slotScale sb == 1)) ∧
    (slotScale sa ≠ 2 → ∀ k ∈ x.quarters, p.dep k + h.2.1 ≤ 127)
theorem witness_CountedOperationsEnterTheTable :
    (∃ x, Ready labT (.mcnt (op 0 4 5 0 0x900)) x ∧ CountedTiles labT x) ∧ (∃ x, Ready (labK true) (.mcnt (op 0 4 5 0 0x900)) x ∧ CountedTiles (labK true) x) ∧
    (∃ x, Ready labT (.mcnt (op 1 7 8 0 0xB40)) x ∧ CountedTiles labT x) ∧
    (∃ x, Ready (labK true) (.mqch (op 7 0 0 0 0)) x ∧ x.exec ≠ 0 ∧ (labK true).mxFull x = false ∧
      let a := (labK true).plane (quadOf x.core) x.ins.a
      a.owner = some x.gid ∧ a.tsa = false ∧ a.tsb = false ∧ x.ins.b = 0) ∧
    (let s : State := { labT with quads := [(0, { labT.quad 0 with planes := [{ owner := some 0, tsa := true }, {}] })] }
     ∃ x, Ready s (.mqch (op 7 0 128 0 0)) x ∧ x.exec ≠ 0 ∧ s.mxFull x = false ∧ (s.plane (quadOf x.core) x.ins.a).owner = some x.gid ∧
      (s.plane (quadOf x.core) x.ins.a).tsa = true ∧ x.ins.operandOk (s.bounds x) kgp x.ins.b = true ∧ s.badAmong x [x.ins.b, x.ins.b + 1] = none) ∧
    (∃ x, Ready (labK true) (.mmrg (op 0 1 0 0 0)) x ∧ x.exec ≠ 0 ∧ (labK true).mxFull x = false ∧ x.ins.a ≠ x.ins.d ∧
      let p := (labK true).plane (quadOf x.core) x.ins.d
      let a := (labK true).plane (quadOf x.core) x.ins.a
      p.blocks x.gid = false ∧ a.blocks x.gid = false ∧ mergeFault p a x.quarters = none) ∧
    ∃ x, Ready { labT2 with groups := labT2.groups.map fun g => (g.1, { g.2 with g := 1 :: g.2.g.drop 1 }) } (.mmrgPeer (op 0 0 128 0 1)) x ∧ x.exec ≠ 0 ∧
      labT2.mxFull x = false ∧ labT2.memberGid 0 1 = some 1 ∧ (labT2.quad (quadOf (labT2.group 1).core)).table.length < 64 ∧ (labT2.plane 0 0).blocks 0 = false ∧ (labT2.plane 0 0).blocks 1 = false ∧
      mergeFault (labT2.plane 0 0) (labT2.plane 0 0) x.quarters = none ∧ quadOf 1 = 0 ∧ (labT2.block 0).ngroups = 2 ∧ (labT2.group 0).index = 0 :=
  ⟨ready_of (by decide +kernel), ready_of (by decide +kernel), ready_of (by decide +kernel), ready_of (by decide +kernel), ready_of (by decide +kernel), ready_of (by decide +kernel),
   ready_of (by decide +kernel)⟩
/-! Witnesses: the engine group. -/

/-- `lab` with the uniform registers as given. -/
def labU (ws : List Nat) : State := labG fun g => { g with g := ws.map (BitVec.ofNat 32) ++ g.g.drop ws.length }
theorem witness_CopiesAndFillsAreQueued :
    (∃ x, Ready (labU [0, 0, 0x1000, 0, 2 ^ 30]) (.bcpy (op 144 128 0 0 0)) x ∧ x.ins.op = 0xE0 ∧
      let s := labU [0, 0, 0x1000, 0, 2 ^ 30]
      s.tongsCheck x (s.descriptor x false) = none ∧ s.counterFull x.gid 0 = false ∧ s.loadCount x < 32 ∧
      ((s.die (dieOf x.core)).tongs.getD (tongsKey (engineOf x.core) (s.group x.gid).ctx) {}).ops.length < 128) ∧
    ∃ x, Ready (labU [0, 0, 0x1000, 0, 1]) (.bfill (op 288 128 0 288 0x0C0)) x ∧ x.ins.op = 0xE1 ∧ x.ins.d = 288 ∧
      let s := labU [0, 0, 0x1000, 0, 1]
      s.tongsCheck x (s.descriptor x true) = none ∧ s.counterFull x.gid 0 = false ∧
      ((s.die (dieOf x.core)).tongs.getD (tongsKey (engineOf x.core) (s.group x.gid).ctx) {}).ops.length < 128 :=
  ⟨ready_of (by decide +kernel), ready_of (by decide +kernel)⟩
/-- The frozen page 0, with a count. -/
def frozen (s : State) (n : Nat) : State :=
  { s with dies := [(0, { s.die 0 with dir := [(0, { count := n, state := .sealed, hdie := [], pkf := 0, await := [], told := [] })] })] }
theorem witness_FreezesCountTheirPages :
    (∃ x, Ready (labU [0, 0, 2]) (.frz (op 0 128 130 0 0)) x ∧ let s := labU [0, 0, 2]
      (s.regs x).xs x.ins.a 2 0 = 0 ∧ ((s.regs x).x x.ins.b 0).toNat = 2 ∧ s.counterFull x.gid 5 = false ∧
      s.rangePages false x.core (s.group x.gid).ctx 0 2 = .ok [(0, 0), (2 ^ 17, 1)] ∧
      s.releaseDone { x with exec := BitVec.allOnes 32 } 5 = (true, s) ∧ s.frzFault [(0, 0), (2 ^ 17, 1)] = none) ∧
    (∃ x, Ready (frozen (labU [0, 0, 1]) 1) (.thaw (op 0 128 130 0 0)) x ∧ let s := frozen (labU [0, 0, 1]) 1
      (s.regs x).xs x.ins.a 2 0 = 0 ∧ ((s.regs x).x x.ins.b 0).toNat = 1 ∧ s.counterFull x.gid 5 = false ∧
      s.rangePages true x.core (s.group x.gid).ctx 0 1 = .ok [(0, 0)] ∧
      s.releaseDone { x with exec := BitVec.allOnes 32 } 5 = (true, s) ∧ s.thawFault [(0, 0)] = none) ∧
    (0 / 2 ^ 25 = lab.pkg ∧ (homeDie 0).isSome = true ∧ lab.dirEnt 0 = none ∧ ((frozen lab 15).dirEnt 0).isSome = true) :=
  ⟨ready_of (by decide +kernel), ready_of (by decide +kernel), by decide +kernel⟩
theorem witness_FreezeQueryReturnsItsEntry : ∃ x, Ready (frozen lab 15) (.frzq (op 130 128 0 0 0)) x ∧
    (frozen lab 15).laneAccess x.core ((frozen lab 15).group x.gid).ctx ((frozen lab 15).group x.gid).step.toNat .read
      (((frozen lab 15).regs x).xs x.ins.a 2 0) = .ok 0x100 ∧ (frozen lab 15).depsOf x.gid x.active 0x100 0 false = [] ∧ (frozen lab 15).loadCount x < 32 ∧ pkgOf 0x100 = (frozen lab 15).pkg := ready_of (by decide +kernel)
/-- `lab` with a step record, committed step 6, region 15 enabled and the uniform registers as given. -/
def labW (ws : List Nat) : State := { labU ws with
  ctxs := [(0, { lab.ctx 0 with stepRec := 0x1000000040, stepC := 6, regions := List.replicate 15 {} ++ [{ ctl := 0x80000001 }] })] }
theorem witness_PersistOperationsComplete :
    (∃ x, Ready lab (.pbar (op 0 0 0 0 0)) x ∧ True) ∧ (∃ x, Ready lab (.pflush (op 0 0 0 0 0)) x ∧ lab.counterFull x.gid 4 = false) ∧
    (∃ x, Ready (labW [6]) (.stepcm (op 0 128 0 0 0)) x ∧ ((labW [6]).ctx 0).rec_ ≠ 0 ∧
      (((labW [6]).regs x).x x.ins.a 0).toNat = ((labW [6]).ctx 0).stepC ∧ (labW [6]).counterFull x.gid 4 = false) ∧
    (∃ x, Ready (labW [7]) (.stepcm (op 0 128 0 0 0)) x ∧ ((labW [7]).ctx 0).rec_ ≠ 0 ∧
      (((labW [7]).regs x).x x.ins.a 0).toNat = ((labW [7]).ctx 0).stepC + 1 ∧ (labW [7]).counterFull x.gid 4 = false) ∧
    (∃ x, Ready (labW [7]) (.stepab (op 0 128 0 0 0)) x ∧ ((labW [7]).ctx 0).rec_ ≠ 0 ∧
      (((labW [7]).regs x).x x.ins.a 0).toNat = ((labW [7]).ctx 0).stepC + 1 ∧ (labW [7]).counterFull x.gid 4 = false) ∧
    (∃ x, Ready (labU [2 ^ 32 - 2]) (.steptag (op 0 128 0 0 0)) x ∧ ((labU [2 ^ 32 - 2]).regs x).x x.ins.a 0 ≠ BitVec.allOnes 32) ∧
    ∃ x, Ready (labW [15, 6, 0x40, 0]) (.snapreq (op 0 128 0 0 0)) x ∧ let s := labW [15, 6, 0x40, 0]
      (s.region 0 15).en = true ∧ ((s.regs x).x x.ins.a 0).toNat = 15 ∧ ((s.regs x).x (x.ins.a + 2) 0).toNat = 0x40 ∧
      ((s.die ((homeDie (s.region 0 15).pa0).getD 0)).snaps.any fun n => n.ctx == 0 && n.rgn == 15) = false ∧
      s.counterFull x.gid 4 = false ∧ ((s.regs x).x (x.ins.a + 1) 0).toNat = (s.ctx 0).stepC :=
  ⟨ready_of (by decide +kernel), ready_of (by decide +kernel), ready_of (by decide +kernel), ready_of (by decide +kernel), ready_of (by decide +kernel),
   ready_of (by decide +kernel), ready_of (by decide +kernel)⟩
/-- `lab` with a communicator record of one member at 0x100 and a COLL descriptor for it. -/
def labL : State := { labU [0x100, 0, 0, 1, 0x200, 0, 0x300, 0] with mem := [(0x100, 1), (0x104, 9)] }
/-- A collective of members 1 and 2 that member 1 has joined, and another member's contribution to it. -/
def coll1 (count idx : Nat) : Coll × Member :=
  let m : Member := { idx := 1, pkg := 0, gid := 0, n := 0, ctx := 0, src := 0, dst := 0, deps := [], data := none }
  ({ job := 0, key := 9, seq := 0, op := 0, ty := 0, rop := 0, count := count, table := [(0, 0), (0, 1), (0, 2)], members := [m], partials := [] },
   { m with idx := idx })
theorem witness_CollectivesTakeTheirContributions :
    (∃ x, Ready labL (.coll (op 0 128 0 0 0)) x ∧ let w (k : Nat) : Nat := ((labL.regs x).x (x.ins.a + k) 0).toNat
      w 3 = 1 ∧ (w 0 + 2 ^ 32 * w 1) % 64 = 0 ∧ (w 4 + 2 ^ 32 * w 5) % 4 = 0 ∧ (w 6 + 2 ^ 32 * w 7) % 4 = 0 ∧
      (match labL.fetchRecord x 0x100 1, labL.fetchRecord x 0x100 2 with
        | .bytes _ head, .bytes _ bs => wordAt head 0 == 1 && commRecord bs labL.pkg 0 == some (9, [(0, 0)])
        | _, _ => false) = true ∧
      labL.counterFull x.gid 3 = false ∧ (labL.colls.find? fun c => c.job == (labL.ctx 0).pjob && c.key == 9 && c.seq == 0) = none) ∧
    (let s : State := { lab with colls := [(coll1 8 0).1] };
      (s.colls.find? fun c => c.job == 0 && c.key == 9 && c.seq == 0) = some (coll1 8 0).1 ∧ (coll1 8 0).1.failed = false ∧ ({ (coll1 8 0).1 with failed := true } : Coll).failed = true ∧
      (∀ y ∈ (coll1 8 0).1.members, y.idx ≠ (coll1 8 2).2.idx) ∧ (coll1 8 0).1.count ≠ (coll1 9 0).1.count ∧
      ∃ y ∈ (coll1 8 0).1.members, y.idx = (coll1 8 1).2.idx) := ⟨ready_of (by decide +kernel), by decide +kernel⟩
theorem witness_SignalsComplete :
    (∃ x, Ready lab (.sigadd (op 0 128 130 0 0)) x ∧ (lab.regs x).xs x.ins.a 2 0 % 8 = 0 ∧
      lab.laneAccess x.core 0 0 .atomic ((lab.regs x).xs x.ins.a 2 0) = .ok 0x100 ∧ lab.counterFull x.gid 3 = false) ∧
    (∃ x, Ready lab (.sigwait (op 288 128 130 0 0)) x ∧ x.ins.d = 288 ∧ (match lab.sigTest x with | .value v => v == 0 | _ => false) = true) ∧
    ∃ x, Ready lab (.sigwait (op 132 128 130 0 0)) x ∧ lab.loadCount x < 32 ∧ (match lab.sigTest x with | .value v => v == 0 | _ => false) = true :=
  ⟨ready_of (by decide +kernel), ready_of (by decide +kernel), ready_of (by decide +kernel)⟩
/-! Witnesses: the events of a core. -/

/-- The state after an instruction or an event. -/
noncomputable def after (s : State) (i : Instr) : State := match exec i s with | .next t => t | _ => s
/-- A state with other code at address 0. -/
def code (s : State) (i : Instr) : State :=
  { s with cores := [(0, { s.core 0 with
    icache := [{ ctx := 0, line := 0, bytes := some (((encode i).getD [] ++ List.replicate 64 0).take 64), cause := .pageNotPresent }] })] }
/-- A state whose core 0 issues no run. -/
def idle (s : State) : State := { s with cores := [(0, { s.core 0 with parts := List.replicate 12 {} })] }
/-- `lab` with slot 0 changed. -/
def labS (f : Slot → Slot) : State := labG fun g => { g with slots := f (g.slot 0) :: g.slots.drop 1 }
/-- The first access of a state. -/
def acc0 (s : State) : Option Access := s.accs.head?
theorem witness_CoreEventsComplete_runs :
    (idle (labS fun x => { x with readyAt := some 0 })).selection 0 0 = some (0, 0) ∧
    ({ lab with cores := [(0, { lab.core 0 with parts := [{ run := some { gid := 0, slot := 0, ended := true } }] })] } : State).atBoundary 0 0 = true ∧
    4096 ≤ ({ id := 0, jpc := 0, jset := 1, since := some 0, made := 0 } : Join).age 4096 ∧
    ((idle (labG fun g => { g with slots := [{ g.slot 0 with amask := 1, nrun := 256 }], lanes := (g.lane 0) :: List.replicate 31 { lst := .parked } })).rotates 0 0 false) = true ∧
    ((idle (labG fun g => { g with slots := [{ g.slot 0 with amask := 1, nstall := 4096 }], lanes := (g.lane 0) :: List.replicate 31 { lst := .parked } })).rotates 0 0 true) = true ∧
    ({ lab with cores := [(0, { lab.core 0 with icache := [] })] } : State).lacks 0 0 0 = true ∧ lab.asked 0 0 0 = false ∧
    (∀ pa ∈ lab.codePa 0 0 0, lab.sweeping pa = false) ∧
    ({ lab with cores := [(0, { lab.core 0 with preload := [(0, 7)] })] } : State).preloads 0 0 7 = true := by
  refine ⟨?_, ?_, ?_, ?_, ?_, ?_, ?_, ?_, ?_⟩ <;> decide +kernel
/-- `lab` with a returned load of v6 that an addition reads. -/
def labN : State := code (labG fun g => { g with
  loads := [{ seq := 0, handler := false, uni := false, dst := 6, n := 1, lanes := BitVec.allOnes 32, got := BitVec.allOnes 32, vals := [], bad := 0, addrs := [] }] })
  (.iadd { op 7 6 6 0 0 with st := 1 })
/-- A trap that waits for the handler bank. -/
def trap0 : Trap := { cause := .software, pc := 8, addr := 0, lanes := 1, info := 0, rpl := false }
theorem witness_CoreEventsComplete_settles :
    (match labN.fetchAt 0 0 with | .words _ => true | _ => false) = true ∧ labN.commits 0 0 = true ∧
    (let s := labG fun g => { g with pend := [(0, trap0)], slots := { g.slot 0 with mode := .pending } :: g.slots.drop 1 };
      ({ s with cores := [(0, { s.core 0 with parts := [{ trapq := [(0, 0)] }] })] } : State).entryDue 0 0) = true ∧
    (idle (code (labS fun x => { x with asleep := true }) (.sleept (op 0 288 0 0 0)))).wakes 0 0 = true ∧
    (lab.core 0).running = true ∧ (labS fun x => { x with asleep := true }).allAsleep 0 = true ∧ (lab.core 0).nothingHeld = true ∧
    (let s : State := { lab with cores := [(0, { lab.core 0 with running := false })] };
      s.on = true ∧ (s.core 0).running = false ∧ (s.quad (quadOf 0)).gate = .on ∧ s.wakeCondition 0 = true) ∧
    (let s0 := code (labG fun g => { g with g := [3, 0] ++ g.g.drop 2, slots := { g.slot 0 with asleep := true } :: g.slots.drop 1 }) (.sleept (op 0 128 0 0 0))
     let s : State := { s0 with cores := [(0, { s0.core 0 with running := false })] }
     (s.passTime 0 (4 - 1)).wakeCondition 0 = true ∧ (s.passTime 0 (4 - 2)).anyTimeUp 0 = false) ∧
    (List.replicate 16 (some 3)).getD 15 none = some 3 := by refine ⟨?_, ?_, ?_, ?_, ?_, ?_, ?_, ?_, ?_, ?_⟩ <;> decide +kernel
/-- `lab` with its split waiting in an operation since cycle 0. -/
def stuck (i : Instr) : State := idle (code (labS fun x => { x with stallAt := some 0 }) i)
theorem witness_CoreEventsComplete_blocks :
    (let b : Block := { lab.block 0 with isLocal := true, pool := 4, claims := [{ gid := 0, slot := 0, n := 4 }] };
      ∃ c cs, b.claims = c :: cs ∧ c.n ≤ b.pool) ∧
    (let s := stuck (.regclm (op 0 0 0 0 4));
      ({ s with blocks := [(0, { s.block 0 with isLocal := true, claims := [{ gid := 0, slot := 0, n := 4 }] })] } : State).poolDead 0) = true ∧
    (stuck (.regclm (op 0 0 0 0 4))).blockAtEnd 0 = true ∧ (stuck (.ldfe (op 6 2 288 0 0x440))).blockAtEnd 0 = true ∧
    (stuck (.ldfe (op 6 2 288 0 0x440))).orphaned 0 = true ∧
    (let s := idle (labG fun g => { g with lanes := g.lanes.map fun l => { l with lst := .barrier, bar := some { lvl := 3, id := 15, desc := 0, pc := 0, mark := 0 } } });
      s.barDone 0 3 15 0 = true ∧ ∃ p ∈ s.participants 0 3 0, s.atEnd (s.group p).core = true) ∧
    ({ lab with bars := [{ lvl := 4, owner := 0, id := 15, cnt := 1, arrived := [(0, 0)] }] } : State).barFull 4 0 15 = true ∧
    (idle (labG fun g => { g with lanes := g.lanes.map fun l => { l with lst := .exited } })).retires 0 = true :=
  ⟨⟨_, _, rfl, by decide⟩, by decide +kernel, by decide +kernel, by decide +kernel, by decide +kernel, by decide +kernel, by decide +kernel, by decide +kernel⟩
/-- A load of lane 0 under way from a core to word 0 of the scratchpad. -/
def msg0 (src : Nat) : SpadMsg := { id := 0, kind := 0, gid := 0, src := src, blk := 0, lanes := 1, addr := 0, w := 4, apps := [], aop := 0, aty := 0, load := none }
theorem witness_CoreEventsComplete_messages :
    ((after { lab with accs := [] } (.gld (op 130 128 288 0 0x400))).accs.any fun a => a.id == 1 && !a.done) = true ∧
    ((after (after lab (.gld (op 130 128 288 0 0x40C))) (.homeAccess 1)).accs.any fun a => a.id == 1 && a.done) = true ∧
    (let s := after (labV 127) (.dqsteal (op 130 128 0 132 0)); (match s.steals with | m :: _ => m.id == 1 && s.mayArrive m.tgt m.src (s.core m.tgt).lastThief && m.tgt == 127 && m.ctx == 0 | [] => false)) = true ∧
    (idle (code lab (.sigwait (op 132 128 130 0 0)))).sigWaits 0 0 = true ∧
    (let s := after lab (.sigadd (op 0 128 130 0 0)); (s.sigs.any fun m => (s.sigApply m).isSome && !m.sent && (m.deps.all fun d => !s.pendingId d) &&
      pkgOf m.pa == s.pkg && !inScm m.pa && !s.sweeping m.pa && !s.anyBad (s.readPas m.pa m.step ++ s.writePas m.pa 8 m.step) &&
      (s.writeCells m.pa m.step (bytesOf 8 ((ofBytes (s.homeRead m.pa 8 m.step) + m.val) % 2 ^ 64))).isSome)) = true ∧
    (let s : State := { lab with spads := [msg0 0] }; s.spads.all (fun m => m.deps.isEmpty) = true ∧ s.spadTarget (msg0 0) = 0) ∧
    (let s : State := { lab with spads := [msg0 1], cores := [(0, { lab.core 0 with running := false })] };
      s.spadTarget (msg0 1) = 0 ∧ s.mayArrive 0 1 (s.core 0).lastSrc = true) :=
  ⟨by decide +kernel, by decide +kernel, by decide +kernel, by decide +kernel, by decide +kernel, by decide +kernel, by decide +kernel⟩
/-! Witnesses: the events of the engines. -/

/-- The requests of quad 0, held no more, with what a step stamps on them. -/
def ripe (s : State) : State :=
  { s with quads := [(0, { s.quad 0 with table := (s.quad 0).table.map fun e => { e with held := false, since := some 0 } })] }
/-- A request that a state grants in the array, or at the port. -/
def grants (s : State) (array : Bool) : Bool := (s.granting 0 array).isSome
theorem witness_EngineEventsComplete_quad :
    ((after labT (.mzero (op 15 0 0 0 0))).tlReady 0 = true ∧ (let s := after labT (.mzero (op 15 0 0 0 0)); (s.tlCores 0).all (s.tlMay 0)) = true) ∧
    (((after { labT with groups := labT.groups.map fun g => (g.1, { g.2 with p := 0xFF :: g.2.p.drop 1 }) } (.mma (off (op 7 0 1 0 0x240)))).quad 0).table.any fun e => e.held) = true ∧
    (let s := ripe (after labT (.mma (op 7 0 1 0 0x240))); ((s.quad 0).table.any fun e => e.since.isSome && !e.aged && s.eligible e) = true ∧ grants s true = true) ∧
    (let s := after (ripe (after labT (.mma (op 7 0 1 0 0x240)))) (.anvilPass 0);
      ((s.quad 0).table.any fun e => e.inArray && e.granted && s.working e) = true) ∧
    grants (ripe (after labT (.macz (op 7 0 0 0 0)))) false = true ∧
    (let s := after (ripe (after labT (.mdrna (op 0 7 132 0 0)))) (.accumulatorPortGrant 0); (s.drains.any fun e => (s.acceptMdrna e).isSome &&
      (match s.memberGid (s.group e.gid).blk (e.word.toNat % 2 ^ 11) with
        | some h => decide (bitsOf e.word.toNat 18 16 < (s.group h).budC) && decide ((s.quad (quadOf (s.group h).core)).table.length < 64)
        | none => false)) = true ∧
      ({ s with blocks := [] } : State).drains.any (fun e => (({ s with blocks := [] } : State).memberGid (s.group e.gid).blk (e.word.toNat % 2 ^ 11)).isNone) = true) ∧
    (let s := ripe (after { labT2 with groups := labT2.groups.map fun g => (g.1, { g.2 with g := 1 :: g.2.g.drop 1 }) } (.mmrgPeer (op 1 0 128 0 1)));
      ((s.quad 0).table.any fun e => e.op == 0x101 && s.eligible e) = true) ∧
    (let g := (labG fun g => { g with ops := [{ cls := 2, n := 0, work := true, mate := [1] }, { cls := 2, n := 1, work := true, mate := [0] }] }).group 0;
      (match g.oldest 2 with | some o => (g.mxBatch o).all fun x => x.work | none => false) = true ∧ g.ops.length = 2) := by
  refine ⟨?_, ?_, ?_, ?_, ?_, ?_, ?_, ?_⟩ <;> decide +kernel
/-- A package that is reached, whose page a FRZ of group 0 awaits. -/
def labZ : State :=
  { labG (fun g => { g with ops := [{ cls := 5, n := 0, pages := [2 ^ 25] }] }) with rtab := [(1, 1)], ports := { up := true } :: List.replicate 15 {} }
/-- A collective of one member of this package whose data has been read and written. -/
def coll2 : Coll :=
  { (coll1 1 0).1 with
    table := [(0, 0)], count := 1, members := [{ idx := 0, pkg := 0, gid := 0, n := 0, ctx := 0, src := 0, dst := 0, deps := [], data := some [1], wrote := 1 }] }
/-- A collective of one member of this package and one of package 1, whose partial is here. -/
def coll3 (ended : List Nat) : Coll := { coll2 with table := [(0, 0), (1, 0)], partials := [(1, [0])], ready := [1], ended := ended }
theorem witness_EngineEventsComplete_engines :
    (let s := after (labU [0, 0, 0x1000, 0, 64]) (.bcpy (op 144 128 0 0 0));
      (match s.tongsReady 0 (tongsKey (engineOf 0) 0) with | [o] => !o.ended && (s.tongsStep 0 (engineOf 0) 0 o).isSome | _ => false) = true ∧
      (match s.tongsReady 0 (tongsKey (engineOf 0) 0) with | [o] => ({ o with next := 2 ^ 23 } : TongsOp).ended | _ => false) = true ∧
      let two : State := { s with dies := [(0, { s.die 0 with tongs := (s.die 0).tongs.map fun q => (q.1, { q.2 with
        ops := q.2.ops ++ q.2.ops.map fun o => { o with id := o.id + 100, gid := o.gid + 1 } }) })] }
      (2 ≤ (two.tongsReady 0 (tongsKey (engineOf 0) 0)).length ∧ (two.tongsReady 0 (tongsKey (engineOf 0) 0)).any fun o =>
        (two.draw.2.tongsStep 0 (engineOf 0) 0 o).isSome)) ∧
    (let s := after labL (.coll (op 0 128 0 0 0)); (match s.collOf 0 9 0 with | some c => (s.collStep c).isSome | none => false) = true) ∧
    coll2.allHere 0 = true ∧ coll2.allReady 0 = true ∧ coll2.allThere 0 = true ∧
    (∀ m ∈ coll2.members, m.data.isSome = true ∧ m.paused = false ∧ m.deps = [] ∧ (linePieces m.dst (coll2.receives 0 m.idx).length).length ≤ m.wrote) ∧
    coll2.others 0 = [] ∧
    (coll3 []).allHere 0 = true ∧ (coll3 []).allReady 0 = true ∧ (coll3 []).allThere 0 = true ∧ (coll3 []).others 0 = [1] ∧ labZ.pkg = 0 ∧ labZ.reachable 1 = true ∧
    (∀ e ∈ [[], [0, 1]], ∀ m ∈ (coll3 e).members, m.data.isSome = true ∧ m.paused = false ∧ m.deps = [] ∧
      (linePieces m.dst ((coll3 e).receives 0 m.idx).length).length ≤ m.wrote) ∧
    1 ∈ (coll3 [0, 1]).ended ∧ 0 ∈ (coll3 [0, 1]).ended ∧ 0 ∉ (coll3 []).ended := by
  refine ⟨?_, ?_, ?_, ?_, ?_, ?_, ?_, ?_, ?_, ?_, ?_, rfl, ?_, ?_, ?_, ?_, ?_⟩ <;> decide +kernel
/-! Witnesses: the events of memory, steps and freezing. -/

/-- `lab` with three levels of page table at 0x1000 for a page of 512 MiB, and nothing in the TLBs. -/
def labM : State := { lab with
  ctxs := [(0, { valid := true, asid := 1, root := 0x1000 })], cores := [(0, { lab.core 0 with utlb := [] })]
  mem := [(0x1000, 0x01), (0x1001, 0x20), (0x2000, 0x01), (0x2001, 0x30), (0x3000, 0x3B)] }
/-- An access at home by lane 0 of group 0. -/
def acc (k : AccKind) (pa : Nat) : Access :=
  { id := 7, kind := k, gid := 0, core := 0, ctx := 0, lanes := 1, pa := pa, va := 0, w := 4, apps := [(0, [1, 2, 3, 4])], home := true, sco := 0, sem := 0,
    last := false, load := none, deps := [], epoch := 0, step := none }
/-- `lab` with one access under way and a full write-back queue of die 0. -/
def labB : State := { lab with accs := [acc .write 0x10000000000], dies := [(0, { lab.die 0 with wbq := List.replicate 4096 [(0x10000000000, 0)] })] }
/-- A fault record of context 0. -/
def rec0 : FRec := { words := List.replicate 8 0, origin := .lane 0 0 }
/-- The slot of a die that a contribution of its group joins. -/
def redoSlot0 (s : State) (d : Nat) (m : RedoMsg) : RedoSlot :=
  (s.die d).redo.getD m.rslot { ctx := m.ctx, addr := m.pa, aop := m.aop, aty := m.aty, n := m.n, vals := [], sco := 0 }
/-- The same with the contribution. -/
def redoSlot (s : State) (d : Nat) (m : RedoMsg) : RedoSlot :=
  { redoSlot0 s d m with vals := (redoSlot0 s d m).vals.set m.idx m.val, sco := max (redoSlot0 s d m).sco m.sco }
/-- Whether a contribution reaches die 0 with nothing before it and no bytes of its line in an L1. -/
def redoHome (s : State) (m : RedoMsg) : Bool :=
  !m.sent && (m.deps.all fun k => !s.pendingId k) && pkgOf m.pa == s.pkg && homeDie m.pa == some 0 && !s.coded m.pa &&
    (s.l1Line (s.l1Of m.core) (lineOf m.pa)).dirty == 0 && (s.wbs (s.l1Of m.core) (lineOf m.pa)).isEmpty
/-- Whether it agrees with its slot. -/
def redoAgrees (s : State) (d : Nat) (m : RedoMsg) : Bool :=
  let r := redoSlot0 s d m
  r.ctx == m.ctx && r.addr == m.pa && r.aop == m.aop && r.aty == m.aty && r.n == m.n && (r.vals.get? m.idx).isNone
/-- Whether it completes its slot. -/
def redoFull (s : State) (d : Nat) (m : RedoMsg) : Bool := decide (m.n ≤ (redoSlot s d m).vals.length)
theorem witness_MemoryEventsComplete :
    (labM.on = true ∧ (labM.ctx 0).valid = true ∧ labM.tlbMiss 0 0 0x1FFFFFFF = true ∧
      labM.walk 0 0x1FFFFFFF = .ok { asid := 1, va := 0, bits := 29, pa := 0, x := true, w := true, rd := true } ∧
      labM.tlbMiss 0 0 (2 ^ 56) = true ∧ (match labM.walk 0 (2 ^ 56) with | .ok _ => true | .error _ => false) = true) ∧
    (let s : State := { lab with accs := [acc .read 0x100] }; (s.accs.any fun a => !a.waiting && (s.performNow a).isSome) = true) ∧
    (labB.accs.any fun a => !a.waiting && (labB.performNow a).isNone && labB.heldAtHome a) = true ∧
    ((({ lab.core 0 with l1 := [(4, {})] } : Core).l1.get? 4).isSome = true ∧ (({ lab.die 0 with near := [(4, 0)] } : Die).near.get? 4).isSome = true ∧
      (({ lab with cores := [(0, { lab.core 0 with l1 := [(4, {})] })] } : State).l1Line 0 4).bad = 0) ∧
    (let s := after lab (.redo (op 0 4 288 2 0x004)); (s.redos.any fun m => (s.redoArrive m).isSome && redoHome s m && redoAgrees s 0 m && redoFull s 0 m &&
      ((s.dropLine 0 m.pa).redoApply (redoSlot s 0 m)).isSome) = true) ∧
    (let s := after (labG fun g => { g with names := g.names.set 1 (nm 1 fun _ => 0x1000) }) (.redo (op 0 4 1 2 0x004)); (s.redos.any fun m => redoHome s m && redoAgrees s 0 m && !redoFull s 0 m) = true) ∧
    (let s := after lab (.redo (op 0 4 288 2 0x004));
     let s1 : State := { s with dies := [(0, { s.die 0 with redo := [(0, { ctx := 1, addr := 0, aop := 0, aty := 1, n := 1, vals := [], sco := 0 })] })] };
      (s1.redos.any fun m => redoHome s1 m && !redoAgrees s1 0 m) = true) ∧
    (let s := after lab (.redo (op 0 4 288 2 0x004));
     let s1 : State := { s with cores := [(0, { s.core 0 with l1 := [(0, { dirty := 1, valid := 1 })] })] };
      (s1.redos.any fun m => !m.sent && (m.deps.all fun k => !s1.pendingId k) && (s1.l1Line 0 (lineOf m.pa)).dirty != 0) = true) ∧
    (let s := after lab (.redo (op 0 4 288 2 0x004))
     let at_ (pa : Nat) : State := { s with redos := s.redos.map fun m => { m with pa := pa, deps := [] }
                                            erasure := { ctl := 0x80000110, str := 4, data := 0x10000000000, par := 0x10000100000, mem := List.range 17 } };
     ((at_ 0x10000000000).redos.any fun m => !m.sent && pkgOf m.pa == 0 && (at_ m.pa).coded m.pa && ((at_ m.pa).wbs 0 (lineOf m.pa)).isEmpty) = true ∧
       ((at_ (2 ^ 42)).redos.any fun m => !m.sent && pkgOf m.pa != 0 && !(at_ m.pa).reachable 1 && ((at_ m.pa).wbs 0 (lineOf m.pa)).isEmpty) = true) ∧
    ({ lab.ctx 0 with waiting := [rec0], frqProd := 15 } : Ctx).frqFull = false ∧
    (let s := labS fun x => { x with mode := .suspended };
      ({ s with ctxs := [(0, { s.ctx 0 with awaits := [{ seq := 0, addr := 0, origin := .lane 0 0, answer := some 0 }] })] } : State).answered 0 0 = true) ∧
    (pkgOf 0x6000000000 = lab.pkg ∧ homeDie 0x6000000000 = some 3 ∧ lab.wbqRoom 0x6000000000 = true ∧ homeDie 0x6000000000 ≠ some 2) := by
  refine ⟨?_, ?_, ?_, ?_, ?_, ?_, ?_, ?_, ?_, ?_, ?_, ?_⟩ <;> decide +kernel
/-- Whether the next line of a snapshot at die 0 can be copied in this package. -/
def snapHome (s : State) (x : Snap) : Bool :=
  match s.snapLine x with
  | some l =>
    let tags := s.tags x.ctx x.rgn l
    !s.sweeping (s.versionPa x.ctx x.rgn l false) &&
      !s.anyBad [(s.region x.ctx x.rgn).tags + 8 * l, s.versionPa x.ctx x.rgn l (pickVersion tags.1 tags.2 x.step)] &&
      (match s.snapDest 0 x (x.dst + 64 * l) with
        | .ok pa => pkgOf pa == s.pkg && !s.erasure.en && s.wbqRoom pa
        | .error _ => false)
  | none => false
theorem witness_PersistAndFreezeEventsComplete_steps :
    (let s : State := { lab with accs := [{ acc .write 0x10000000000 with waiting := true }] }; (s.accs.any fun a => a.waiting && (s.performNow a).isSome) = true) ∧
    (∃ e es, (labB.die 0).wbq = e :: es) ∧
    (let s := after lab (.pflush (op 0 0 0 0 0)); ((s.ctx 0).psq.any fun p => s.psOp p.id == some (0, p) && p.kind == 0 && s.psReady p) = true) ∧
    (let s := after (labW [6]) (.stepcm (op 0 128 0 0 0));
      (match (s.ctx 0).stepHead with | some p => p.kind == 1 && s.psReady p && decide (p.s ≤ (s.ctx 0).stepC) | none => false) = true) ∧
    (let s := after (labW [7]) (.stepcm (op 0 128 0 0 0));
      (match (s.ctx 0).stepHead with | some p => p.kind == 1 && s.psReady p && decide ((s.ctx 0).stepC < p.s) && (s.writeRec 0 p.s).isSome | none => false) = true) ∧
    (let s := after (labW [7]) (.stepab (op 0 128 0 0 0));
      (match (s.ctx 0).stepHead with | some p => p.kind == 2 && (s.abortStep 0 p).isSome && (s.sweepAt 0 (15 * 2 ^ 40 + 2048)).isNone && (s.sweepAt 0 p.stage).isSome | none => false) = true) ∧
    (let s0 := labW [15, 6, 0x40000, 0]
     let s := after { s0 with dies := [(0, { s0.die 0 with dtlb := [{ asid := 1, va := 0, bits := 30, pa := 0, x := true, w := true, rd := true }] })] }
       (.snapreq (op 0 128 0 0 0));
      (s.die 0).snaps.any (fun x => !x.paused && !x.deps.any s.pendingId && (s.snapStep 0 x).isSome && snapHome s x && (s.snapLine { x with rgn := 0 }).isNone) = true) ∧
    (let c : Region := { ctl := 0xC0000001 }; c.en = true ∧ c.ctl.getLsbD 30 = true ∧ (lab.die 0).wbq = []) := by
  refine ⟨?_, ⟨_, _, rfl⟩, ?_, ?_, ?_, ?_, ?_, ?_⟩ <;> decide +kernel
/-- A directory entry for page 0. -/
def page0 (st : FzState) (n : Nat) (await told : List Nat) : State :=
  { lab with dies := [(0, { lab.die 0 with dir := [(0, { count := n, state := st, hdie := [], pkf := 0, await := await, told := told })] })] }
/-- A freeze notice of package 1 for its page 0. -/
def note (todo wait : List Nat) : State := { lab with notices := [{ page := 2 ^ 25, gather := false, home := 1, todo := todo, wait := wait }] }
theorem witness_PersistAndFreezeEventsComplete_pages :
    ((page0 .sealing 1 [0] []).tellDie 0 0).isSome = true ∧ ((after (page0 .sealing 1 [0] []) (.freezeNotice 0 0)).ackDie 0 0).isSome = true ∧
    (∃ e, (page0 .sealing 1 [3] []).dirEnt 0 = some e ∧ e.state = .sealing ∧ 3 ∈ e.await ∧ 3 ∉ e.told) ∧
    (∃ e, (page0 .sealing 1 [0] [0]).dirEnt 0 = some e ∧ e.state = .sealing ∧ 0 ∈ e.await ∧ 0 ∈ e.told) ∧
    ((page0 .sealing 1 [0] [0]).addFilter 0 0).quiet 0 0 = true ∧
    (∃ m, (note [3] []).noticeOf (2 ^ 25) false = some m ∧ (note [3] []).dirEnt (2 ^ 25) = none ∧ 3 ∈ m.todo) ∧
    (∃ m, (note [] [0]).noticeOf (2 ^ 25) false = some m ∧ (note [] [0]).dirEnt (2 ^ 25) = none ∧ 0 ∈ m.wait ∧
      ((note [] [0]).addFilter 0 (2 ^ 25)).quiet 0 (2 ^ 25) = true) ∧
    (∃ m, ({ lab with notices := [{ page := 2 ^ 25, gather := true, home := 1, todo := [2], wait := [] }] } : State).noticeOf (2 ^ 25) true = some m ∧ 2 ∈ m.todo) ∧
    (∃ e, (page0 .sealing 0 [] []).dirEnt 0 = some e ∧ e.state = .sealing ∧ e.await = [] ∧ (page0 .sealing 0 [] []).heldWrites 0 = false) ∧
    (∃ e, (page0 .sealing 15 [] []).dirEnt 0 = some e ∧ e.state = .sealing ∧ e.await = [] ∧ (page0 .sealing 15 [] []).heldWrites 0 = false) ∧
    (2 ^ 25 / 2 ^ 25 ≠ labZ.pkg ∧ labZ.pageAwaited (2 ^ 25) false = true ∧ labZ.pageAwaited (2 ^ 25) true = true ∧ labZ.reachable (2 ^ 25 / 2 ^ 25) = true) ∧
    ((page0 .thawing 0 [0] []).gatherDie 0 0).isSome = true ∧
    (∃ e, (page0 .thawing 0 [0] []).dirEnt 0 = some e ∧ e.state = .thawing ∧ 0 ∈ e.await) ∧
    (∃ e, (page0 .thawing 0 [] []).dirEnt 0 = some e ∧ e.state = .thawing ∧ e.await = []) :=
  ⟨by decide +kernel, by decide +kernel, ⟨_, rfl, rfl, by decide, by decide⟩, ⟨_, rfl, rfl, by decide, by decide⟩, by decide +kernel,
   ⟨_, rfl, by decide +kernel, by decide⟩, ⟨_, rfl, by decide +kernel, by decide, by decide +kernel⟩, ⟨_, rfl, by decide⟩,
   ⟨_, rfl, rfl, rfl, by decide +kernel⟩, ⟨_, rfl, rfl, rfl, by decide +kernel⟩, by decide +kernel, by decide +kernel, ⟨_, rfl, rfl, by decide⟩, ⟨_, rfl, rfl, rfl⟩⟩
/-! Witnesses: the events of launch, contexts, host and power. -/

/-- `labQ` with its package brought up and a host queue whose record 0 stands in a ring at 0x1000: no predecessor, or one at address 0. -/
def labR (pred : Bool) : State := { labQ with
  power := { labQ.power with stage := 7 }
  mem := [(0x1001, 0x40), (0x1010, 1), (0x1014, 1), (0x1018, 1), (0x1020, 31), (0x1030, 128)] ++ (if pred then [(0x1060, 8)] else [])
  lqs := [(63, { base := 0x1000, en := true, pi := 1 })] }
/-- The state in which that record has started. -/
noncomputable def labG1 : State := after (labR false) (.recordStart 63)
/-- A grid of one block, placed and retired. -/
def grid1 : Grid where
  ctx := 0
  words := [0x4000, 0, 0x100000001, 1] ++ List.replicate 28 0
  kernel := { entry := 0x4000, region := 0, shape := 31, res := 0, vcap := 128, depth := 0, itt := [] }
  next := 1
  live := 0
  passed := 0
  order := 0
/-- Whether a grid of one-group blocks can place its next one at a partition of a core, with nothing waiting before it. -/
def fitsOne (s : State) (grid core part : Nat) : Bool :=
  match s.grids.get? grid with
  | some x => match x.caps with
    | [cap] =>
      let qd := quadOf core
      let need := x.need [cap]
      s.on && s.offers x && !s.dispatched grid && s.mayPass (s.passedOver grid x) && decide (core < 512) && decide (part < 12) && (s.quad qd).gate == .on &&
        (s.quad qd).fused == resFuse x.res && ((need.ranks [{ core := core, part := part }]).all fun c => decide (need.spad ≤ s.freeSpad c)) &&
        s.bestPart core == some part && decide (cap ≤ s.unreserved core part) && !(s.freePositions core part).isEmpty &&
        decide (resM x.res ≤ s.freeTiles core) && decide (resC x.res ≤ s.freeAccs qd) && s.coreFor core x.ctx
    | _ => false
  | none => false
theorem witness_PackageEventsComplete_launch :
    ((labR false).hostUp = true ∧ (labR false).power.stage ≥ 7 ∧ (labR false).linkClamped = false ∧ labQ.linkClamped = false ∧
      ({ labQ with power := { labQ.power with stage := 6 } } : State).hostUp = true) ∧
    ((labR false).mayStart 63 = true) ∧
    ((labR true).mayStart 63 = true ∧ (labR true).recordBad 0 ((labR true).recordAt 63) = none ∧ 0 ∈ ((labR true).lq 63).unsat ((labR true).recordAt 63)) ∧
    (let x := grid1;
      lab.gridDone 1 x = true ∧ x.words.getD 20 0 = 0 ∧ lab.gridDone 1 { x with words := x.words.set 20 8 } = true ∧ (x.words.set 20 8).getD 20 0 ≠ 0 ∧
      (lab.complete 0 8).isSome = true) ∧
    (labG1.placeBlock 1 [{ core := 5, part := 0 }]).isSome = true ∧
    (State.reset.on = true ∧ (State.reset.quad 127).gate = .on ∧ (State.reset.quad 127).thresh ≠ 0 ∧ State.reset.quadIdle 127 = true ∧
      (State.reset.quad 127).dispatch = none ∧ (State.reset.gate 127).isSome = true ∧ State.reset.cleanL1s (quadL1s 127) = true) ∧
    fitsOne labG1 1 5 0 = true := by
  refine ⟨?_, ?_, ?_, ?_, ?_, ?_, ?_⟩ <;> decide +kernel
/-- `State.reset` with context 63 in a state. -/
def ctx63 (st : CtxState) : State := { State.reset with ctxs := [(63, { valid := true, state := st })] }
theorem witness_PackageEventsComplete_contexts :
    (∀ st, (ctx63 st).on = true ∧ ((ctx63 st).ctx 63).valid = true ∧ ((ctx63 st).ctx 63).state = st) ∧
    ((ctx63 .switching).groupsOf 63 = [] ∧ (ctx63 .switching).cleanL1s ((ctx63 .switching).ctxL1s 63) = true ∧
      (match (ctx63 .switching).flush ((ctx63 .switching).ctxL1s 63) with | .clean _ => true | _ => false) = true ∧
      (let s : State := { ctx63 .switching with cores := [(4, { ctx := some 63, l1 := [(2 ^ 34, { dirty := 1, valid := 1 })] })], dies := labB.dies }
       match s.flush (s.ctxL1s 63) with | .begun _ => true | _ => false) = true) ∧
    (∃ q ∈ (([[{ core := 4, part := 0 }]] : List (List Place)).flatMap fun b => b.map fun p => quadOf p.core).dedup,
      (({ ctx63 .switchedOut with quads := [(1, { gate := .gated })] } : State).quad q).gate = .gated) ∧
    ((ctx63 .switchedOut).ctx 63).savedBlocks = [] ∧ (State.reset.ctx 63).valid = false ∧
    (0x2000000000000000#64).getLsbD 61 = true ∧ (0#64).getLsbD 61 = false ∧
    (State.reset.regWrite false 0 0 matches .plain _) = true ∧
    ({ busy := true, op := 2 } : Handover).busy = true ∧ (∀ a ∈ State.reset.accs, a.kind = .wb → a.done = true) ∧
    ((labR false).hostRefused 0x4003F 1 = none ∧ (labR false).wbqRoom 0x4003F = true ∧ 0x4003F % 64 + 1 ≤ 64) :=
  ⟨by intro st; exact ⟨rfl, rfl, rfl⟩, by decide +kernel, ⟨1, by decide, rfl⟩, rfl, rfl, by decide, by decide, by decide +kernel, rfl, by decide, by decide +kernel⟩
/-- `labG1` with context 0 switched out: one block of its grid with one group, which owns a plane and was in a handler. -/
noncomputable def labO : State := { labG1 with ctxs := [(0, { labG1.ctx 0 with
  state := .switchedOut, savedBlocks := [(9, { ctx := 0, grid := 1, cores := [0], groups := [ghostBase], ngroups := 1 })]
  savedGroups := [(ghostBase, { ctx := 0, grid := 1, blk := 9, cap := 128 })], savedPlanes := [(ghostBase, 1, { depth := [1, 0, 0, 0] })]
  savedBanks := [(ghostBase, 3, {}, [])] })] }
/-- The one group seated at partition 0 of core 5. -/
noncomputable def labO1 : State := (((labO.takeCore 5 0).setGroup 480 { ctx := 0, grid := 1, blk := 9, cap := 128, core := 5, part := 0, pos := 0 }).setBlock 9
  { ctx := 0, grid := 1, cores := [5], groups := [480], ngroups := 1 })
theorem witness_PackageEventsComplete_swin :
    (labO.on = true ∧ (labO.ctx 0).valid = true ∧ (labO.grids.get? 1).isSome = true ∧ (labO.quad 1).gate = .on ∧ (labO.quad 1).fused = false ∧
      (match labO.grids.get? 1 with | some x => labO.mayPass (labO.passedOver 1 x) && !resFuse x.res | none => false) = true ∧
      labO.bestPart 5 = some 0 ∧ 128 + 0 ≤ labO.unreserved 5 0 ∧ labO.freePositions 5 0 = 0 :: (List.range 7).map (· + 1) ∧ labO.coreFor 5 0 = true) ∧
    (match labO1.restoreGroup 0 480 ghostBase with
      | some t => (t.plane 1 1).depth == [1, 0, 0, 0] && (t.plane 1 1).owner == some 480 && (t.part 5 0).owner == some (480, 3)
      | none => false) = true ∧
    (match exec (.swin 0 [[{ core := 5, part := 0 }]]) labO with
      | .next t => (t.plane 1 1).owner == some 480 && (t.group 480).cap == 128 && (t.ctx 0).state == .active
      | _ => false) = true ∧
    (labO.remoded [1] (labO.savedFuse 0) fun s => s.switchIn 0 [[{ core := 5, part := 12 }]]).isNone = true ∧ (labO.ctx 0).swin = false := by
  refine ⟨?_, ?_, ?_, ?_, ?_⟩ <;> decide +kernel
theorem witness_PackageEventsComplete_power :
    ({ State.reset with on := false, power := { stage := 1 } } : State).powered = true ∧
    ({ lab with power := { lab.power with stage := 6, thrt := true } } : State).power.stage ≥ 6 ∧ lab.on = true ∧ lab.power.thrt = false ∧
    min lab.power.throt 110 ≤ 95 ∧ 89 + 5 < min lab.power.throt 110 ∧ ({ lab with on := false } : State).on = false ∧ 2 ≤ (labR false).power.stage ∧
    lab.power.stage = 0 ∧ ({ thrt := true } : Power).thrt = true ∧ ({ stage := 1 } : Power).stage = 1 ∧ ({ stage := 4 } : Power).stage = 4 ∧
    (let p : Power := { stage := 6, vrf := true }; p.vrf = true ∧ 2 ≤ p.stage ∧ p.stage < 7) := by
  decide +kernel
/-! Witnesses: flits and the events of the fabric. -/

/-- A flit of package 1 that comes in turn at port 0. -/
def flit (ty : Nat) (payload : List Byte) : Flit :=
  { dpkg := 0, spkg := 1, ddie := 0, sdie := 0, vc := 0, type := ty, len := payload.length, tag := 0, seq := 0, ack := 0, ctx := 0, paddr := 0x40, aux := 0, rsv := 0,
    payload := payload }
/-- Whether a flit is accepted as new and acted on, and whether the same is accepted again when it comes twice. -/
def taken (s : State) (f : Flit) (act : State → Option State) : Bool :=
  (match s.accept 0 f with | some (true, s1) => (act s1).isSome && (match s1.accept 0 f with | some (false, _) => true | _ => false) | _ => false)
theorem witness_FabricEventsComplete :
    (∀ ty, labZ.accept 0 (flit ty []) = labZ.accept 0 (flit 0 [])) ∧ taken labZ (flit 0 []) some = true ∧
    taken labZ (flit 1 []) (·.serveRd (flit 1 [])) = true ∧ taken labZ (flit 3 (List.replicate 72 0)) (·.serveWr (flit 3 (List.replicate 72 0))) = true ∧
    taken labZ (flit 5 (List.replicate 8 0)) (·.whole (flit 5 (List.replicate 8 0)) State.serveAt) = true ∧
    taken labZ (flit 7 (List.replicate 20 0)) (·.serveRdo (flit 7 (List.replicate 20 0))) = true ∧
    taken labZ (flit 12 (List.replicate 64 0)) (·.applyDelta (flit 12 (List.replicate 64 0))) = true ∧
    taken labZ (flit 13 (List.replicate 72 0)) (·.whole (flit 13 (List.replicate 72 0)) State.serveBulk) = true ∧
    (labZ.on = true ∧ (labZ.ports.getD 0 {}).up = true ∧ ({ unacked := [flit 0 []] } : Port).unacked ≠ []) ∧
    (let e : Erasure := { ctl := 0x80000110, str := 2, range := 0x100000000 };
      e.en = true ∧ e.busy = false ∧ e.range.toNat % 2 ^ 32 ≤ bitsOf e.range.toNat 63 32 ∧ bitsOf e.range.toNat 63 32 < e.stripes ∧ e.n = 2) :=
  ⟨fun _ => rfl, by decide +kernel, by decide +kernel, by decide +kernel, by decide +kernel, by decide +kernel, by decide +kernel, by decide +kernel, by decide +kernel,
   by decide +kernel⟩
/-- Whether a flit comes in turn at port 0. -/
def turns (s : State) (f : Flit) : Bool :=
  s.on && (s.ports.getD 0 {}).up && f.dpkg == s.pkg && f.rsv == 0 && f.seq == (s.ports.getD 0 {}).seqIn % 2 ^ 16
/-- Whether a contribution of another package, with its payload, agrees with its slot, and whether it completes it. -/
def rdo (s : State) (bs : List Byte) : Option (Bool × Bool) :=
  let w (k n : Nat) : Nat := ofBytes ((bs.drop k).take n)
  (homeDie 0x40).map fun d =>
    let r := (s.die d).redo.getD (w 8 4) { ctx := 0, addr := 0x40, aop := 0, aty := 0, n := w 12 4, vals := [], sco := 0 }
    (r.ctx == 0 && r.addr == 0x40 && r.aop == 0 && r.aty == 0 && r.n == w 12 4 && (r.vals.get? (w 16 4)).isNone,
     decide (w 12 4 ≤ (r.vals.set (w 16 4) (w 0 8)).length))
/-- A state once it has taken a flit of number 0. -/
def got (s : State) : State := (s.ackTo 0 0).modPort 0 fun p => { p with seqIn := p.seqIn + 1 }
/-- `labZ` with page 0 sealed, with the line at 0x40 lost, and with parity at 0x10000100000. -/
def labZs (x : Nat) : State := { labZ with
  dies := if x = 0 then (frozen lab 1).dies else if x = 1 then [(0, { lab.die 0 with errset := [1] })] else []
  erasure := { ctl := 0x80000110, str := 4, data := 0x10000000000, par := 0x10000100000, mem := List.range 17 } }
theorem witness_FabricEventsComplete_turns :
    (let r (s : State) := (got s).refusal 0x40 0 false ((got s).readPas 0x40 0); turns labZ (flit 1 []) = true ∧ r labZ = 0 ∧ (got labZ).dirEnt 0 = none ∧ (got labZ).sweeping 0x40 = false ∧ (got labZ).stepped 0x40 = none ∧
      r (labZs 1) ≠ 0 ∧ r (labZs 0) = 0 ∧ (match (got (labZs 0)).dirEnt 0 with | some x => x.state == .sealed | none => false) = true) ∧
    (let r (s : State) := (got s).refusal 0x40 0 true ((got s).writePas 0x40 1 0); r labZ = 0 ∧ (got labZ).wbqRoom 0x40 = true ∧ r (labZs 0) ≠ 0) ∧
    (let f := flit 5 (List.replicate 8 0); turns labZ f = true ∧ f.aux.getLsbD 31 = false ∧ ({ f with aux := 0x80000000 } : Flit).aux.getLsbD 31 = true ∧
      (let r (s : State) := (got s).refusal f.paddr 0 true [f.paddr]; r labZ = 0 ∧ r (labZs 0) ≠ 0) ∧ ((got labZ).writeCells f.paddr 0 (bytesOf 4 0)).isSome = true) ∧
    ((got labZ).areaCause 0x40 = 0 ∧ (got (labZs 2)).areaCause 0x10000000000 ≠ 0 ∧ (got labZ).areaCause (2 ^ 42) ≠ 0) ∧
    (pkgOf (2 ^ 42) ≠ labZ.pkg ∧ pkgOf 0x40 = labZ.pkg ∧ homeDie 0x40 = some 0 ∧
      (rdo labZ [0, 0, 0, 0, 0, 0, 0, 0, 0, 0, 0, 0, 2, 0, 0, 0, 0, 0, 0, 0] = some (true, false)) ∧
      rdo { labZ with dies := [(0, { lab.die 0 with redo := [(0, { ctx := 1, addr := 0, aop := 0, aty := 0, n := 2, vals := [], sco := 0 })] })] }
        [0, 0, 0, 0, 0, 0, 0, 0, 0, 0, 0, 0, 2, 0, 0, 0, 0, 0, 0, 0] = some (false, false)) ∧
    (labZ.erasure.en = false ∧ (let x := got (labZs 2); x.erasure.en = true ∧ 1 < x.erasure.stripes ∧ x.erasure.k ≤ x.erasure.unitAt 1 x.erasure.pos ∧
      pkgOf 0x40 = x.pkg ∧ x.ownUnit 1 = 0x10000100000 ∧ x.lineBad 0x10000100040 = false ∧ x.wbqRoom 0x10000100040 = true)) ∧
    (let f := flit 13 (List.replicate 72 0); turns labZ f = true ∧ f.payload.length / 72 = 1 ∧ (maskedCells 0x40 f.payload).length = 0 ∧
      (let r (s : State) := (got s).refusal 0x40 0 true ((got s).writePas 0x40 0 0); r labZ = 0 ∧ r (labZs 0) ≠ 0) ∧ (labZ.die 3).wbqUsed + 1 ≤ 4096) ∧
    (let e : Erasure := { busy := true, from_ := [0], run := 1 }; e.awaits (flit 12 (bytesOf 8 0 ++ bytesOf 8 1)) = true ∧ e.awaits (flit 12 []) = false) := by
  refine ⟨?_, ?_, ?_, ?_, ?_, ?_, ?_, ?_⟩ <;> decide +kernel
/-- `labZ` with a stepped region of one page at 0x10000000000. -/
def labZr : State := { labZ with ctxs := [(0, { labZ.ctx 0 with
  regions := { base := 0x10000000000, shad := 0x10000020000, tag := 0x10000040000, ctl := 0x80000001 } :: List.replicate 15 {} })] }
theorem witness_FabricEventsComplete_steps :
    let s := got labZr
    let f : Flit := { flit 3 (List.replicate 72 0 ++ bytesOf 4 1) with aux := 0x20000000, paddr := 0x10000000000 }
    let pa := lineOf f.paddr * 64
    (s.stepped pa).isSome = true ∧ s.sweeping pa = false ∧ s.refusal pa 0 false (s.readPas pa 0) = 0 ∧ flitStep f = 1 ∧ turns labZr f = true ∧
    s.refusal pa 1 true (s.writePas pa 1 1) = 0 ∧ s.wbqRoom pa = true ∧ (s.maskedWrite pa 1 (maskedCells pa (flitBody f))).isSome = true ∧
    (s.writeCells pa 1 (bytesOf 4 0)).isSome = true ∧ s.refusal pa 0 true (s.writePas pa 1 0) = Cause.stepAhead.code := by decide +kernel
/-- A unit of zeros. -/
def unit0 : List Byte := List.replicate (2 ^ 17) 0
theorem stripe_ready (s : State) (u : List Byte) (hb : s.erasure.busy = true) (hr : s.erasure.from_ = [1]) (hu : s.erasure.units = [(1, u)])
    (hl : u.length = 2 ^ 17) : s.stripeReady = true := by simp [State.stripeReady, hb, hr, hu, hl]
/-- A rebuild that has the unit it reads. -/
def labX : State := { lab with
  erasure := { ctl := 0x80000110, str := 4, data := 0x10000000000, par := 0x10000100000, mem := List.range 17, range := 0x100000000, busy := true,
               from_ := [1], units := [(1, unit0)] } }
theorem witness_FabricEventsComplete_rebuild : labX.stripeReady = true ∧
    homeDie (labX.erasure.unitPa labX.erasure.at_ labX.erasure.pos) = some 0 ∧ (labX.die 0).wbqUsed + 2048 ≤ 4096 := by
  exact ⟨stripe_ready labX unit0 rfl rfl rfl List.length_replicate, by decide +kernel, by decide +kernel⟩
/-! Witnesses: encoding, memory, reset and the step. -/

theorem witness_FirstBitsGiveLength : (∃ x, Ready lab (.movC16 { s := 31, d := 31, e := 0 }) x ∧ True) ∧
    readWords (bytesOf 2 (0x88CA#16).toNat ++ []) = .ok (.c16 2 { s := 17, d := 3, e := 1 }, 2) ∧
    (match readWords (bytesOf 2 (0xA139#16).toNat ++ [0x04#8, 0xDA#8]) with | .ok (.w32 _ _, 4) => true | _ => false) = true ∧
    (match readWords (bytesOf 2 (0xA337#16).toNat ++ [0, 0, 0, 0, 0, 0]) with | .ok (.w64 0x33 _, 8) => true | _ => false) = true ∧
    (match readWords (bytesOf 2 (0x7F03#16).toNat ++ [0, 0, 0, 0, 0, 0]) with | .ok (.w64i 0xF0 _, 8) => true | _ => false) = true :=
  ⟨ready_of (by decide +kernel), by decide +kernel, by decide +kernel, by decide +kernel, by decide +kernel⟩
theorem witness_DecodeInvertsEncode : (Instr.iadd (op 127 511 511 511 0xFFF)).wellFormed = true ∧
    decode [0xCA#8, 0x88#8] = .ok (.iaddC16 { s := 17, d := 3, e := 1 }, 2) := by decide +kernel
theorem witness_MultiByteValuesAreLittleEndian : State.reset.memOk ∧ Mem.wf (({} : Block).bytes.getD (spadRank 0) []) = true ∧
    8188 + ([1, 2, 3, 4] : List Byte).length ≤ 8192 ∧ 126 % 2 = 0 ∧ 126 < 128 := by unfold State.memOk; decide +kernel
/-- What the statement asks of an access. -/
abbrev AtHome (s : State) (a : Access) : Prop :=
  Mem.wf s.mem = true ∧ (s.accs.find? fun x => x.id == a.id && x.waiting == a.waiting) = some a ∧ a.done = false ∧ a.sent = false ∧
    (∀ d ∈ a.deps, s.pendingId d = false) ∧ pkgOf a.pa = s.pkg ∧ s.lineBad a.pa = false ∧ s.stepped a.pa = none ∧
    (s.l1Line (s.l1Of a.core) (lineOf a.pa)).dirty = 0 ∧ s.wbs (s.l1Of a.core) (lineOf a.pa) = [] ∧ a.home = true
theorem witness_AccessesArePerformedAtHome :
    (AtHome { lab with accs := [acc .write 0x10000000000] } (acc .write 0x10000000000) ∧
      ({ lab with accs := [acc .write 0x10000000000] } : State).mayEnter (acc .write 0x10000000000) = true) ∧
    AtHome { lab with accs := [acc .read 0x7FFFFFFFFC] } (acc .read 0x7FFFFFFFFC) ∧
    (AtHome { lab with accs := [acc (.atom 0 0) 0x100] } (acc (.atom 0 0) 0x100) ∧
      (({ lab with accs := [acc (.atom 0 0) 0x100] } : State).dropLine ((lab.l1Of 0)) 0x100).mayEnter (acc (.atom 0 0) 0x100) = true) ∧
    AtHome { lab with accs := [acc (.red 9 3) 0x100] } (acc (.red 9 3) 0x100) ∧
    (let a : Access := { acc .write 0x10000000000 with waiting := true }
     AtHome { lab with accs := [a] } a ∧ ({ lab with accs := [a] } : State).mayEnter a = true) := by
  refine ⟨?_, ?_, ?_, ?_, ?_⟩ <;> decide +kernel
/-- The state that the zero halfword is placed in. -/
def labStep : State := State.reset.withFetchWord 16 0
theorem witness_StepsKeepMemoryCanonical : labStep.memOk ∧ (match step labStep with | .next _ => true | _ => false) = true := by
  unfold State.memOk; decide +kernel
theorem witness_StepRunsTheDecodedInstruction :
    (labStep.agenda = [] ∧ labStep.on = true ∧ (labStep.core labStep.focus.1).running = true ∧ labStep.dueEvent labStep.focus.1 = none ∧
      (labStep.core labStep.focus.1).phase ≤ 0 + 1 ∧ (∀ a, a < labStep.focus.1 → labStep.atEnd a = true) ∧
      ∃ r, (labStep.part labStep.focus.1 0).run = some r ∧ r.ended = false ∧ labStep.commits r.gid r.slot = false ∧
        (∀ k, k < 2 → (labStep.core (labStep.group r.gid).core).codeByte (labStep.group r.gid).ctx (((labStep.group r.gid).slot r.slot).spc + BitVec.ofNat 56 k) =
          some (.ok ([0#8, 0#8].getD k 0))) ∧
        labStep.slotFor r (labStep.issAt r.gid r.slot (insOfWords (.c16 0 { s := 0, d := 0, e := 0 }))) = true) ∧
    decode [0#8, 0#8] = .ok (.movC16 { s := 0, d := 0, e := 0 }, 2) ∧
    (∃ i rest, ({ lab with agenda := [.event (.wbqDrain 0)] } : State).agenda = .event i :: rest ∧ i.isEvent = true) :=
  ⟨⟨rfl, rfl, by decide +kernel, by decide +kernel, by decide +kernel, fun _ h => absurd h (Nat.not_lt_zero _), _, rfl, by decide +kernel, by decide +kernel, by decide +kernel, by decide +kernel⟩, by decide +kernel, ⟨_, _, rfl, rfl⟩⟩
/-! Single steps on small states. -/

/-- A word of a register after an instruction. -/
noncomputable def val (s : State) (i : Instr) (c l : Nat) : Nat := (({ handler := false, g := (after s i).group 0, b := {} } : Regs).x c l).toNat
/-- The flags after an instruction. -/
noncomputable def flags (s : State) (i : Instr) : Nat := ((after s i).group 0).fpstat.toNat
/-- `lab` with a lane register changed. -/
def labX1 (n : Nat) (v : Nat → Nat) : State := labG fun g => { g with names := g.names.set n (nm n v) }
/-- R111: 2^32 − 1 + 31 wraps to 30. -/
theorem test_iadd_wraps : val (labX1 1 fun _ => 2 ^ 32 - 1) (.iadd (op 6 0 1 0 0)) 6 31 = 30 := by decide +kernel
/-- R108, R111: with SAT the sum stays at the largest i32 and ISAT is set. -/
theorem test_iadd_saturates : val (labX1 1 fun _ => 2 ^ 31 - 1) (.iadd (op 6 1 1 0 0x020)) 6 0 = 2 ^ 31 - 1 ∧
    flags (labX1 1 fun _ => 2 ^ 31 - 1) (.iadd (op 6 1 1 0 0x020)) ≠ 0 := by decide +kernel
/-- R113: division of a signed number by zero gives −1, the remainder a. -/
theorem test_idiv_byZero : val lab (.idiv (op 6 0 1 0 0)) 6 9 = 2 ^ 32 - 1 ∧ val lab (.irem (op 6 0 1 0 0)) 6 9 = 9 := by decide +kernel
/-- R114: a source that is also the destination; lane 3 has a = 256 · 3 in a pair. -/
theorem test_lea_pair : val lab (.lea (op 4 4 3 0 3)) 4 3 = 768 ∧ val lab (.lea (op 4 4 3 0 3)) 5 3 = 2 := by decide +kernel
/-- R115, R128: ICMP.lt of the lane and 2.0's code sets p3 in every lane. -/
theorem test_icmp_sets : ((after lab (.icmp (op 3 0 3 2 0))).group 0).p.getD 3 0 = BitVec.allOnes 32 := by decide +kernel
/-- R118: 2.0 + 2.0 = 4.0. -/
theorem test_fadd : val lab (.fadd (op 6 3 3 0 0x600)) 6 5 = 0x40800000 ∧ flags lab (.fadd (op 6 3 3 0 0x600)) = 0 := by decide +kernel
/-- The example of R131: lane 37 mod 32 = 5. -/
theorem test_readl : val (labU [37]) (.readl (op 132 0 128 0 0)) 132 0 = 5 := by decide +kernel
/-- The example of R135: the tree of R38 gives 1.0 + 3 · 2^−23 where lanes 0 to 7 execute. -/
theorem test_vred_tree : val { labX1 1 (fun l => if l = 0 then 0x3F800000 else 0x33800000) with
      groups := (labX1 1 (fun l => if l = 0 then 0x3F800000 else 0x33800000)).groups.map fun g => (g.1, { g.2 with p := 0xFF :: g.2.p.drop 1 }) }
    (.vred (off (op 6 1 0 0 0x600))) 6 3 = 0x3F800003 := by decide +kernel
/-- R134: SHFL down by 4 in segments of 8: lane 3 reads lane 7, lane 5 keeps its own. -/
theorem test_shfl_down : val (labX1 1 fun _ => 0x204) (.shfl (op 6 0 1 2 2)) 6 3 = 7 ∧ val (labX1 1 fun _ => 0x204) (.shfl (op 6 0 1 2 2)) 6 5 = 5 := by
  decide +kernel
/-- R100: a loop entered with 0 goes round 2^32 times. -/
theorem test_loopg_zero : val (labU [0]) (.loopg { op 128 0 0 0x10 0 with c := 0x10 }) 128 0 = 2 ^ 32 - 1 ∧
    (((after (labU [0]) (.loopg { op 128 0 0 0 0 with c := 0x10 })).group 0).lane 31).lpc = 0x40#56 := by decide +kernel
/-- R94: lanes whose p1 is set go to the target 0x40, the others to the next instruction. -/
theorem test_brd_parts : (((after labP (.brd { op 0 1 0 0 0 with c := 0x10 })).group 0).lane 2).lpc = 0x40#56 ∧
    (((after labP (.brd { op 0 1 0 0 0 with c := 0x10 })).group 0).lane 3).lpc = 8#56 := by decide +kernel
/-- R97: CALL pushes the address after it. -/
theorem test_call_pushes : (((after lab (.call { op 0 0 0 0 0 with c := 0x10 })).group 0).lane 0).rstk.getD 0 0 = 8#56 ∧
    (((after lab (.call { op 0 0 0 0 0 with c := 0x10 })).group 0).lane 0).rdep = 1 := by decide +kernel
/-- R98: an empty return stack exits. -/
theorem test_ret_exits : (((after lab (.ret (op 0 0 0 0 0))).group 0).lane 7).lst = .exited := by decide +kernel
/-- The example of R197: TRAP 7. -/
theorem test_trap : let g := (after lab (.trap { op 0 0 0 0 7 with e := 1 })).group 0
    g.sys.tpc = 8 ∧ g.sys.tcause = 0x13 ∧ g.sys.tinfo = 7 ∧ g.sys.taddr = 0 ∧ g.sys.tlanes = BitVec.allOnes 32 ∧ (g.slot 0).mode = .handler ∧
    (g.slot 0).spc = 0x2000#56 := by decide +kernel
/-- R69, R70: a register position that names 289 traps ILLEGAL_OPERAND at the instruction. -/
theorem test_illegalOperand : ((after lab (.iadd (op 6 289 0 0 0))).group 0).sys.tcause = 0x02 ∧ ((after lab (.iadd (op 6 289 0 0 0))).group 0).sys.tpc = 0 := by
  decide +kernel
/-- R68: ERET outside a handler traps PRIV. -/
theorem test_eret_priv : ((after lab (.eret (op 0 0 0 0 0))).group 0).sys.tcause = 0x03 := by decide +kernel
/-- R196: ERET resumes at TPC. -/
theorem test_eret_resumes : let g := (after { labH with groups := [(0, { labH.group 0 with sys := { tvec := 0x2000, tpc := 0x108 } })] } (.eret (op 0 0 0 0 0))).group 0
    (g.slot 0).mode = .running ∧ (g.slot 0).spc = 0x108#56 := by decide +kernel
/-- R143, R150: a byte store to a word that is not aligned traps MISALIGN with the lowest lane's address. -/
theorem test_st_misaligned : let g := (after (labX1 4 fun l => l) (.st (op 0 4 288 2 0x400))).group 0
    g.sys.tcause = 0x04 ∧ g.sys.taddr = 1 ∧ g.sys.tlanes = 0xEEEEEEEE := by decide +kernel
/-- R199, R200: STS writes least significant byte first. -/
theorem test_sts_bytes : ((after lab (.sts (op 0 2 288 3 0x400))).block 0).read 0x100 4 = [0, 0, 0, 0x40] := by decide +kernel
/-- R145: STFE fills an empty word, and LDFE take empties it. -/
theorem test_stfe_fills : ((after lab (.stfe (op 0 2 288 1 0x400))).block 0).isFull 0x100 = true ∧
    ((after labE (.ldfe (op 6 2 288 0 0x440))).block 0).isFull 0x100 = false := by decide +kernel
/-- R141: GST performs at home; memory changes when its access is performed. -/
theorem test_gst_home : Mem.read (after (after (labU [0x100, 0, 0xAB]) (.gst (op 0 128 288 130 0x440))) (.homeAccess 0)).mem 0x100 = 0xAB := by decide +kernel
/-- R147: ATOM.add returns the old word and leaves the sum. -/
theorem test_red_adds : Mem.read (after (after { labX1 2 (fun _ => 5) with mem := [(0x1F00, 2)] } (.red (op 0 4 288 2 0x004))) (.homeAccess 31)).mem 0x1F00 = 7 := by
  decide +kernel
/-- R219: DQPUSH answers 1 and enters its value. -/
theorem test_dqpush : val lab (.dqpush (op 0 128 0 132 0)) 132 0 = 1 ∧ ((after lab (.dqpush (op 0 128 0 132 0))).core 0).deque = [0x100#64] := by decide +kernel
/-- R369: STEPTAG with all ones traps. -/
theorem test_steptag_reserved : ((after (labU [2 ^ 32 - 1]) (.steptag (op 0 128 0 0 0))).group 0).sys.tcause = 0x02 := by decide +kernel
/-- R318: a FRZ of an open page makes it SEALING with count 1. -/
theorem test_frz_seals : ((after (labU [0, 0, 1]) (.frz (op 0 128 130 0 0))).dirEnt 0).map (fun e => (e.count, e.state)) = some (1, .sealing) := by decide +kernel
/-- R210: MSHP of 32 rows and 128 columns. -/
theorem test_mshp : let t := ((after labT (.mshp (op 15 131 0 1 0))).group 0).tile 15
    t.rows = 32 ∧ t.cols = 128 ∧ t.slot = 1 ∧ t.shaped = true := by decide +kernel
/-- R187: REGREL gives registers back to the pool. -/
theorem test_regrel : ((after labC (.regrel (op 0 0 0 0 28))).block 0).pool = 28 ∧ ((after labC (.regrel (op 0 0 0 0 28))).group 0).cap = 100 := by decide +kernel
/-- R179, R45: the zero halfword changes no name. -/
theorem test_zero_halfword : ((after lab (.movC16 { s := 0, d := 0, e := 0 })).group 0).names = (lab.group 0).names := by decide +kernel
/-- A step of the state that a word is placed in runs it: MOVI v5, 1.0 (R65, R71). -/
theorem test_step_runs : (match step (State.reset.withFetchWord 64 0x3F80000000057F03) with
    | .next t => (({ handler := false, g := t.group 0, b := {} } : Regs).x 5 31).toNat | _ => 0) = 0x3F800000 := by decide +kernel
/-- R360: a power failure leaves the package off. -/
theorem test_powerFailure : (after lab .powerFailure).on = false ∧ (after lab .powerFailure).groups = [] := by decide +kernel
/-- The check value of CRC-32C for the ASCII digits 1 to 9 (RFC 3720 and the CRC catalogues give it). -/
theorem test_crc32c_check : crc32c ((List.range 9).map fun k => BitVec.ofNat 8 (0x31 + k)) = 0xE3069283 := by decide +kernel

end Sys2Proof.Tests
end

section
/-! Values of several bytes (R8): the bytes of a number and the number of its bytes are inverse, bytes written to memory, to the
scratchpad and to a tile are the bytes read there, and a register pair is read low half first. -/

namespace Sys2Proof

/-! Numbers and their bytes. -/

@[simp] theorem length_bytesOf (n v : Nat) : (bytesOf n v).length = n := by simp [bytesOf]

/-- The first byte is the least significant one. -/
theorem bytesOf_succ (n v : Nat) : bytesOf (n + 1) v = BitVec.ofNat 8 v :: bytesOf n (v >>> 8) := by
  simp [bytesOf, List.range_succ_eq_map, Function.comp_def, ← Nat.shiftRight_add, Nat.mul_succ, Nat.add_comm]

theorem getD_bytesOf {n k : Nat} (h : k < n) (v : Nat) : (bytesOf n v).getD k 0 = BitVec.ofNat 8 (v >>> (8 * k)) := by
  simp [bytesOf, h]

theorem ofBytes_bytesOf (n v : Nat) : ofBytes (bytesOf n v) = v % 2 ^ (8 * n) := by
  induction n generalizing v with
  | zero => simp [bytesOf, ofBytes, Nat.mod_one]
  | succ n ih =>
    rw [bytesOf_succ, ofBytes, ih, Nat.shiftRight_eq_div_pow, BitVec.toNat_ofNat, Nat.mul_succ, Nat.add_comm (8 * n), Nat.pow_add]
    exact Nat.mod_mul.symm

theorem bytesOf_ofBytes (bs : List Byte) : bytesOf bs.length (ofBytes bs) = bs := by
  induction bs with
  | nil => rfl
  | cons b r ih =>
    have hb := b.isLt
    have low : BitVec.ofNat 8 (ofBytes (b :: r)) = b := BitVec.eq_of_toNat_eq (by simp only [ofBytes, BitVec.toNat_ofNat]; omega)
    have high : ofBytes (b :: r) >>> 8 = ofBytes r := by simp only [ofBytes, Nat.shiftRight_eq_div_pow]; omega
    rw [List.length_cons, bytesOf_succ, low, high, ih]

/-- A list of bytes spells a number of no more bits than it holds. -/
theorem ofBytes_mod (bs : List Byte) : ofBytes bs % 2 ^ (8 * bs.length) = ofBytes bs := by
  rw [← ofBytes_bytesOf, bytesOf_ofBytes]

namespace Machine

/-! Memory at home and the scratchpad. -/

theorem Mem.reads_writes {m : Mem} (h : Mem.wf m = true) (a : Nat) (bs : List Byte) :
    Mem.reads (Mem.writes m a bs) a bs.length = bs := by
  refine List.ext_getElem (by simp [Mem.reads]) fun k hk hk' => ?_
  simp [Mem.reads, Mem.read_writes h, hk']

theorem Mem.foldl_write_consecutive (m : Mem) (a : Nat) (bs : List Byte) :
    (bs.mapIdx fun i b => (a + i, b)).foldl (fun m c => Mem.write m c.1 c.2) m = Mem.writes m a bs := by
  induction bs generalizing m a with
  | nil => rfl
  | cons b r ih =>
    have next : (fun i (b : Byte) => (a + (i + 1), b)) = fun i b => (a + 1 + i, b) := by
      funext i b; rw [Nat.add_assoc, Nat.add_comm 1]
    rw [List.mapIdx_cons, next, List.foldl_cons, ih]
    rfl

theorem State.homeCells_mem (s : State) (cells : List Host.Cell) :
    (s.homeCells cells).mem = cells.foldl (fun m c => Mem.write m c.1 c.2) s.mem := by
  unfold State.homeCells
  split
  · rfl
  · dsimp only
    split
    · split <;> rfl
    · rfl

theorem State.homeBytes_mem (s : State) (pa : Nat) (bs : List Byte) : (s.homeBytes pa bs).mem = Mem.writes s.mem pa bs :=
  (State.homeCells_mem s _).trans (Mem.foldl_write_consecutive s.mem pa bs)

/-- A number whose bytes are performed at home is the number then held there. -/
theorem State.word_homeBytes {s : State} (h : s.memOk) (pa n v : Nat) :
    (s.homeBytes pa (bytesOf n v)).word pa n = v % 2 ^ (8 * n) := by
  have held := Mem.reads_writes h pa (bytesOf n v)
  rw [length_bytesOf] at held
  rw [State.word, State.bytes, State.homeBytes_mem, held, ofBytes_bytesOf]

theorem Block.read_write (b : Block) (a : Nat) (bs : List Byte) (h : Mem.wf (b.bytes.getD (spadRank a) []) = true) :
    (b.write a bs).read a bs.length = bs := by
  simp only [Block.read, Block.write, Tbl.getD_set_self, Mem.reads_writes h]

/-! Tiles. -/

/-- Replaced bits stand between the bits below them and the bits above them. -/
theorem putBits_eq (old p w v : Nat) : putBits old p w v = old % 2 ^ p + 2 ^ p * (v % 2 ^ w + 2 ^ w * (old / 2 ^ p / 2 ^ w)) := by
  have outer := Nat.mod_add_div old (2 ^ p)
  have inner := congrArg (2 ^ p * ·) (Nat.mod_add_div (old / 2 ^ p) (2 ^ w))
  simp only [Nat.mul_add] at inner
  simp only [putBits, Nat.shiftRight_eq_div_pow, Nat.shiftLeft_eq, Nat.mul_add, Nat.mul_comm _ (2 ^ p)]
  omega

theorem putBits_field (old p w v : Nat) : (putBits old p w v >>> p) % 2 ^ w = v % 2 ^ w := by
  rw [putBits_eq, Nat.shiftRight_eq_div_pow, Nat.add_mul_div_left _ _ (Nat.two_pow_pos p), Nat.div_eq_of_lt (Nat.mod_lt _ (Nat.two_pow_pos p)),
    Nat.zero_add, Nat.add_mul_mod_self_left, Nat.mod_mod]

/-- Truncation to `n` bits leaves a field that lies within them. -/
theorem ofNat_field {n p w : Nat} (h : p + w ≤ n) (x : Nat) : ((BitVec.ofNat n x).toNat >>> p) % 2 ^ w = (x >>> p) % 2 ^ w := by
  refine Nat.eq_of_testBit_eq fun i => ?_
  simp only [BitVec.toNat_ofNat, Nat.testBit_mod_two_pow, Nat.testBit_shiftRight]
  by_cases hi : i < w
  · simp [hi, show p + i < n by omega]
  · simp [hi]

/-- Bytes put into a tile's element storage are the bytes it holds there. -/
theorem Tile.bytes_put (t : Tile) {off : Nat} {bs : List Byte} (h : off + bs.length ≤ 8192) : (t.put off bs).bytes off bs.length = bs := by
  have within : 8 * off + 8 * bs.length ≤ 65536 := by omega
  rw [Tile.bytes, Tile.put, ofNat_field within, putBits_field, ofBytes_mod, bytesOf_ofBytes]

/-- An element of whole bytes is the number its bytes spell in row order (R208). -/
theorem Tile.code_eq_ofBytes (t : Tile) (cols n r c : Nat) :
    t.code cols (8 * n) r c = ofBytes (t.bytes (r * rowBytes cols (8 * n) + n * c) n) := by
  have place : 8 * r * rowBytes cols (8 * n) + c * (8 * n) = 8 * (r * rowBytes cols (8 * n) + n * c) := by ring
  rw [Tile.code, Tile.bytes, ofBytes_bytesOf, Nat.mod_mod, place]

/-! Register pairs. -/

theorem Regs.xs_pair (r : Regs) {d : Nat} (h : d ≠ 288) (l : Nat) :
    r.xs d 2 l = (r.x d l).toNat + 2 ^ 32 * (r.x (d + 1) l).toNat := by
  simp [Regs.xs, h, List.range_succ]

/-- Settles O55: bytes written to memory, the scratchpad and a tile are read back in their order, and that order is the least
significant byte first; a register pair has its low half in the first register. -/
theorem multiByteValuesAreLittleEndian : Obligations.MultiByteValuesAreLittleEndian := by
  refine ⟨fun s pa n v h => ⟨fun k hk => ?_, fun a ha => ?_, State.word_homeBytes h pa n v⟩, fun b a n v h => ?_,
    Tile.code_eq_ofBytes, fun t _ _ => Tile.bytes_put t, fun r d l _ hd => r.xs_pair (by omega) l⟩
  · rw [State.homeBytes_mem, Mem.read_writes h, length_bytesOf, if_pos (by omega), Nat.add_sub_cancel_left, getD_bytesOf hk]
  · rw [State.homeBytes_mem, Mem.read_writes h, length_bytesOf, if_neg (by omega)]
  · have held := Block.read_write b a (bytesOf n v) h
    rwa [length_bytesOf] at held

end Machine

end Sys2Proof
end

section
/-! Words and their bits (R45 to R66): the fields of a word are its bits, a word is read back from its bytes, and the row that a word
names stands for that word. -/

namespace Sys2Proof

/-! Packing fields into a word and taking them out of it are inverse (R48, R50, R53, R64). -/

theorem c16Fields_c16Bits (op : BitVec 4) (f : C16F) : c16Fields (c16Bits op f) = f ∧ (c16Bits op f).extractLsb' 2 4 = op := by
  obtain ⟨s, d, e⟩ := f
  simp only [c16Bits, c16Fields, C16F.mk.injEq, and_assoc]
  refine ⟨?_, ?_, ?_, ?_⟩
  all_goals repeat rw [BitVec.extractLsb'_append_eq_of_le (by decide)]
  · exact BitVec.extractLsb'_eq_self
  all_goals exact BitVec.extractLsb'_append_eq_right

theorem w32Fields_w32Bits (op : BitVec 6) (f : W32F) : w32Fields (w32Bits op f) = f ∧ (w32Bits op f).extractLsb' 4 6 = op := by
  obtain ⟨k, b, a, d, st, e⟩ := f
  simp only [w32Bits, w32Fields, W32F.mk.injEq, and_assoc]
  refine ⟨?_, ?_, ?_, ?_, ?_, ?_, ?_⟩
  all_goals repeat rw [BitVec.extractLsb'_append_eq_of_le (by decide)]
  · exact BitVec.extractLsb'_eq_self
  all_goals exact BitVec.extractLsb'_append_eq_right

theorem w64Fields_w64Bits (op : BitVec 8) (f : W64F) : w64Fields (w64Bits op f) = f ∧ (w64Bits op f).extractLsb' 4 8 = op := by
  obtain ⟨m12, c, b, a, d, gn, g, st, e⟩ := f
  simp only [w64Bits, w64Fields, W64F.mk.injEq, and_assoc]
  refine ⟨?_, ?_, ?_, ?_, ?_, ?_, ?_, ?_, ?_, ?_⟩
  all_goals repeat rw [BitVec.extractLsb'_append_eq_of_le (by decide)]
  · exact BitVec.extractLsb'_eq_self
  all_goals exact BitVec.extractLsb'_append_eq_right

theorem w64iFields_w64iBits (op : BitVec 8) (f : W64IF) : w64iFields (w64iBits op f) = f ∧ (w64iBits op f).extractLsb' 4 8 = op := by
  obtain ⟨imm, mod7, d, gn, g, st, e⟩ := f
  simp only [w64iBits, w64iFields, W64IF.mk.injEq, and_assoc]
  refine ⟨?_, ?_, ?_, ?_, ?_, ?_, ?_, ?_⟩
  all_goals repeat rw [BitVec.extractLsb'_append_eq_of_le (by decide)]
  · exact BitVec.extractLsb'_eq_self
  all_goals exact BitVec.extractLsb'_append_eq_right

theorem c16Bits_c16Fields {h : BitVec 16} (low : h.extractLsb' 0 1 = 0#1) : c16Bits (h.extractLsb' 2 4) (c16Fields h) = h := by
  rw [c16Bits, c16Fields, ← low]
  repeat rw [BitVec.extractLsb'_append_extractLsb'_eq_extractLsb' (by rfl)]
  exact BitVec.extractLsb'_eq_self

theorem w32Bits_w32Fields {w : BitVec 32} (low : w.extractLsb' 0 2 = 1#2) : w32Bits (w.extractLsb' 4 6) (w32Fields w) = w := by
  rw [w32Bits, w32Fields, ← low]
  repeat rw [BitVec.extractLsb'_append_extractLsb'_eq_extractLsb' (by rfl)]
  exact BitVec.extractLsb'_eq_self

theorem w64Bits_w64Fields {w : BitVec 64} (low : w.extractLsb' 0 2 = 3#2) : w64Bits (w.extractLsb' 4 8) (w64Fields w) = w := by
  rw [w64Bits, w64Fields, ← low]
  repeat rw [BitVec.extractLsb'_append_extractLsb'_eq_extractLsb' (by rfl)]
  exact BitVec.extractLsb'_eq_self

theorem w64iBits_w64iFields {w : BitVec 64} (low : w.extractLsb' 0 2 = 3#2) : w64iBits (w.extractLsb' 4 8) (w64iFields w) = w := by
  rw [w64iBits, w64iFields, ← low]
  repeat rw [BitVec.extractLsb'_append_extractLsb'_eq_extractLsb' (by rfl)]
  exact BitVec.extractLsb'_eq_self

/-! The first byte gives the length, and the bits of each format say the length of that format (R45). -/

theorem lengthOf_ofNat (v : Nat) : lengthOf (BitVec.ofNat 8 v) = if v % 2 = 0 then 2 else if v % 4 = 1 then 4 else 8 := by
  have half : v % 2 ^ 8 % 2 = v % 2 := by omega
  have quarter : v % 2 ^ 8 % 4 = v % 4 := by omega
  rw [lengthOf, BitVec.toNat_ofNat, half, quarter]

/-- The number whose bits a word is. -/
def Words.bits : Words → Nat
  | .c16 op f => (c16Bits op f).toNat
  | .w32 op f => (w32Bits op f).toNat
  | .w64 op f => (w64Bits op f).toNat
  | .w64i op f => (w64iBits op f).toNat

theorem Words.bytes_eq (w : Words) : w.bytes = bytesOf w.len w.bits := by cases w <;> rfl

theorem Words.bits_lt (w : Words) : w.bits < 2 ^ (8 * w.len) := by cases w <;> exact BitVec.isLt _

theorem Words.lengthOf_bits (w : Words) : lengthOf (BitVec.ofNat 8 w.bits) = w.len := by
  rw [lengthOf_ofNat]
  cases w with
  | c16 op f =>
    have low : (Words.c16 op f).bits % 2 = 0 := congrArg BitVec.toNat (BitVec.extractLsb'_append_eq_right (b := 0#1))
    rw [if_pos low, Words.len]
  | w32 op f =>
    have low : (Words.w32 op f).bits % 4 = 1 := congrArg BitVec.toNat (BitVec.extractLsb'_append_eq_right (b := 1#2))
    rw [if_neg (by omega), if_pos low, Words.len]
  | w64 op f =>
    have low : (Words.w64 op f).bits % 4 = 3 := congrArg BitVec.toNat (BitVec.extractLsb'_append_eq_right (b := 3#2))
    rw [if_neg (by omega), if_neg (by omega), Words.len]
  | w64i op f =>
    have low : (Words.w64i op f).bits % 4 = 3 := congrArg BitVec.toNat (BitVec.extractLsb'_append_eq_right (b := 3#2))
    rw [if_neg (by omega), if_neg (by omega), Words.len]

/-! Reading a word from its bytes, and the bytes of a word read. -/

theorem ofBytes_lt (bs : List Byte) : ofBytes bs < 2 ^ (8 * bs.length) := by
  rw [← ofBytes_mod]; exact Nat.mod_lt _ (Nat.two_pow_pos _)

/-- What a word that is read is: the fields of as many bytes as the first one names. -/
theorem readWords_eq_ok {bs : List Byte} {w : Words} {n : Nat} (h : readWords bs = .ok (w, n)) :
    n ≤ bs.length ∧ n = lengthOf (bs.headD 0) ∧ w = fieldsOf n (ofBytes (bs.take n)) := by
  cases bs with
  | nil => cases h
  | cons b r =>
    unfold readWords at h
    dsimp only at h
    split at h
    · cases h
    · next short => cases h; exact ⟨Nat.le_of_not_lt short, rfl, rfl⟩

/-- A list that holds as many bytes as its first one names is read. -/
theorem readWords_of_le {bs : List Byte} (h : lengthOf (bs.headD 0) ≤ bs.length) :
    readWords bs = .ok (fieldsOf (lengthOf (bs.headD 0)) (ofBytes (bs.take (lengthOf (bs.headD 0)))), lengthOf (bs.headD 0)) := by
  cases bs with
  | nil => cases h
  | cons b r => exact if_neg (Nat.not_lt.2 h)

theorem headD_bytesOf (n v : Nat) (rest : List Byte) : (bytesOf (n + 1) v ++ rest).headD 0 = BitVec.ofNat 8 v := by
  rw [bytesOf_succ]; rfl

theorem two_le_lengthOf (b : Byte) : 2 ≤ lengthOf b := by unfold lengthOf; split_ifs <;> decide

/-- Bytes that begin with the length they name are read as their fields, whatever follows them. -/
theorem readWords_bytesOf {n v : Nat} (rest : List Byte) (hn : lengthOf (BitVec.ofNat 8 v) = n) (hv : v < 2 ^ (8 * n)) :
    readWords (bytesOf n v ++ rest) = .ok (fieldsOf n v, n) := by
  have two := hn ▸ two_le_lengthOf (BitVec.ofNat 8 v)
  obtain ⟨k, rfl⟩ : ∃ k, n = k + 1 := ⟨n - 1, by omega⟩
  have whole : (bytesOf (k + 1) v ++ rest).take (k + 1) = bytesOf (k + 1) v := List.take_left' (length_bytesOf _ _)
  have first : lengthOf ((bytesOf (k + 1) v ++ rest).headD 0) = k + 1 := by rw [headD_bytesOf, hn]
  rw [readWords_of_le (by rw [first, List.length_append, length_bytesOf]; omega), first, whole, ofBytes_bytesOf, Nat.mod_eq_of_lt hv]

/-- The format that the op8 of a word of 64 bits belongs to is the one it is written in (R64). -/
def Words.formatOk : Words → Bool
  | .w64 op _ => !isW64I op.toNat
  | .w64i op _ => isW64I op.toNat
  | _ => true

theorem fieldsOf_bits {w : Words} (h : w.formatOk = true) : fieldsOf w.len w.bits = w := by
  cases w with
  | c16 op f =>
    obtain ⟨fields, code⟩ := c16Fields_c16Bits op f
    simp [fieldsOf, Words.len, Words.bits, fields, code]
  | w32 op f =>
    obtain ⟨fields, code⟩ := w32Fields_w32Bits op f
    simp [fieldsOf, Words.len, Words.bits, fields, code]
  | w64 op f =>
    obtain ⟨fields, code⟩ := w64Fields_w64Bits op f
    have plain : isW64I op.toNat = false := by simpa [Words.formatOk] using h
    simp [fieldsOf, Words.len, Words.bits, fields, code, plain]
  | w64i op f =>
    obtain ⟨fields, code⟩ := w64iFields_w64iBits op f
    have imm : isW64I op.toNat = true := h
    simp [fieldsOf, Words.len, Words.bits, fields, code, imm]

/-- A word is read back from its bytes, whatever follows them. -/
theorem readWords_bytes {w : Words} (h : w.formatOk = true) (rest : List Byte) : readWords (w.bytes ++ rest) = .ok (w, w.len) := by
  rw [w.bytes_eq, readWords_bytesOf rest w.lengthOf_bits w.bits_lt, fieldsOf_bits h]

/-- The word that a number is read as has that number for its bits. -/
theorem bits_fieldsOf {n v : Nat} (hn : lengthOf (BitVec.ofNat 8 v) = n) (hv : v < 2 ^ (8 * n)) :
    (fieldsOf n v).len = n ∧ (fieldsOf n v).bits = v := by
  rw [lengthOf_ofNat] at hn
  split_ifs at hn with even one <;> subst hn
  · have low : (BitVec.ofNat 16 v).extractLsb' 0 1 = 0#1 := BitVec.eq_of_toNat_eq (by simp; omega)
    exact ⟨rfl, (congrArg BitVec.toNat (c16Bits_c16Fields low)).trans (Nat.mod_eq_of_lt hv)⟩
  · have low : (BitVec.ofNat 32 v).extractLsb' 0 2 = 1#2 := BitVec.eq_of_toNat_eq (by simp; omega)
    exact ⟨rfl, (congrArg BitVec.toNat (w32Bits_w32Fields low)).trans (Nat.mod_eq_of_lt hv)⟩
  · have low : (BitVec.ofNat 64 v).extractLsb' 0 2 = 3#2 := BitVec.eq_of_toNat_eq (by simp; omega)
    simp only [fieldsOf, show ¬ 8 = 2 by decide, show ¬ 8 = 4 by decide, if_false]
    split
    · exact ⟨rfl, (congrArg BitVec.toNat (w64iBits_w64iFields low)).trans (Nat.mod_eq_of_lt hv)⟩
    · exact ⟨rfl, (congrArg BitVec.toNat (w64Bits_w64Fields low)).trans (Nat.mod_eq_of_lt hv)⟩

/-- The bytes of a word that is read are the bytes it was read from. -/
theorem bytes_of_readWords {bs : List Byte} {w : Words} {n : Nat} (h : readWords bs = .ok (w, n)) :
    n ≤ bs.length ∧ w.bytes = bs.take n := by
  obtain ⟨le, len, rfl⟩ := readWords_eq_ok h
  have back := bytesOf_ofBytes (bs.take n)
  have lt := ofBytes_lt (bs.take n)
  rw [List.length_take_of_le le] at back lt
  have first : BitVec.ofNat 8 (ofBytes (bs.take n)) = bs.headD 0 := by
    have two := len ▸ two_le_lengthOf (bs.headD 0)
    obtain ⟨k, rfl⟩ : ∃ k, n = k + 1 := ⟨n - 1, by omega⟩
    rw [← headD_bytesOf k _ (bs.drop (k + 1)), back, List.take_append_drop]
  obtain ⟨hl, hb⟩ := bits_fieldsOf (by rw [first, len]) lt
  rw [Words.bytes_eq, hl, hb]
  exact ⟨le, back⟩

/-! The row that a word names (R49, R52, R65, R66). -/

/-- Every row of a table stands for the word of its code, whatever the fields. -/
def RowsStandFor {α : Type} (mk : Nat → α → Words) : List (Nat × (α → Instr)) → Prop
  | [] => True
  | (k, c) :: r => (∀ f, (c f).words = some (mk k f) ∧ (c f).modeOk = true) ∧ RowsStandFor mk r

/-- A row that is found stands for the code it was looked up by. -/
theorem RowsStandFor.of_findRow {α : Type} {mk : Nat → α → Words} {t : List (Nat × (α → Instr))} (h : RowsStandFor mk t) {op : Nat}
    {c : α → Instr} (hc : findRow t op = some c) (f : α) : (c f).words = some (mk op f) ∧ (c f).modeOk = true := by
  induction t with
  | nil => cases hc
  | cons p r ih =>
    rw [findRow] at hc
    split at hc
    · next code => cases hc; exact code ▸ h.1 f
    · exact ih h.2 hc

theorem c16Ctors_standFor : RowsStandFor (fun k => .c16 (BitVec.ofNat 4 k)) c16Ctors := by
  repeat refine ⟨fun _ => ⟨rfl, rfl⟩, ?_⟩
  trivial

theorem w32Ctors_standFor : RowsStandFor (fun k => .w32 (BitVec.ofNat 6 k)) w32Ctors := by
  repeat refine ⟨fun _ => ⟨rfl, rfl⟩, ?_⟩
  trivial

theorem w64Ctors_standFor : RowsStandFor (fun k => .w64 (BitVec.ofNat 8 k)) w64Ctors := by
  repeat refine ⟨fun _ => ⟨rfl, rfl⟩, ?_⟩
  trivial

theorem w64iCtors_standFor : RowsStandFor (fun k => .w64i (BitVec.ofNat 8 k)) w64iCtors := by
  repeat refine ⟨fun _ => ⟨rfl, rfl⟩, ?_⟩
  trivial

theorem splitRow_standsFor {op : BitVec 8} {f : W64F} {i : Instr} (h : splitRow op.toNat f = some i) :
    i.words = some (.w64 op f) ∧ i.modeOk = true := by
  have code {k : Nat} (hk : op.toNat = k) : op = BitVec.ofNat 8 k := by rw [← hk, BitVec.ofNat_toNat, BitVec.setWidth_eq]
  unfold splitRow at h
  split_ifs at h with sleept mode mmrg peer sctadv amax off <;> cases h
  · rw [code sleept]; exact ⟨rfl, beq_iff_eq.2 mode⟩
  · rw [code sleept]; exact ⟨rfl, bne_iff_ne.2 mode⟩
  · rw [code mmrg]; exact ⟨rfl, beq_iff_eq.2 peer⟩
  · rw [code mmrg]; exact ⟨rfl, bne_iff_ne.2 peer⟩
  · rw [code sctadv]; exact ⟨rfl, beq_iff_eq.2 amax⟩
  · rw [code sctadv]; exact ⟨rfl, beq_iff_eq.2 off⟩
  · rw [code sctadv]
    refine ⟨rfl, ?_⟩
    have rest : ∀ m : BitVec 2, m ≠ 1#2 → m ≠ 2#2 → (m == 0#2 || m == 3#2) = true := by decide
    exact rest _ amax off

/-- A row that a word names stands for that word and holds its mode code. -/
theorem words_of_instr {w : Words} {i : Instr} (h : w.instr = .ok i) : i.words = some w ∧ i.modeOk = true := by
  cases w with
  | c16 op f =>
    simp only [Words.instr] at h
    split at h
    · next c found => cases h; simpa using c16Ctors_standFor.of_findRow found f
    · cases h
  | w32 op f =>
    simp only [Words.instr] at h
    split at h
    · next c found => cases h; simpa using w32Ctors_standFor.of_findRow found f
    · cases h
  | w64 op f =>
    simp only [Words.instr] at h
    split at h
    · next found => cases h; exact splitRow_standsFor found
    · split at h
      · next c found => cases h; simpa using w64Ctors_standFor.of_findRow found f
      · cases h
  | w64i op f =>
    simp only [Words.instr] at h
    split at h
    · next c found => cases h; simpa using w64iCtors_standFor.of_findRow found f
    · cases h

theorem wellFormed_of_words {i : Instr} {w : Words} (hw : i.words = some w) (hm : i.modeOk = true) : i.wellFormed = true := by
  simp [Instr.wellFormed, Instr.isEvent, hw, hm]

/-- The words of a well-formed instruction name it again: only the rows that share an op8 look at their mode code. -/
theorem instr_of_words {i : Instr} {w : Words} (hf : i.wellFormed = true) (hw : i.words = some w) : w.instr = .ok i := by
  suffices Laws.RoundTrip.Statement i from this w hf hw
  cases i
  case sleept f => exact Laws.RoundTrip.sleept f
  case sleeptProm f => exact Laws.RoundTrip.sleeptProm f
  case mmrg f => exact Laws.RoundTrip.mmrg f
  case mmrgPeer f => exact Laws.RoundTrip.mmrgPeer f
  case sctadv f => exact Laws.RoundTrip.sctadv f
  case sctadvAmax f => exact Laws.RoundTrip.sctadvAmax f
  case sctadvOff f => exact Laws.RoundTrip.sctadvOff f
  all_goals intro _ _ stands; cases stands <;> rfl

/-- An instruction's op8 belongs to the format that it is written in. -/
theorem formatOk_of_words {i : Instr} {w : Words} (h : i.words = some w) : w.formatOk = true := by
  cases i <;> cases h <;> rfl

theorem decode_eq_ok {bs : List Byte} {i : Instr} {n : Nat} :
    decode bs = .ok (i, n) ↔ ∃ w, readWords bs = .ok (w, n) ∧ w.instr = .ok i := by
  unfold decode
  constructor
  · intro h
    split at h
    · cases h
    · next w m read =>
      split at h
      · next j row => cases h; exact ⟨w, read, row⟩
      · cases h
  · rintro ⟨w, read, row⟩
    rw [read]
    dsimp only
    rw [row]

/-- Settles O52: a word is read back from its bytes and names the row that stands for it, and a word that is read has the bytes it was read
from and stands for the row that it names. -/
theorem decodeInvertsEncode : Obligations.DecodeInvertsEncode := by
  refine ⟨fun i hf => ?_, fun bs i n h => ?_⟩
  · obtain ⟨w, hw⟩ : ∃ w, i.words = some w := by
      cases hw : i.words with
      | none => simp [Instr.wellFormed, Instr.isEvent, hw] at hf
      | some w => exact ⟨w, rfl⟩
    have len : w.bytes.length = w.len := by rw [Words.bytes_eq, length_bytesOf]
    refine ⟨w.bytes, by rw [encode, hw]; rfl, fun rest => ?_⟩
    rw [len]
    exact decode_eq_ok.2 ⟨w, readWords_bytes (formatOk_of_words hw) rest, instr_of_words hf hw⟩
  · obtain ⟨w, read, row⟩ := decode_eq_ok.1 h
    obtain ⟨hw, hm⟩ := words_of_instr row
    obtain ⟨le, bytes⟩ := bytes_of_readWords read
    exact ⟨wellFormed_of_words hw hm, le, by rw [encode, hw, Option.map_some, bytes]⟩

end Sys2Proof
end

section
/-! The encoding checks and the traps they raise (R68 to R70): a reserved op8, a handler instruction outside a handler, and the first check
that fails. -/

namespace Sys2Proof.Machine

/-! What issues. -/

/-- An operation issues the instruction its word stands for. -/
theorem exec_eq_issue {i : Instr} {w : Words} (hw : i.words = some w) : ∃ eff, ∀ s, exec i s = issue (insOfWords w) eff s := by
  cases i <;> cases hw <;> exact ⟨_, fun _ => rfl⟩

/-- An instruction that fails a check traps with its cause, before its effect (R70). -/
theorem issue_failedCheck {s : State} {ins : Ins} {x : Iss} {c : Cause} (eff : Iss → State → Eff) (hi : s.issuer ins = some x)
    (hs : s.unsettled x = false) (hc : x.ins.check (s.bounds x) = some c) :
    issue ins eff s = .next (s.raise x.gid x.slot (x.fault c)) := by
  simp [issue, hi, State.issued, hs, State.checked, hc]

/-! The checks in their order (R70). -/

theorem Ins.check_eq_none {i : Ins} {bd : Bounds} (h : i.check bd = none) :
    ∃ o, opInfo i.op = some o ∧ i.opcodeBad o bd.handler = false ∧ i.privBad bd.handler = false ∧ i.operandBad o bd = false := by
  unfold Ins.check at h
  split at h
  · cases h
  · next o info =>
    split_ifs at h with opcode priv operand
    exact ⟨o, info, eq_false_of_ne_true opcode, eq_false_of_ne_true priv, eq_false_of_ne_true operand⟩

theorem Ins.check_eq_priv {i : Ins} {bd : Bounds} {o : OpInfo} (info : opInfo i.op = some o) (opcode : i.opcodeBad o bd.handler = false)
    (priv : i.privBad bd.handler = true) : i.check bd = some .priv := by
  simp [Ins.check, info, opcode, priv]

/-- An instruction without an ILLEGAL_OPCODE is in the tables and has no reserved field set. -/
theorem Ins.opcodeOk_of_check {i : Ins} {bd : Bounds} (h : i.check bd ≠ some .illegalOpcode) :
    ∃ o, opInfo i.op = some o ∧ i.opcodeBad o bd.handler = false := by
  unfold Ins.check at h
  split at h
  · exact absurd rfl h
  · next o info =>
    refine ⟨o, info, ?_⟩
    by_contra opcode
    exact h (if_pos (eq_true_of_ne_false opcode))

/-- The instructions that only a handler may run, by op8 (R68). -/
def handlerOps : List Nat := [0xCB, 0xCC, 0xCD, 0xCE]

theorem Ins.privBad_of_handlerOp {i : Ins} (h : i.op ∈ handlerOps) : i.privBad false = true := by
  simpa [Ins.privBad, handlerOps] using h

/-- None of them is among the operations that a handler may not use (R193). -/
theorem Ins.opcodeBad_of_handlerOp {i : Ins} (h : i.op ∈ handlerOps) (o : OpInfo) : i.opcodeBad o true = i.opcodeBad o false := by
  have free : (true && (decide (0xD0 ≤ i.op ∧ i.op < 0xF0) ||
      [0x6C, 0xC0, 0xC1, 0xC2, 0xC3, 0xC4, 0xC5, 0xC6, 0xC7, 0xC8, 0xC9].contains i.op)) = false := by
    revert h; generalize i.op = op; revert op
    simp [handlerOps]
  simp only [Ins.opcodeBad, free, Bool.false_and]

/-- Settles O31: what a handler instruction issues with outside a handler fails the check of R68, which is the first that can fail once none of
its fields is reserved. -/
theorem handlerInstructionsNeedAHandler : Obligations.HandlerInstructionsNeedAHandler := by
  intro i s x hop
  refine ⟨fun ready => ?_, fun word issuer settled outside opcode => ?_⟩
  · obtain ⟨o, -, -, priv, -⟩ := Ins.check_eq_none ready.checks
    by_contra outside
    rw [show (s.bounds x).handler = false from eq_false_of_ne_true outside, Ins.privBad_of_handlerOp hop] at priv
    cases priv
  · obtain ⟨w, hw, hx⟩ := Option.map_eq_some_iff.1 word
    obtain ⟨eff, runs⟩ := exec_eq_issue hw
    obtain ⟨o, info, legal⟩ := Ins.opcodeOk_of_check opcode
    have priv : x.ins.check (s.bounds x) = some .priv := by
      refine Ins.check_eq_priv info ?_ ?_ <;> rw [show (s.bounds x).handler = false from outside]
      · rw [← Ins.opcodeBad_of_handlerOp hop]; exact legal
      · exact Ins.privBad_of_handlerOp hop
    rw [runs, hx, issue_failedCheck eff issuer settled priv]
    rfl

/-! Reserved codes. -/

/-- The codes of R69 that no row has. -/
def isReservedOp8 (n : Nat) : Bool :=
  (decide (0x22 ≤ n) && decide (n ≤ 0x2F)) || (decide (0x52 ≤ n) && decide (n ≤ 0x5F)) || (decide (0x6D ≤ n) && decide (n ≤ 0x6F)) ||
    (decide (0x76 ≤ n) && decide (n ≤ 0x7F)) || (decide (0x8D ≤ n) && decide (n ≤ 0x8F)) || (decide (0xA0 ≤ n) && decide (n ≤ 0xAF)) ||
    (decide (0xEE ≤ n) && decide (n ≤ 0xEF)) || decide (0xF7 ≤ n)

theorem findRow_eq_none {α : Type} {t : List (Nat × (α → Instr))} {n : Nat} (h : n ∉ t.map Prod.fst) : findRow t n = none := by
  induction t with
  | nil => rfl
  | cons p r ih =>
    rw [List.map_cons, List.mem_cons, not_or] at h
    rw [findRow, if_neg (Ne.symm h.1), ih h.2]

theorem reserved_noRow {n : Nat} (h : isReservedOp8 n = true) : findRow w64Ctors n = none ∧ findRow w64iCtors n = none := by
  have w64 : ∀ k ∈ w64Ctors.map Prod.fst, isReservedOp8 k = false := by decide +kernel
  have w64i : ∀ k ∈ w64iCtors.map Prod.fst, isReservedOp8 k = false := by decide +kernel
  exact ⟨findRow_eq_none fun row => by simp [w64 n row] at h, findRow_eq_none fun row => by simp [w64i n row] at h⟩

theorem reserved_noSplitRow {n : Nat} (h : isReservedOp8 n = true) (f : W64F) : splitRow n f = none := by
  unfold splitRow
  split_ifs with sleept mmrg sctadv
  · subst sleept; cases h
  · subst mmrg; cases h
  · subst sctadv; cases h
  · rfl

theorem reserved_refused {op : BitVec 8} (h : isReservedOp8 op.toNat = true) (f : W64F) (g : W64IF) :
    (Words.w64 op f).instr = .error (.reservedOp8 op.toNat) ∧ (Words.w64i op g).instr = .error (.reservedOp8 op.toNat) := by
  obtain ⟨w64, w64i⟩ := reserved_noRow h
  simp only [Words.instr, reserved_noSplitRow h, w64, w64i, and_self]

/-- Settles O53: a reserved code is in no table of rows, so that its word has no row and its issue is the trap of R70; the check that fails first
decides the cause of an instruction's trap. -/
theorem reservedCodesAndFailedChecksTrap : Obligations.ReservedCodesAndFailedChecksTrap := by
  refine ⟨⟨fun op f g h => reserved_refused ?_ f g, fun s part w e r run row => ?_⟩, fun i s x w c hw issuer settled failed => ?_⟩
  · simp only [isReservedOp8, Bool.or_eq_true, Bool.and_eq_true, decide_eq_true_eq]
    omega
  · simp only [State.issueStep, run, row]
    rfl
  · obtain ⟨eff, runs⟩ := exec_eq_issue hw
    rw [runs, issue_failedCheck eff issuer settled failed]
    rfl

end Sys2Proof.Machine
end

section
/-! The immediate forms and GCMP (R65, R191). -/

namespace Sys2Proof.Machine

theorem Ready.ins_eq {s : State} {i : Instr} {x : Iss} (h : Ready s i x) {w : Words} (hw : i.words = some w) : x.ins = insOfWords w := by
  have word := h.word
  rw [hw] at word
  exact (Option.some.inj word).symm

theorem raised_zero (x : Iss) : raised x (fun _ => 0) = 0 := by simp [raised]

theorem oneUni_eq_toUniform (d : Nat) (w : Word) : oneUni d w = toUniform d 1 w.toNat := by
  funext c l
  unfold oneUni toUniform
  by_cases hc : c = d ∧ 128 ≤ c ∧ c < 288
  · obtain ⟨rfl, range⟩ := hc
    rw [if_pos ⟨rfl, range⟩, if_pos ⟨le_rfl, by omega, range⟩]
    simp
  · rw [if_neg hc, if_neg (by omega)]

/-- Writes that free no register are writes that may free some. -/
theorem Writes.mayFree {s t : State} {x : Iss} {d : Nat → Nat → Option Word} {p : Nat → Nat → Option Bool} {f : Flags}
    (h : Writes s t x [] d p f) (r : List Nat) : Writes s t x r d p f :=
  { h with kept := fun c l hl hn _ => h.kept c l hl hn List.not_mem_nil }

/-- A ready operation within the cap, whose effect only writes registers once that is checked (R185). -/
theorem Ready.cappedResult {s : State} {i : Instr} {x : Iss} (h : Ready s i x) (room : s.overCap x x.ins.dsts = false) {eff : Iss → State → Eff}
    {t : State} {d : Nat → Nat → Option Word} {p : Nat → Nat → Option Bool} {f : Flags}
    (ho : effectOf x.ins.op = some (capped Ins.dsts eff)) (he : eff x s = .done t) (hw : Writes s t x x.lastOnes d p f) :
    ∃ t, exec i s = .next t ∧ Result s t x d p f :=
  h.result ho (by rw [capped, if_neg (by simp [room]), he]) hw

/-- A lane form whose lanes each receive one word made of what D holds (R65). -/
theorem Ready.laneImmResult {s : State} {i : Instr} {x : Iss} (h : Ready s i x) (room : s.overCap x x.ins.dsts = false)
    {f : Iss → Args → Nat × Flags}
    (ho : effectOf x.ins.op = some (capped Ins.dsts fun i s => laneValN 1 (f i) i s)) :
    ∃ t, exec i s = .next t ∧ Result s t x (toLanes x 1 fun l => (f x ((s.regs x).args x l)).1) noPred
      (raised x fun l => (f x ((s.regs x).args x l)).2) := by
  obtain ⟨t, done, writes⟩ := laneValN_writes 1 (f x) x s
  exact h.cappedResult room ho done writes

/-- The predicates that GCMP and GCMPI may name are q0 to q3, or a check fails (R56, R65). -/
theorem Ready.gcmp_names {s : State} {f : W64F} {x : Iss} (h : Ready s (.gcmp f) x) : 8 ≤ x.ins.d ∧ x.ins.d < 12 := by
  obtain ⟨o, info, -, -, operands⟩ := Ins.check_eq_none h.checks
  have op : x.ins.op = 0xB9 := by rw [h.ins_eq rfl]; rfl
  rw [op] at info
  cases info
  have names : x.ins.operandOk (s.bounds x) (.between 8 11) x.ins.d = true := by
    by_contra bad
    simp [Ins.operandBad, Ins.kinds, op, uniI, bad] at operands
  simp only [Ins.operandOk, Bool.and_eq_true, decide_eq_true_eq] at names
  omega

theorem Ready.gcmpi_names {s : State} {f : W64IF} {x : Iss} (h : Ready s (.gcmpi f) x) : x.ins.mod7 % 8 < 4 := by
  obtain ⟨o, info, opcode, -, -⟩ := Ins.check_eq_none h.checks
  have op : x.ins.op = 0xF5 := by rw [h.ins_eq rfl]; rfl
  rw [op] at info
  cases info
  have bit : x.ins.mod7.testBit 2 = false := by
    simp only [Ins.opcodeBad, op, immI, Bool.or_eq_false_iff] at opcode
    obtain ⟨⟨⟨-, bit⟩, -⟩, -⟩ := opcode
    exact bit
  rw [Nat.testBit_eq_decide_div_mod_eq, decide_eq_false_iff_not] at bit
  omega

/-- Settles O5: each form writes the registers or the predicate it names, once the cap leaves room. -/
theorem immediateFormsWriteTheirResults : Obligations.ImmediateFormsWriteTheirResults := by
  intro f s x
  refine ⟨fun ready room => ?movi, fun ready room => ?iaddi, fun ready room => ?andi, fun ready => ?icmpi, fun ready => ?gmovi,
    fun ready => ?gaddi, fun ready => ?gcmpi, fun g ready => ?gcmp⟩
  case movi =>
    exact ready.cappedResult room (by rw [ready.ins_eq rfl]; rfl) rfl ((State.writeTable_writes s x 1 _).mayFree _)
  case iaddi => exact ready.laneImmResult room (by rw [ready.ins_eq rfl]; rfl)
  case andi =>
    have done := ready.laneImmResult room (f := fun i a => (a.old &&& i.ins.imm.toNat, 0)) (by rw [ready.ins_eq rfl]; rfl)
    rwa [raised_zero] at done
  case icmpi => exact ready.result (by rw [ready.ins_eq rfl]; rfl) rfl ((State.writeP_writes s x _ _).mayFree _)
  case gmovi =>
    have writes := State.writeU_writes s x x.ins.d x.ins.imm
    rw [oneUni_eq_toUniform] at writes
    exact ready.result (by rw [ready.ins_eq rfl]; rfl) rfl (writes.mayFree _)
  case gaddi =>
    have writes := State.writeU_writes s x x.ins.d ((s.regs x).x x.ins.d 0 + x.ins.imm)
    rw [oneUni_eq_toUniform] at writes
    exact ready.result (by rw [ready.ins_eq rfl]; rfl) rfl (writes.mayFree _)
  case gcmpi =>
    have names := ready.gcmpi_names
    exact ready.result (by rw [ready.ins_eq rfl]; rfl) rfl ((State.writeQ_writes s x _ _ (by omega)).mayFree _)
  case gcmp =>
    obtain ⟨-, -, -, -, cc, -, -⟩ := regs_args_op (s := s) (op := 0xB9) (by rw [ready.ins_eq rfl]; rfl) rfl 0
    have writes := (State.writeQ_writes s x x.ins.d (mergePred x.ins.opx ((s.regs x).pred x.ins.d 0)
      (compareCc x.ins.c 32 ((s.regs x).args x 0).a ((s.regs x).args x 0).b)) ready.gcmp_names).mayFree x.lastOnes
    refine ready.result (by rw [ready.ins_eq rfl]; rfl) ?_ writes
    simp only [gcmpEff, cc]

end Sys2Proof.Machine
end

section
/-! The first halfword and the zero halfword (R45), and the worked encodings (R71, R115, R197). -/

namespace Sys2Proof

theorem ofBytes_append (a b : List Byte) : ofBytes (a ++ b) = ofBytes a + 2 ^ (8 * a.length) * ofBytes b := by
  induction a with
  | nil => simp [ofBytes]
  | cons x r ih =>
    rw [List.cons_append, ofBytes, ofBytes, ih, List.length_cons, Nat.mul_succ, Nat.pow_add]
    ring

/-- The low 16 bits of a number of at least two bytes are its first halfword. -/
theorem ofBytes_take_halfword (h : BitVec 16) (rest : List Byte) {n : Nat} (two : 2 ≤ n) :
    ofBytes ((bytesOf 2 h.toNat ++ rest).take n) % 2 ^ 16 = h.toNat := by
  have split : (bytesOf 2 h.toNat ++ rest).take n = bytesOf 2 h.toNat ++ rest.take (n - 2) := by
    rw [List.take_append, length_bytesOf, List.take_of_length_le (by rw [length_bytesOf]; exact two)]
  rw [split, ofBytes_append, length_bytesOf, Nat.add_mul_mod_self_left, ofBytes_bytesOf, Nat.mod_mod, Nat.mod_eq_of_lt h.isLt]

theorem lengthOf_halfword (h : BitVec 16) (rest : List Byte) :
    lengthOf ((bytesOf 2 h.toNat ++ rest).headD 0) = if h.toNat % 2 = 0 then 2 else if h.toNat % 4 = 1 then 4 else 8 := by
  rw [headD_bytesOf, lengthOf_ofNat]

/-- The op8 of a word of 64 bits stands in its first halfword (R53, R64). -/
theorem fieldsOf_eight {h : BitVec 16} {v : Nat} (low : v % 2 ^ 16 = h.toNat) :
    ((h.extractLsb' 4 8).toNat < 0xF0 → ∃ f, fieldsOf 8 v = .w64 (h.extractLsb' 4 8) f) ∧
      (0xF0 ≤ (h.extractLsb' 4 8).toNat → ∃ f, fieldsOf 8 v = .w64i (h.extractLsb' 4 8) f) := by
  have code : (BitVec.ofNat 64 v).extractLsb' 4 8 = h.extractLsb' 4 8 := BitVec.eq_of_toNat_eq (by
    simp only [BitVec.extractLsb'_toNat, BitVec.toNat_ofNat, Nat.shiftRight_eq_div_pow]; omega)
  have eight : fieldsOf 8 v = if isW64I (h.extractLsb' 4 8).toNat then .w64i (h.extractLsb' 4 8) (w64iFields (BitVec.ofNat 64 v))
      else .w64 (h.extractLsb' 4 8) (w64Fields (BitVec.ofNat 64 v)) := by rw [← code]; rfl
  refine ⟨fun lt => ⟨_, eight.trans (if_neg ?_)⟩, fun le => ⟨_, eight.trans (if_pos ?_)⟩⟩
  · simpa [isW64I] using lt
  · simpa [isW64I] using le

/-- The length and the format that the low bits of the first halfword name (R45). -/
theorem halfword_format {h : BitVec 16} {rest : List Byte} {w : Words} {n : Nat} (read : readWords (bytesOf 2 h.toNat ++ rest) = .ok (w, n)) :
    (h.getLsbD 0 = false → n = 2 ∧ ∃ op f, w = .c16 op f) ∧
    (h.extractLsb' 0 2 = 1#2 → n = 4 ∧ ∃ op f, w = .w32 op f) ∧
    (h.extractLsb' 0 2 = 3#2 → n = 8 ∧
      ((h.extractLsb' 4 8).toNat < 0xF0 → ∃ f, w = .w64 (h.extractLsb' 4 8) f) ∧
      (0xF0 ≤ (h.extractLsb' 4 8).toNat → ∃ f, w = .w64i (h.extractLsb' 4 8) f)) := by
  obtain ⟨-, len, rfl⟩ := readWords_eq_ok read
  rw [lengthOf_halfword] at len
  refine ⟨fun even => ?_, fun one => ?_, fun three => ?_⟩
  · have low : h.toNat % 2 = 0 := by simpa [BitVec.getLsbD, Nat.testBit_zero] using even
    rw [if_pos low] at len
    subst len
    exact ⟨rfl, _, _, rfl⟩
  · have low : h.toNat % 4 = 1 := congrArg BitVec.toNat one
    rw [if_neg (by omega), if_pos low] at len
    subst len
    exact ⟨rfl, _, _, rfl⟩
  · have low : h.toNat % 4 = 3 := congrArg BitVec.toNat three
    rw [if_neg (by omega), if_neg (by omega)] at len
    subst len
    exact ⟨rfl, fieldsOf_eight (ofBytes_take_halfword h rest (by decide))⟩

namespace Machine

/-- The next instruction's place and the end of a run are no name. -/
theorem State.advance_names (s : State) (x : Iss) : ((s.advance x).group x.gid).names = (s.group x.gid).names := by
  unfold State.advance
  split
  · rw [State.endRun_eq]; simp; rfl
  · simp; rfl

theorem selfMove_movC16 {f : C16F} (same : f.s = f.d) : (insC16 0 f).selfMove = true := by
  simp [insC16, c16Map, shortFields, Ins.selfMove, Ins.a, Ins.d, Ins.last, same]

/-- A MOV of a register to itself goes on with every register and name as it was (R179). -/
theorem Ready.selfMove {s : State} {i : Instr} {x : Iss} (h : Ready s i x) (op : x.ins.op = 0x69) (self : x.ins.selfMove = true) :
    exec i s = .next (s.advance x) := by
  rw [h.exec_eq (eff := movEff) (by rw [op]; rfl), movEff, if_pos self, Eff.settle]

/-- Settles O51: the first byte says how many bytes are read, and the halfword's own bits are the low bits of what is read. -/
theorem firstBitsGiveLength : Obligations.FirstBitsGiveLength := by
  refine ⟨fun h rest w n => halfword_format, fun h rest long => ?_, fun rest => ?_, fun f s x same ready => ?_⟩
  · refine ⟨_, _, readWords_of_le ?_⟩
    rw [lengthOf_halfword, List.length_append, length_bytesOf]
    split_ifs <;> omega
  · have zero : (Words.c16 0 { s := 0, d := 0, e := 0 }).bytes = [0#8, 0#8] := by decide
    have read := readWords_bytes (w := .c16 0 { s := 0, d := 0, e := 0 }) rfl rest
    rw [zero] at read
    exact decode_eq_ok.2 ⟨_, read, rfl⟩
  · have ins := ready.ins_eq (w := .c16 0 f) rfl
    obtain ⟨core, part⟩ := ready.place
    exact ⟨s.advance x, ready.selfMove (by rw [ins]; rfl) (by rw [ins]; exact selfMove_movC16 same), (Writes.refl' s x).advance core part,
      s.advance_names x⟩

/-- Settles O54: each word is closed, and the decoder evaluates it. -/
theorem workedWordsDecode : Obligations.WorkedWordsDecode := by
  refine ⟨?_, ?_, ?_, ?_, ?_, ?_, ?_, ?_⟩ <;> decide +kernel

end Machine

end Sys2Proof
end

section
/-! A step runs what its bytes decode to (R45, R71, R153, R164). -/

namespace Sys2Proof.Machine

/-! Fetching. -/

/-- Bytes that are all in the instruction cache are fetched. -/
theorem Core.codeBytes_eq_ok (c : Core) (ctx : Nat) {a : CodeAddr} {bs : List Byte}
    (h : ∀ k, k < bs.length → c.codeByte ctx (a + BitVec.ofNat 56 k) = some (.ok (bs.getD k 0))) : c.codeBytes ctx a bs.length = .ok bs := by
  induction bs generalizing a with
  | nil => rfl
  | cons b r ih =>
    have first : c.codeByte ctx a = some (.ok b) := by simpa using h 0 (by simp)
    have later : c.codeBytes ctx (a + 1) r.length = .ok r := ih fun k hk => by
      have next : a + 1 + BitVec.ofNat 56 k = a + BitVec.ofNat 56 (k + 1) := by
        rw [BitVec.add_assoc, BitVec.add_comm 1, BitVec.ofNat_add]; rfl
      rw [next, h (k + 1) (by simpa using hk), List.getD_cons_succ]
    rw [List.length_cons, Core.codeBytes, first]
    dsimp only
    rw [later]

/-- The bytes of one word at an address are fetched as that word (R45, R71). -/
theorem Core.fetch_eq_words (c : Core) (ctx : Nat) {a : CodeAddr} {bs : List Byte} {w : Words}
    (h : ∀ k, k < bs.length → c.codeByte ctx (a + BitVec.ofNat 56 k) = some (.ok (bs.getD k 0)))
    (read : readWords bs = .ok (w, bs.length)) : c.fetch ctx a = .words w := by
  obtain ⟨-, len, -⟩ := readWords_eq_ok read
  have two := len ▸ two_le_lengthOf (bs.headD 0)
  have first : c.codeBytes ctx a 1 = .ok (bs.take 1) := by
    have one : (bs.take 1).length = 1 := List.length_take_of_le (by omega)
    have fetched := c.codeBytes_eq_ok ctx (a := a) (bs := bs.take 1) fun k hk => by
      rw [h k (by omega), List.getD_eq_getElem?_getD, List.getD_eq_getElem?_getD, List.getElem?_take_of_lt (by omega)]
    rwa [one] at fetched
  have head : (bs.take 1).headD 0 = bs.headD 0 := by cases bs <;> rfl
  rw [Core.fetch, first]
  dsimp only
  rw [head, ← len, c.codeBytes_eq_ok ctx h]
  dsimp only
  rw [read]

/-! The move of a core whose partition's turn it is. -/

theorem State.partMove_eq_run {s : State} {core part : Nat} {r : Run} {w : Words} (turn : (s.core core).phase ≤ part + 1)
    (run : (s.part core part).run = some r) (goes : r.ended = false) (fetch : s.fetchAt r.gid r.slot = .words w)
    (room : s.slotFor r (s.issAt r.gid r.slot (insOfWords w)) = true) (commits : s.commits r.gid r.slot = false) :
    s.partMove core part = some (.run part w) := by
  simp [State.partMove, Nat.not_lt.2 turn, run, goes, fetch, room, commits]

theorem findSome?_range {α : Type} {f : Nat → Option α} {n k : Nat} {x : α} (hk : k < n) (before : ∀ j, j < k → f j = none)
    (here : f k = some x) : (List.range n).findSome? f = some x := by
  obtain ⟨m, rfl⟩ : ∃ m, n = k + (m + 1) := ⟨n - k - 1, by omega⟩
  rw [List.range_add, List.findSome?_append, List.findSome?_eq_none_iff.2 fun j hj => before j (List.mem_range.1 hj), List.range_succ_eq_map]
  simp [here]

theorem State.nextMove_eq {s : State} {core part : Nat} {m : Move} (quiet : s.dueEvent core = none) (hp : part < 12)
    (before : ∀ p, p < part → s.partMove core p = none) (here : s.partMove core part = some m) : s.nextMove core = m := by
  rw [State.nextMove, quiet]
  dsimp only
  rw [findSome?_range hp before here]

theorem State.rival_run_eq_none {s : State} {core part : Nat} {w : Words}
    (h : ∀ a, a < core → competes (insOfWords w).op a core = true → s.atEnd a = true) : s.rival core (.run part w) = none := by
  refine List.find?_eq_none.2 fun a ha => ?_
  have hc := h a (List.mem_range.1 ha)
  cases hcomp : competes (insOfWords w).op a core with
  | false => simp
  | true => simp [hc hcomp]

@[simp] theorem State.atTurn_part (s : State) (core part c p : Nat) : (s.atTurn core part).part c p = s.part c p := by
  unfold State.part State.atTurn
  rw [State.modCore_get]
  split
  · next here => rw [here]; rfl
  · rfl

/-- Settles O60: the bytes at the program counter are fetched as the word they decode from, which is the core's next move and meets no rival. -/
theorem stepRunsTheDecodedInstruction : Obligations.StepRunsTheDecodedInstruction := by
  refine ⟨?_, fun s i rest head event => ?_⟩
  · intro s part r bs i core g pc s0 idle on running quiet turn hp before run goes commits bytes dec
    obtain ⟨w, read, row⟩ := decode_eq_ok.1 dec
    refine ⟨w, (words_of_instr row).1, fun room first => ?_⟩
    have fetch : s.fetchAt r.gid r.slot = .words w := (s.core g.core).fetch_eq_words g.ctx bytes read
    have next := State.nextMove_eq quiet hp before (State.partMove_eq_run turn run goes fetch room commits)
    have moves : s.coreStep s.focus.1 = (s.atTurn s.focus.1 part).issueStep s.focus.1 part w := by
      rw [State.coreStep, on, running, next, State.rival_run_eq_none first]
      rfl
    have turned : ((s.atTurn s.focus.1 part).part s.focus.1 part).run = some r := by rw [State.atTurn_part]; exact run
    simp only [step, idle, moves, State.issueStep, turned, row]
    cases exec i s0 <;> rfl
  · rw [step, head]
    dsimp only
    rw [if_pos (show i.words.isNone = true from event)]
    cases exec i { s with agenda := rest } <;> rfl

end Sys2Proof.Machine
end

section
/-! Control transfers that make no join, NOP and YIELD (R93 to R100). -/

namespace Sys2Proof.Machine

/-! Slots, lane sets and lanes. -/

/-- The later of two writes of an entry stands alone. -/
theorem setAt_setAt {α : Type} (d : α) (l : List α) (n : Nat) (x y : α) : setAt d (setAt d l n x) n y = setAt d l n y := by
  induction n generalizing l with
  | zero => cases l <;> rfl
  | succ n ih => cases l <;> simp [setAt, ih]

theorem Group.modSlot_modSlot (g : Group) (k : Nat) (f h : Slot → Slot) :
    (g.modSlot k f).modSlot k h = g.modSlot k fun y => h (f y) := by
  show ({ g with slots := setAt {} (setAt {} g.slots k (f (g.slot k))) k (h ((g.modSlot k f).slot k)) } : Group) = _
  rw [setAt_setAt, Group.modSlot_slot, if_pos rfl]
  rfl

/-- A change of lanes reads its function at the lanes of the set alone. -/
theorem Group.modLanes_congr {g : Group} {m : Mask} {f h : Nat → Lane → Lane}
    (same : ∀ l, l < 32 → m.getLsbD l = true → f l (g.lane l) = h l (g.lane l)) : g.modLanes m f = g.modLanes m h := by
  unfold Group.modLanes
  congr 1
  refine List.map_congr_left fun l hl => ?_
  cases here : m.getLsbD l with
  | true => simpa [here] using same l (mem_laneIdx.1 hl) here
  | false => simp

theorem Mask.ofFn_eq_zero {f : Nat → Bool} (empty : ∀ l, l < 32 → f l = false) : Mask.ofFn f = 0 := by
  refine BitVec.eq_of_getLsbD_eq fun l hl => ?_
  rw [Mask.ofFn_getLsbD, empty l hl]
  simp

@[simp] theorem Mask.lowest_zero : Mask.lowest 0 = none := by decide

/-! Transfers. -/

/-- A transfer that writes no register sends each active lane to its address. -/
theorem Ready.sends {s : State} {i : Instr} {x : Iss} (h : Ready s i x) {eff : Iss → State → Eff} {dest : Nat → CodeAddr}
    (ho : effectOf x.ins.op = some eff) (he : eff x s = .moved (s.sendLanes x dest)) : ∃ t, exec i s = .next t ∧ Transfers s t x dest noReg :=
  h.transfers ho he (Writes.refl s x)

/-- Each voting branch sends the whole split by its vote (R95). -/
theorem Ready.votes {s : State} {i : Instr} {x : Iss} (h : Ready s i x) {taken : Nat → Nat → Bool}
    (ho : effectOf x.ins.op = some (voteEffBr taken)) {b : Bool}
    (hb : b = (decide (x.exec.lanes.length > 0) && taken x.exec.lanes.length (x.exec.lanes.filter fun l => (s.regs x).pred x.ins.a l).length)) :
    ∃ t, exec i s = .next t ∧ Transfers s t x (fun _ => if b then x.target else x.next) noReg :=
  h.sends ho (by rw [hb]; rfl)

/-- Settles O11: each effect is one sending of the active lanes; LOOPG writes D before it. -/
theorem branchesSendTheirLanes : Obligations.BranchesSendTheirLanes := by
  intro i s x ready r n c all
  refine ⟨fun op nojoin => ?_, fun op => ?_, fun op => ?_, fun op => ?_, fun op => ?_, fun op inside => ?_, fun op idle => ?_, fun op runs => ?_⟩
  · exact ready.sends (eff := brdEff) (by rw [op]; rfl) (by rw [brdEff, if_pos nojoin])
  · exact ready.votes (taken := fun _ c => decide (c > 0)) (by rw [op]; rfl) (Bool.decide_and ..)
  · exact ready.votes (taken := fun n c => c == n) (by rw [op]; rfl) (Bool.decide_and ..)
  · exact ready.votes (taken := fun _ c => c == 0) (by rw [op]; rfl) (Bool.decide_and ..)
  · exact ready.sends (eff := jmpEff) (by rw [op]; rfl) rfl
  · exact ready.sends (eff := jmpiEff) (by rw [op]; rfl) (by simp only [jmpiEff, inside, Mask.lowest_zero]; rfl)
  · exact ready.sends (eff := loopgEff) (by rw [op]; rfl) (by rw [loopgEff, if_pos idle])
  · have written := s.writeU_writes x x.ins.d (r.u (x.ins.d - 128) - 1)
    rw [oneUni_eq_toUniform] at written
    exact ready.transfers (eff := loopgEff) (by rw [op]; rfl) (by rw [loopgEff, if_neg runs]) written

/-- Settles O15: NOP goes on; YIELD moves its split and may place its next run last. -/
theorem nopAndYieldOnlyGoOn : Obligations.NopAndYieldOnlyGoOn := by
  intro i s x ready
  refine ⟨fun op => ready.result (eff := nopEff) (by rw [op]; rfl) rfl (Writes.refl' s x), fun op => ?_⟩
  have eff : effectOf x.ins.op = some yieldEff := by rw [op]; rfl
  by_cases idle : x.exec = 0
  · obtain ⟨t, next, here, group, part⟩ := ready.moved (f := fun g => g.moveSplit x.slot x.active x.next) eff (by rw [yieldEff, if_pos idle]) rfl rfl
    refine ⟨t, next, here, ?_, part⟩
    simp only [group, if_pos idle]
    rfl
  · obtain ⟨t, next, here, group, part⟩ := ready.moved
      (f := fun g => (g.moveSplit x.slot x.active x.next).modSlot x.slot fun y => { y with youngest := true }) eff
      (by rw [yieldEff, if_neg idle, State.modGroup_modGroup]) rfl rfl
    refine ⟨t, next, here, ?_, part⟩
    simp only [group, if_neg idle, Group.modSlot_modSlot]
    rfl

end Sys2Proof.Machine
end

section
/-! Join records, and the calls and branches that make them (R87, R94, R97). -/

namespace Sys2Proof.Machine

/-! Lanes that leave a record. -/

theorem Group.lanesIn_getLsbD (g : Group) (st : LaneState) {l : Nat} (h : l < 32) : (g.lanesIn st).getLsbD l = ((g.lane l).lst == st) := by
  rw [Group.lanesIn, Mask.ofFn_getLsbD]
  simp [h]

theorem Group.park_lane (g : Group) (m : Mask) (pc : CodeAddr) {l : Nat} (h : l < 32) : (g.park m pc).lane l =
    if m.getLsbD l then { g.lane l with lst := .parked, lpc := pc, passed := 0, parkedAt := g.stamp } else g.lane l :=
  Group.modLanes_lane g m _ h

theorem Group.leaveJoins_lane (g : Group) (m : Mask) {l : Nat} (h : l < 32) :
    (g.leaveJoins m).lane l = if m.getLsbD l then { g.lane l with jid := none } else g.lane l :=
  Group.modLanes_lane g m (fun _ y => { y with jid := none }) h

@[simp] theorem Group.leaveJoins_joins (g : Group) (m : Mask) :
    (g.leaveJoins m).joins = g.joins.map fun j => { j with jset := j.jset &&& ~~~m } := rfl

/-- What has left every join set once leaves nothing more. -/
theorem Join.map_left_of_left {js : List Join} {m : Mask} (left : ∀ j ∈ js, j.jset &&& ~~~m = j.jset) :
    (js.map fun j => { j with jset := j.jset &&& ~~~m }) = js :=
  (List.map_congr_left fun j hj => by simp only [left j hj, id_eq]).trans js.map_id

/-- A group without a record: the record's lanes belong to no join. -/
def Group.withoutJoin (g : Group) (j : Join) (id : Nat) : Group :=
  { g.modLanes j.jset fun _ y => { y with jid := none } with joins := g.joins.filter fun k => k.id != id }

theorem Group.withoutJoin_lane (g : Group) (j : Join) (id : Nat) {l : Nat} (h : l < 32) :
    (g.withoutJoin j id).lane l = if j.jset.getLsbD l then { g.lane l with jid := none } else g.lane l :=
  Group.modLanes_lane g j.jset (fun _ y => { y with jid := none }) h

theorem Group.dropJoin_of_find {g : Group} {id : Nat} {j : Join} (found : g.joins.find? (fun j => j.id == id) = some j) :
    g.dropJoin id = (g.withoutJoin j id).park (j.jset &&& g.lanesIn .held) j.jpc := by
  rw [Group.dropJoin, found]
  rfl

/-- The lanes of a dropped record leave it, and those it held wait as parked lanes at its address. -/
theorem Group.dropJoin_lane {g : Group} {id : Nat} {j : Join} (found : g.joins.find? (fun j => j.id == id) = some j) {l : Nat} (h : l < 32) :
    (g.dropJoin id).lane l = if j.jset.getLsbD l then (if (g.lane l).lst = .held
      then { g.lane l with jid := none, lst := .parked, lpc := j.jpc, passed := 0, parkedAt := g.stamp }
      else { g.lane l with jid := none }) else g.lane l := by
  rw [Group.dropJoin_of_find found, Group.park_lane _ _ _ h, Group.withoutJoin_lane _ _ _ h, BitVec.getLsbD_and, Group.lanesIn_getLsbD g _ h]
  by_cases mine : j.jset.getLsbD l = true
  · by_cases held : (g.lane l).lst = .held <;> simp [mine, held]
    rfl
  · simp [mine]

theorem Group.dropJoin_joins {g : Group} {id : Nat} {j : Join} (found : g.joins.find? (fun j => j.id == id) = some j) :
    (g.dropJoin id).joins = g.joins.filter fun k => k.id != id := by
  rw [Group.dropJoin_of_find found]
  rfl

/-! The record that is replaced. -/

/-- A record that would be replaced before another or with it: one of a higher JAGE, or of the same and made no later. -/
def Join.OlderOrSame (cyc : Nat) (j k : Join) : Prop := k.age cyc < j.age cyc ∨ (k.age cyc = j.age cyc ∧ j.made ≤ k.made)

theorem Join.OlderOrSame.trans {cyc : Nat} {i j k : Join} (hij : Join.OlderOrSame cyc i j) (hjk : Join.OlderOrSame cyc j k) :
    Join.OlderOrSame cyc i k := by
  unfold Join.OlderOrSame at *
  omega

/-- Of the first two records the choice keeps the one that comes before. -/
theorem Group.oldestJoin_cons_cons (g : Group) (cyc : Nat) (b a : Join) (js : List Join) :
    ({ g with joins := b :: a :: js } : Group).oldestJoin cyc = ({ g with joins :=
      (if a.age cyc > b.age cyc || (a.age cyc == b.age cyc && decide (a.made < b.made)) then a else b) :: js } : Group).oldestJoin cyc := by
  simp only [Group.oldestJoin, List.foldl_cons]
  split <;> rfl

/-- The choice among records is one of them, and none comes before it. -/
theorem Group.oldestJoin_cons (g : Group) (cyc : Nat) (b : Join) (js : List Join) :
    ∃ j, ({ g with joins := b :: js } : Group).oldestJoin cyc = some j ∧ j ∈ b :: js ∧ ∀ k ∈ b :: js, Join.OlderOrSame cyc j k := by
  induction js generalizing b with
  | nil => exact ⟨b, rfl, List.mem_cons_self, by simp [Join.OlderOrSame]⟩
  | cons a js ih =>
    rw [Group.oldestJoin_cons_cons]
    obtain ⟨c, hc⟩ : ∃ c, (if a.age cyc > b.age cyc || (a.age cyc == b.age cyc && decide (a.made < b.made)) then a else b) = c := ⟨_, rfl⟩
    have best : (c = a ∨ c = b) ∧ Join.OlderOrSame cyc c a ∧ Join.OlderOrSame cyc c b := by
      subst hc
      simp only [Bool.or_eq_true, decide_eq_true_eq, Bool.and_eq_true, beq_iff_eq, Join.OlderOrSame]
      split <;> simp <;> omega
    obtain ⟨one, overA, overB⟩ := best
    rw [hc]
    obtain ⟨j, chosen, mem, first⟩ := ih c
    have overC := first c List.mem_cons_self
    refine ⟨j, chosen, ?_, fun k hk => ?_⟩
    · simp only [List.mem_cons] at mem ⊢
      rcases one with rfl | rfl <;> tauto
    · simp only [List.mem_cons] at hk
      rcases hk with rfl | rfl | hk
      · exact overC.trans overB
      · exact overC.trans overA
      · exact first k (List.mem_cons_of_mem _ hk)

theorem Group.oldestJoin_of_ne_nil {g : Group} (cyc : Nat) (joined : g.joins ≠ []) :
    ∃ j, g.oldestJoin cyc = some j ∧ j ∈ g.joins ∧ ∀ k ∈ g.joins, Join.OlderOrSame cyc j k := by
  obtain ⟨b, js, split⟩ := List.exists_cons_of_ne_nil joined
  have chosen := g.oldestJoin_cons cyc b js
  rwa [← split] at chosen

/-! Making a record. -/

/-- Of eight names one is free of fewer records. -/
theorem Join.freeId_spec {js : List Join} (few : js.length < 8) :
    ∃ id, ((List.range 8).find? fun k => js.all fun j => j.id != k).getD 0 = id ∧ id < 8 ∧ ∀ j ∈ js, j.id ≠ id := by
  cases found : (List.range 8).find? fun k => js.all fun j => j.id != k with
  | some id => exact ⟨id, rfl, List.mem_range.1 (List.mem_of_find?_eq_some found), by simpa using List.find?_some found⟩
  | none =>
    have taken : List.range 8 ⊆ js.map (·.id) := fun k hk => by simpa using List.find?_eq_none.1 found k hk
    have many := (List.nodup_range.subperm taken).length_le
    rw [List.length_map, List.length_range] at many
    omega

/-- Lanes of a set stand at two or more addresses. -/
def Group.Parted (g : Group) (m : Mask) : Prop :=
  ∃ k l, k < 32 ∧ l < 32 ∧ m.getLsbD k = true ∧ m.getLsbD l = true ∧ (g.lane k).lpc ≠ (g.lane l).lpc

theorem Group.parted_iff (g : Group) (m : Mask) : g.Parted m ↔ 2 ≤ (m.lanes.map fun l => (g.lane l).lpc).dedup.length := by
  rw [← List.card_toFinset, Nat.succ_le_iff, Finset.one_lt_card]
  simp only [List.mem_toFinset, List.mem_map, Mask.mem_lanes, Group.Parted]
  constructor
  · rintro ⟨k, l, hk, hl, mk, ml, ne⟩
    exact ⟨_, ⟨k, ⟨hk, mk⟩, rfl⟩, _, ⟨l, ⟨hl, ml⟩, rfl⟩, ne⟩
  · rintro ⟨_, ⟨k, ⟨hk, mk⟩, rfl⟩, _, ⟨l, ⟨hl, ml⟩, rfl⟩, ne⟩
    exact ⟨k, l, hk, hl, mk, ml, ne⟩

/-- Lanes that stand at one address make no join. -/
theorem Group.createJoin_of_not_parted {g : Group} {lanes : Mask} (jpc : CodeAddr) (cyc : Nat) (one : ¬ g.Parted (lanes &&& g.liveLanes)) :
    g.createJoin jpc lanes cyc = g := by
  rw [Group.parted_iff, not_le] at one
  exact if_pos one

/-- Making room touches join sets, and lanes that leave them. -/
theorem Group.roomForJoin_frame (g : Group) (live : Mask) (cyc : Nat) :
    g.roomForJoin live cyc = { g with lanes := (g.roomForJoin live cyc).lanes, joins := (g.roomForJoin live cyc).joins } := by
  unfold Group.roomForJoin
  split
  · rfl
  · dsimp only
    split
    · rfl
    · split
      · unfold Group.dropJoin
        split <;> rfl
      · rfl

/-- A join touches lanes, join records and the number of the next. -/
theorem Group.createJoin_frame (g : Group) (jpc : CodeAddr) (lanes : Mask) (cyc : Nat) :
    g.createJoin jpc lanes cyc = { g with
      lanes := (g.createJoin jpc lanes cyc).lanes, joins := (g.createJoin jpc lanes cyc).joins, stamp := (g.createJoin jpc lanes cyc).stamp } := by
  unfold Group.createJoin
  dsimp only
  split
  · rfl
  · rw [Group.roomForJoin_frame]
    rfl

theorem Group.createJoin_core (g : Group) (jpc : CodeAddr) (lanes : Mask) (cyc : Nat) : (g.createJoin jpc lanes cyc).core = g.core := by
  rw [Group.createJoin_frame]

theorem Group.createJoin_part (g : Group) (jpc : CodeAddr) (lanes : Mask) (cyc : Nat) : (g.createJoin jpc lanes cyc).part = g.part := by
  rw [Group.createJoin_frame]

/-- The record that parted lanes make where there is room for it. -/
theorem Group.createJoin_of_parted {g r : Group} {lanes : Mask} (jpc : CodeAddr) (cyc : Nat) (parted : g.Parted (lanes &&& g.liveLanes))
    (room : g.roomForJoin (lanes &&& g.liveLanes) cyc = r) (few : r.joins.length < 8) :
    ∃ id, id < 8 ∧ (∀ j ∈ r.joins, j.id ≠ id) ∧ g.createJoin jpc lanes cyc = { g with
      joins := (r.joins.map fun j => { j with jset := j.jset &&& ~~~(lanes &&& g.liveLanes) }) ++
        [{ id := id, jpc := jpc, jset := lanes &&& g.liveLanes, since := none, made := g.stamp }]
      lanes := laneIdx.map fun l => if (lanes &&& g.liveLanes).getLsbD l then { r.lane l with jid := some id } else r.lane l
      stamp := g.stamp + 1 } := by
  obtain ⟨id, chosen, small, free⟩ := Join.freeId_spec few
  refine ⟨id, small, free, ?_⟩
  rw [Group.parted_iff, ← not_lt] at parted
  have frame := g.roomForJoin_frame (lanes &&& g.liveLanes) cyc
  rw [room] at frame
  simp only [Group.createJoin, if_neg parted, room, chosen]
  generalize lanes &&& g.liveLanes = live at *
  have stands : (laneIdx.map fun l => if live.getLsbD l then { (r.leaveJoins live).lane l with jid := some id } else (r.leaveJoins live).lane l) =
      laneIdx.map fun l => if live.getLsbD l then { r.lane l with jid := some id } else r.lane l := by
    refine List.map_congr_left fun l hl => ?_
    rw [Group.leaveJoins_lane r live (mem_laneIdx.1 hl)]
    split <;> rfl
  rw [Group.modLanes, stands]
  simp only [Group.leaveJoins_joins]
  rw [frame]
  rfl

/-! Calls. -/

/-- What a CALL or CALLI makes of its group: executing lanes push the return address and stand at their target, the others go on (R97). -/
def Iss.calls (x : Iss) (dest : Nat → CodeAddr) (g : Group) : Group :=
  g.modLanes x.active fun l y =>
    if x.exec.getLsbD l then { y with rstk := y.rstk.set y.rdep x.next, rdep := y.rdep + 1, lpc := dest l } else { y with lpc := x.next }

/-- A push takes place where no executing lane's return stack is full. -/
theorem pushCall_of_room {s : State} {x : Iss} (room : ∀ l, l < 32 → x.exec.getLsbD l = true → ((s.group x.gid).lane l).rdep < 8)
    (dest : Nat → CodeAddr) : pushCall dest x s = .moved (s.modGroup x.gid (x.calls dest)) := by
  have full : (Mask.ofFn fun l => x.exec.getLsbD l && decide (((s.group x.gid).lane l).rdep ≥ 8)) = 0 :=
    Mask.ofFn_eq_zero fun l hl => by simpa using room l hl
  rw [pushCall]
  exact if_neg (not_not_intro full)

theorem calliEff_of_room {s : State} {x : Iss} (room : ∀ l, l < 32 → x.exec.getLsbD l = true → ((s.group x.gid).lane l).rdep < 8)
    (inside : s.outside x true = 0) : calliEff x s = .moved (s.modGroup x.gid fun g =>
      (x.calls (x.indirect (s.regs x)) g).createJoin x.next x.active (s.cycle x.core)) := by
  simp only [calliEff, inside, Mask.lowest_zero, pushCall_of_room room, State.modGroup_modGroup]

theorem Ready.op_call {s : State} {f : W64F} {x : Iss} (ready : Ready s (.call f) x) : x.ins.op = 0x86 := by
  rw [ready.ins_eq (w := .w64 0x86 f) rfl]
  rfl

theorem Ready.op_calli {s : State} {f : W64F} {x : Iss} (ready : Ready s (.calli f) x) : x.ins.op = 0x87 := by
  rw [ready.ins_eq (w := .w64 0x87 f) rfl]
  rfl

/-- Settles O13: no executing lane's stack is full, so that the push takes place; CALLI makes its join after it. -/
theorem callsPushTheirReturn : Obligations.CallsPushTheirReturn := by
  intro f s x room sent
  refine ⟨fun ready => ?_, fun ready inside => ?_⟩
  · exact ready.moved (eff := fun i s => pushCall (fun _ => i.target) i s) (by rw [ready.op_call]; rfl) (pushCall_of_room room _) rfl rfl
  · exact ready.moved (by rw [ready.op_calli]; rfl) (calliEff_of_room room inside) (Group.createJoin_core ..) (Group.createJoin_part ..)

/-! Where eight records stand. -/

/-- The records that lanes leave, without those they leave empty. -/
def Group.keptJoins (g : Group) (live : Mask) : List Join :=
  (g.joins.map fun (j : Join) => { j with jset := j.jset &&& ~~~live }).filter fun j => j.jset != 0

/-- A group whose lanes have left their records, without those they leave empty. -/
def Group.leaveEmpty (g : Group) (live : Mask) : Group := { g.leaveJoins live with joins := g.keptJoins live }

@[simp] theorem Group.leaveEmpty_joins (g : Group) (live : Mask) : (g.leaveEmpty live).joins = g.keptJoins live := rfl

theorem Group.leaveEmpty_lane (g : Group) (live : Mask) {l : Nat} (h : l < 32) :
    (g.leaveEmpty live).lane l = if live.getLsbD l then { g.lane l with jid := none } else g.lane l := g.leaveJoins_lane live h

theorem Group.left_of_mem_keptJoins {g : Group} {live : Mask} {j : Join} (h : j ∈ g.keptJoins live) : j.jset &&& ~~~live = j.jset := by
  obtain ⟨j, -, rfl⟩ := List.mem_map.1 (List.mem_of_mem_filter h)
  simp [BitVec.and_assoc]

theorem Group.roomForJoin_of_few {g : Group} (live : Mask) (cyc : Nat) (few : g.joins.length < 8) : g.roomForJoin live cyc = g := if_pos few

theorem Group.roomForJoin_of_keptFew {g : Group} {live : Mask} (cyc : Nat) (many : 8 ≤ g.joins.length) (few : (g.keptJoins live).length < 8) :
    g.roomForJoin live cyc = g.leaveEmpty live :=
  (if_neg (Nat.not_lt.2 many)).trans (if_pos few)

theorem Group.roomForJoin_of_keptMany {g : Group} {live : Mask} {cyc : Nat} {j : Join} (many : 8 ≤ g.joins.length)
    (kept : 8 ≤ (g.keptJoins live).length) (oldest : (g.leaveEmpty live).oldestJoin cyc = some j) :
    g.roomForJoin live cyc = (g.leaveEmpty live).dropJoin j.id := by
  refine (if_neg (Nat.not_lt.2 many)).trans ((if_neg (Nat.not_lt.2 kept)).trans ?_)
  split
  · next k found => rw [Option.some.inj (oldest.symm.trans found)]; rfl
  · next absent => cases oldest.symm.trans absent

theorem Join.find?_of_nodup {js : List Join} {j : Join} (nodup : (js.map (·.id)).Nodup) (mem : j ∈ js) :
    js.find? (fun k => k.id == j.id) = some j := by
  cases found : js.find? fun k => k.id == j.id with
  | none => simpa using List.find?_eq_none.1 found j mem
  | some k =>
    have same : k.id = j.id := by simpa using List.find?_some found
    rw [List.inj_on_of_nodup_map nodup (List.mem_of_find?_eq_some found) mem same]

/-- A list of eight is shorter without one of its records. -/
theorem Join.length_without_lt {js : List Join} {j : Join} (mem : j ∈ js) : (js.filter fun k => k.id != j.id).length < js.length :=
  List.length_filter_lt_length_iff_exists.2 ⟨j, mem, by simp⟩

/-- Where no record can be dropped as empty, the oldest gives its place up. -/
theorem Group.createJoin_of_keptMany {g : Group} {lanes live : Mask} (jpc : CodeAddr) {cyc : Nat} (alive : lanes &&& g.liveLanes = live)
    (parted : g.Parted live) (many : 8 ≤ g.joins.length) (kept : (g.keptJoins live).length = 8) (nodup : ((g.keptJoins live).map (·.id)).Nodup) :
    ∃ j ∈ g.keptJoins live, (∀ k ∈ g.keptJoins live, Join.OlderOrSame cyc j k) ∧
      ∃ id, (∀ k ∈ g.keptJoins live, k.id ≠ j.id → k.id ≠ id) ∧ id < 8 ∧ g.createJoin jpc lanes cyc = { g with
        joins := (g.keptJoins live).filter (·.id != j.id) ++ [{ id := id, jpc := jpc, jset := live, since := none, made := g.stamp }]
        lanes := laneIdx.map fun l => if live.getLsbD l then { g.lane l with jid := some id }
          else if j.jset.getLsbD l then (if (g.lane l).lst = .held
            then { g.lane l with jid := none, lst := .parked, lpc := j.jpc, passed := 0, parkedAt := g.stamp }
            else { g.lane l with jid := none })
          else g.lane l
        stamp := g.stamp + 1 } := by
  subst alive
  obtain ⟨j, oldest, mem, first⟩ := Group.oldestJoin_of_ne_nil (g := g.leaveEmpty (lanes &&& g.liveLanes)) cyc
    (List.ne_nil_of_length_pos (Nat.lt_of_lt_of_eq (by decide) kept.symm))
  have found : (g.leaveEmpty (lanes &&& g.liveLanes)).joins.find? (fun k => k.id == j.id) = some j := Join.find?_of_nodup nodup mem
  have joins := Group.dropJoin_joins found
  rw [Group.leaveEmpty_joins] at joins
  obtain ⟨id, small, free, made⟩ := Group.createJoin_of_parted jpc cyc parted (Group.roomForJoin_of_keptMany many kept.ge oldest)
    (by rw [joins]; exact kept ▸ Join.length_without_lt mem)
  rw [joins] at free made
  refine ⟨j, mem, first, id, fun k hk ne => free k (List.mem_filter.2 ⟨hk, by simpa using ne⟩), small, made.trans ?_⟩
  rw [Join.map_left_of_left fun k hk => Group.left_of_mem_keptJoins (List.mem_of_mem_filter hk)]
  congr 1
  refine List.map_congr_left fun l hl => ?_
  rw [Group.dropJoin_lane found (mem_laneIdx.1 hl), Group.leaveEmpty_lane _ _ (mem_laneIdx.1 hl)]
  by_cases live : (lanes &&& g.liveLanes).getLsbD l = true
  · have out : j.jset.getLsbD l = false := by
      rw [← Group.left_of_mem_keptJoins mem, BitVec.getLsbD_and, BitVec.getLsbD_not, live]
      simp
    simp only [live, out, if_true, Bool.false_eq_true, if_false]
  · simp only [live]
    rfl

/-- Settles O12: BRD makes the join that parted lanes make, for which each number of records leaves room in its own way. -/
theorem dividedLanesFormAJoin : Obligations.DividedLanesFormAJoin := by
  refine ⟨fun f s x ready join => ?_, fun g jpc lanes cyc => ⟨Group.createJoin_of_not_parted jpc cyc, fun parted few => ?_, ?_⟩⟩
  · have op : x.ins.op = 0x80 := by rw [ready.ins_eq (w := .w64 0x80 f) rfl]; rfl
    refine ready.moved (eff := brdEff) (f := fun g => (g.modLanes x.active fun l y => { y with
        lpc := if x.exec.getLsbD l && (s.regs x).pred x.ins.a l then x.target else x.next }).createJoin
          (x.pc + BitVec.ofNat 56 (16 * x.ins.jdist)) x.active (s.cycle x.core)) (by rw [op]; rfl) ?_ (Group.createJoin_core ..) (Group.createJoin_part ..)
    rw [brdEff, if_neg join, State.sendLanes, State.modGroup_modGroup]
  · obtain ⟨id, small, free, made⟩ := Group.createJoin_of_parted jpc cyc parted (Group.roomForJoin_of_few _ cyc few) few
    exact ⟨id, free, small, made⟩
  intro new kept
  refine ⟨fun parted many few => ?_, fun parted many full nodup => Group.createJoin_of_keptMany jpc rfl parted many.ge full nodup⟩
  obtain ⟨id, small, free, made⟩ := Group.createJoin_of_parted jpc cyc parted (Group.roomForJoin_of_keptFew cyc many few) few
  refine ⟨id, free, small, made.trans ?_⟩
  rw [Group.leaveEmpty_joins, Join.map_left_of_left fun k hk => Group.left_of_mem_keptJoins hk]
  congr 1
  refine List.map_congr_left fun l hl => ?_
  rw [Group.leaveEmpty_lane _ _ (mem_laneIdx.1 hl)]
  split <;> rfl

end Sys2Proof.Machine
end

section
/-! RET and EXIT (R98, R180). -/

namespace Sys2Proof.Machine

/-! Exiting lanes. -/

/-- Freeing a name drops it or leaves it. -/
theorem Group.freeName_name? (g : Group) (n : Nat) : (g.freeName n).name? n = none ∨ (g.freeName n).name? n = g.name? n := by
  unfold Group.freeName
  split
  · exact .inr rfl
  · split
    · exact .inl (by simp [Group.name?, Tbl.get?_erase])
    · exact .inr rfl

/-- A name left after lanes are cleared from it stood before, with its LIVE bits less those lanes (R180). -/
theorem Group.unlive_name? {g : Group} {n : Nat} {m : Mask} {e : NameEnt} (left : (g.unlive n m).name? n = some e) :
    ∃ e₀, g.name? n = some e₀ ∧ e = { e₀ with live := e₀.live &&& ~~~m } := by
  unfold Group.unlive at left
  split at left
  · next gone => rw [gone] at left; cases left
  · next e₀ here =>
    rcases Group.freeName_name? { g with names := g.names.set n { e₀ with live := e₀.live &&& ~~~m } } n with gone | same
    · rw [gone] at left; cases left
    · rw [same] at left
      refine ⟨e₀, here, (Option.some.inj ?_).symm⟩
      rw [← left]
      exact (Tbl.get?_set_self ..).symm

theorem Group.unlive_name?_ne (g : Group) {n k : Nat} (m : Mask) (ne : k ≠ n) : (g.unlive n m).name? k = g.name? k :=
  (Group.unlive_spec g n m).2 k ne

/-- Clearing lanes from names in turn clears each of them once for all. -/
theorem Group.unlives_name? {ns : List Nat} {m : Mask} {g : Group} {k : Nat} {e : NameEnt}
    (left : (ns.foldl (fun g n => g.unlive n m) g).name? k = some e) :
    ∃ e₀, g.name? k = some e₀ ∧ e = if k ∈ ns then { e₀ with live := e₀.live &&& ~~~m } else e₀ := by
  induction ns generalizing g with
  | nil => exact ⟨e, left, rfl⟩
  | cons n ns ih =>
    obtain ⟨e₁, there, rfl⟩ := ih left
    by_cases same : k = n
    · subst same
      obtain ⟨e₀, here, rfl⟩ := Group.unlive_name? there
      refine ⟨e₀, here, ?_⟩
      rw [if_pos List.mem_cons_self]
      split
      · simp [BitVec.and_assoc]
      · rfl
    · rw [Group.unlive_name?_ne g m same] at there
      exact ⟨e₁, there, by simp [same]⟩

theorem Tbl.mem_keys_of_get? {α : Type} {t : Tbl α} {k : Nat} {a : α} (here : t.get? k = some a) : k ∈ t.map Prod.fst := by
  induction t with
  | nil => cases here
  | cons p t ih =>
    obtain ⟨j, b⟩ := p
    by_cases same : j = k
    · simp [same]
    · simp only [Tbl.get?, if_neg same] at here
      exact List.mem_cons_of_mem _ (ih here)

/-- Lanes exit, leave their join sets and the loads that have returned to them, and then their names. -/
theorem Group.exitLanes_eq (g : Group) (m : Mask) : g.exitLanes m = { (g.modLanes m fun _ l => { l with lst := .exited, bar := none }).leaveJoins m with
    loads := (g.loads.map fun l => if l.uni then l else
      { l with lanes := l.lanes &&& ~~~(m &&& l.got), gone := l.gone ||| (l.lanes &&& m &&& ~~~l.got) }).filter fun l => l.uni || l.lanes != 0
    names := (g.exitLanes m).names } :=
  (Group.unlives_spec (g.names.map Prod.fst) m _).1

theorem Group.exitLanes_frame (g : Group) (m : Mask) : g.exitLanes m = { g with
    lanes := (g.exitLanes m).lanes, joins := (g.exitLanes m).joins, loads := (g.exitLanes m).loads, names := (g.exitLanes m).names } := by
  rw [Group.exitLanes_eq]
  rfl

theorem Group.exitLanes_lane (g : Group) (m : Mask) {l : Nat} (h : l < 32) :
    (g.exitLanes m).lane l = if m.getLsbD l then { g.lane l with lst := .exited, bar := none, jid := none } else g.lane l := by
  have lanes : (g.exitLanes m).lane l = ((g.modLanes m fun _ l => { l with lst := .exited, bar := none }).leaveJoins m).lane l := by
    rw [Group.exitLanes_eq]
    rfl
  rw [lanes, Group.leaveJoins_lane _ m h, Group.modLanes_lane g m _ h]
  split <;> rfl

theorem Group.exitLanes_joins (g : Group) (m : Mask) : (g.exitLanes m).joins = g.joins.map fun j => { j with jset := j.jset &&& ~~~m } := by
  rw [Group.exitLanes_eq]
  rfl

theorem Group.exitLanes_loads (g : Group) (m : Mask) : (g.exitLanes m).loads = (g.loads.map fun l => if l.uni then l else
    { l with lanes := l.lanes &&& ~~~(m &&& l.got), gone := l.gone ||| (l.lanes &&& m &&& ~~~l.got) }).filter fun l => l.uni || l.lanes != 0 := by
  rw [Group.exitLanes_eq]

theorem Group.exitLanes_name? {g : Group} {m : Mask} {n : Nat} {e : NameEnt} (left : (g.exitLanes m).name? n = some e) :
    ∃ e₀, g.name? n = some e₀ ∧ e = { e₀ with live := e₀.live &&& ~~~m } := by
  obtain ⟨e₀, here, rfl⟩ := Group.unlives_name? left
  exact ⟨e₀, here, if_pos (Tbl.mem_keys_of_get? (t := g.names) here)⟩

/-! The state of lanes under what follows an exit in a handler. -/

/-- No byte of memory has changed and no lane its state. -/
structure SameLanes (s t : State) : Prop where
  mem : t.mem = s.mem
  lst : ∀ g l, l < 32 → ((t.group g).lane l).lst = ((s.group g).lane l).lst

theorem SameLanes.refl (s : State) : SameLanes s s := ⟨rfl, fun _ _ _ => rfl⟩

theorem SameLanes.trans {s t u : State} (h₁ : SameLanes s t) (h₂ : SameLanes t u) : SameLanes s u :=
  ⟨h₂.mem.trans h₁.mem, fun g l hl => (h₂.lst g l hl).trans (h₁.lst g l hl)⟩

theorem SameLanes.modPart (s : State) (c p : Nat) (f : Part → Part) : SameLanes s (s.modPart c p f) := ⟨rfl, fun _ _ _ => rfl⟩

theorem SameLanes.modGroup {s : State} {gid : Nat} {f : Group → Group}
    (same : ∀ g : Group, ∀ l, l < 32 → ((f g).lane l).lst = (g.lane l).lst) : SameLanes s (s.modGroup gid f) := by
  refine ⟨rfl, fun g l hl => ?_⟩
  rw [State.modGroup_get]
  split
  · next here => rw [here]; exact same _ l hl
  · rfl

theorem SameLanes.thenModGroup {s t : State} (h : SameLanes s t) {gid : Nat} {f : Group → Group}
    (same : ∀ g : Group, ∀ l, l < 32 → ((f g).lane l).lst = (g.lane l).lst) : SameLanes s (t.modGroup gid f) := h.trans (.modGroup same)

theorem Group.moveSplit_lst (g : Group) (k : Nat) (m : Mask) (pc : CodeAddr) {l : Nat} (h : l < 32) :
    ((g.moveSplit k m pc).lane l).lst = (g.lane l).lst := by
  unfold Group.moveSplit
  rw [Group.modSlot_lane, Group.modLanes_lane g m _ h]
  split <;> rfl

theorem SameLanes.setSys (s : State) (gid slot : Nat) (t : Trap) : SameLanes s (s.setSys gid slot t) := .modGroup fun _ _ _ => rfl

theorem SameLanes.suspend (s : State) (gid slot : Nat) (t : Trap) : SameLanes s (s.suspend gid slot t) :=
  (SameLanes.setSys s gid slot t).trans (.modGroup fun _ _ _ => rfl)

theorem SameLanes.enterHandler (s : State) (gid slot : Nat) (t : Trap) : SameLanes s (s.enterHandler gid slot t) := by
  refine (SameLanes.setSys s gid slot t).trans (SameLanes.trans (.modGroup fun g l hl => ?_) (.modPart ..))
  rw [Group.modSlot_lane, Group.moveSplit_lst _ _ _ _ hl]

theorem SameLanes.enterPending (s : State) (core part : Nat) : SameLanes s (s.enterPending core part) := by
  unfold State.enterPending
  dsimp only
  split
  · exact .refl s
  split
  · exact .refl s
  split
  · exact .refl s
  · refine SameLanes.trans ?_ (.enterHandler ..)
    exact SameLanes.thenModGroup (.modPart ..) fun _ _ _ => rfl

theorem SameLanes.afterTrap (s : State) (gid : Nat) : SameLanes s (s.afterTrap gid) := by
  unfold State.afterTrap
  refine SameLanes.trans ?_ (.enterPending ..)
  split
  · exact .refl s
  split
  · split
    · refine SameLanes.trans ?_ (.suspend ..)
      exact .modGroup fun _ _ _ => rfl
    · exact .refl s
  · exact .refl s

theorem SameLanes.endRun (s : State) (gid slot : Nat) (cut : Bool) : SameLanes s (s.endRun gid slot cut) := .modPart ..

theorem SameLanes.transferred (s : State) (x : Iss) : SameLanes s (s.transferred x) := by
  refine SameLanes.trans ?_ (.endRun ..)
  exact .modGroup fun _ _ _ => rfl

theorem SameLanes.afterExit (s : State) (x : Iss) : SameLanes s (s.afterExit x) := by
  unfold State.afterExit
  dsimp only
  have left : SameLanes s (s.modGroup x.gid fun g => (g.modSlot x.slot fun y => { y with mode := .running }).dropHandlerLoads x.active) :=
    .modGroup fun _ _ _ => rfl
  split
  · split
    · exact left
    · exact (left.trans (.modPart ..)).trans (.afterTrap ..)
  · exact .refl s

theorem State.afterExit_of_not_handler (s : State) {x : Iss} (h : x.handler = false) : s.afterExit x = s := by
  simp [State.afterExit, h]

/-! RET and EXIT. -/

/-- What a RET or an EXIT makes of its group: the lanes of `out` exit, the other active lanes stand where `go` sends them. -/
theorem Ready.exits {s : State} {i : Instr} {x : Iss} (h : Ready s i x) (outside : x.handler = false) {eff : Iss → State → Eff} {out : Mask}
    {go : Nat → Lane → Lane} (ho : effectOf x.ins.op = some eff)
    (he : eff x s = .moved ((s.modGroup x.gid fun g => (g.modLanes x.active go).exitLanes out).afterExit x)) :
    ∃ t, exec i s = .next t ∧ Local s t x ∧
      t.group x.gid = (((s.group x.gid).modLanes x.active go).exitLanes out).modSlot x.slot Slot.issued ∧
      t.part x.core x.part = { s.part x.core x.part with run := x.ended (s.part x.core x.part) } := by
  rw [State.afterExit_of_not_handler _ outside] at he
  refine h.moved ho he ?_ ?_ <;> rw [Group.exitLanes_frame] <;> rfl

/-- In a handler too, lanes exit and no other lane changes its state. -/
theorem Ready.exits_lst {s : State} {i : Instr} {x : Iss} (h : Ready s i x) {eff : Iss → State → Eff} {out : Mask}
    {go : Nat → Lane → Lane} (ho : effectOf x.ins.op = some eff)
    (he : eff x s = .moved ((s.modGroup x.gid fun g => (g.modLanes x.active go).exitLanes out).afterExit x))
    (stays : ∀ l y, (go l y).lst = y.lst) :
    ∃ t, exec i s = .next t ∧ t.mem = s.mem ∧
      ∀ l, l < 32 → ((t.group x.gid).lane l).lst = if out.getLsbD l then .exited else ((s.group x.gid).lane l).lst := by
  have after := (SameLanes.afterExit (s.modGroup x.gid fun g => (g.modLanes x.active go).exitLanes out) x).trans (.transferred _ x)
  refine ⟨_, h.exec_eq ho, by rw [he]; exact after.mem, fun l hl => ?_⟩
  rw [he, Eff.settle, after.lst _ l hl, State.modGroup_self, Group.exitLanes_lane _ _ hl, Group.modLanes_lane _ _ _ hl]
  split
  · rfl
  · split
    · exact stays ..
    · rfl

/-- A change of a group reads its function at that group alone. -/
theorem State.modGroup_congr {s : State} {k : Nat} {f h : Group → Group} (same : f (s.group k) = h (s.group k)) : s.modGroup k f = s.modGroup k h := by
  rw [State.modGroup_def, State.modGroup_def, same]

/-- The executing lanes of a RET whose return stack is empty (R98). -/
def State.returnless (s : State) (x : Iss) : Mask := Mask.ofFn fun l => x.exec.getLsbD l && ((s.group x.gid).lane l).rdep == 0

theorem State.returnless_getLsbD (s : State) (x : Iss) {l : Nat} (h : l < 32) :
    (s.returnless x).getLsbD l = (x.exec.getLsbD l && ((s.group x.gid).lane l).rdep == 0) := by
  rw [State.returnless, Mask.ofFn_getLsbD]
  simp [h]

/-- RET sends the lanes that have a return address, and the others exit. -/
theorem retEff_eq (x : Iss) (s : State) : retEff x s = .moved ((s.modGroup x.gid fun g => (g.modLanes x.active fun l y =>
    if (s.returnless x).getLsbD l then y else if x.exec.getLsbD l then { y with rdep := y.rdep - 1, lpc := y.rstk.getD (y.rdep - 1) 0 }
    else { y with lpc := x.next }).exitLanes (s.returnless x)).afterExit x) := by
  unfold retEff
  dsimp only
  congr 2
  refine State.modGroup_congr (congrArg (Group.exitLanes · _) (Group.modLanes_congr fun l hl _ => ?_))
  rw [s.returnless_getLsbD x hl]
  cases x.exec.getLsbD l with
  | false => rfl
  | true => by_cases empty : ((s.group x.gid).lane l).rdep = 0 <;> simp [empty]

/-- Settles O14: RET and EXIT place their lanes and then let some exit, which is all outside a handler and leaves the lanes' states in one. -/
theorem returnsAndExitsEndTheirLanes : Obligations.ReturnsAndExitsEndTheirLanes := by
  refine ⟨fun i s x ready outside => ⟨fun op => ?_, fun op => ?_⟩, fun i s x ready inside op => ?_, fun g m =>
    ⟨fun l hl => g.exitLanes_lane m hl, g.exitLanes_joins m, g.exitLanes_loads m, fun n e => Group.exitLanes_name?, g.exitLanes_frame m⟩⟩
  · exact ready.exits outside (by rw [op]; rfl) (retEff_eq x s)
  · exact ready.exits outside (eff := exitEff) (by rw [op]; rfl) rfl
  · rcases op with op | op
    · obtain ⟨t, next, mem, lst⟩ := ready.exits_lst (by rw [op]; rfl) (retEff_eq x s) fun l y => by split_ifs <;> rfl
      refine ⟨t, next, mem, fun l hl => (lst l hl).trans ?_⟩
      simp [s.returnless_getLsbD x hl, op]
    · obtain ⟨t, next, mem, lst⟩ := ready.exits_lst (eff := exitEff) (by rw [op]; rfl) rfl fun l y => by split_ifs <;> rfl
      refine ⟨t, next, mem, fun l hl => (lst l hl).trans ?_⟩
      simp [op]

end Sys2Proof.Machine
end

section
/-! The events of a core (R84 to R88, R98, R153 to R169, R187, R188, R193, R206, R216 to R220, R401, R402). -/

namespace Sys2Proof.Machine

/-- An event whose condition holds comes about. -/
theorem event_of {name : String} {enabled : Bool} {s : State} (h : enabled = true) : event name enabled s = .next s := if_pos h

/-! Runs and loads. -/

@[simp] theorem State.atTurn_group (s : State) (core part gid : Nat) : (s.atTurn core part).group gid = s.group gid := rfl

theorem exec_runSelect {s : State} {core part gid slot : Nat} (chosen : s.selection core part = some (gid, slot)) :
    exec (.runSelect core part) s = .next (s.beginRun core part gid slot) := by
  show execRunSelect core part s = _
  rw [execRunSelect, chosen]

/-- A run begins: its partition issues it, and its slot is no longer ready (R153, R164). -/
theorem State.beginRun_part (s : State) (core part gid slot : Nat) : (s.beginRun core part gid slot).part core part =
    { s.part core part with run := some { gid := gid, slot := slot, next := (s.core core).cyc, passc := s.passOf (quadOf core) } } := by
  rw [State.beginRun, State.modGroup_part, State.modPart_self, State.atTurn_part]

theorem State.beginRun_group (s : State) (core part gid slot : Nat) : (s.beginRun core part gid slot).group gid =
    (s.group gid).modSlot slot fun x => { x with readyAt := none, youngest := false } := by
  rw [State.beginRun, State.modGroup_self, State.modPart_group, State.atTurn_group]

theorem State.returnLoad_accs_mem (s : State) (gid seq : Nat) (res : List (Nat × List Byte)) (bad : Bool) :
    (s.returnLoad gid seq res bad).accs = s.accs ∧ (s.returnLoad gid seq res bad).mem = s.mem := by
  unfold State.returnLoad
  split <;> exact ⟨rfl, rfl⟩

theorem State.dropExited_accs_mem (s : State) (gid : Nat) (load : Option Nat) :
    (s.dropExited gid load).accs = s.accs ∧ (s.dropExited gid load).mem = s.mem := by
  unfold State.dropExited
  split <;> exact ⟨rfl, rfl⟩

/-- A returned load leaves the accesses under way, and only its words arrive (R159). -/
theorem loadReturn_completes {s : State} {id : Nat} {a : Access} (done : (s.accs.find? fun a => a.id == id && a.done) = some a) :
    ∃ t, exec (.loadReturn id) s = .next t ∧ t.accs = (s.accs.filter fun x => x.id != id) ∧ t.mem = s.mem := by
  have next : exec (.loadReturn id) s = execLoadReturn id s := rfl
  rw [execLoadReturn, done] at next
  refine ⟨_, next, ?_⟩
  cases a.load with
  | none => exact ⟨rfl, rfl⟩
  | some seq =>
    dsimp only
    obtain ⟨accs, mem⟩ := State.dropExited_accs_mem
      (({ s with accs := s.accs.filter fun x => x.id != id } : State).returnLoad a.gid seq (if a.failed then a.apps.map fun p => (p.1, []) else a.result) a.failed)
      a.gid (some seq)
    obtain ⟨accs', mem'⟩ := State.returnLoad_accs_mem { s with accs := s.accs.filter fun x => x.id != id } a.gid seq
      (if a.failed then a.apps.map fun p => (p.1, []) else a.result) a.failed
    exact ⟨accs.trans accs', mem.trans mem'⟩

/-! Claims and clocks. -/

/-- The claim at the head of the queue is served from the pool (R187). -/
theorem claimServed_completes {s : State} {blk : Nat} {c : Claim} {cs : List Claim} (head : (s.block blk).claims = c :: cs)
    (room : c.n ≤ (s.block blk).pool) : exec (.regclmClaimServed blk) s =
      .next (((s.setBlock blk { s.block blk with pool := (s.block blk).pool - c.n, claims := cs }).modGroup c.gid fun g =>
        ({ g with cap := g.cap + c.n } : Group).modSlot c.slot fun x => { x with claim := .served }).testReady c.gid c.slot) := by
  have next : exec (.regclmClaimServed blk) s = execRegclmClaimServed blk s := rfl
  rw [execRegclmClaimServed, head] at next
  refine next.trans ((event_of (decide_eq_true room)).trans ?_)
  rw [State.serveClaim, State.modBlock_def, head]
  rfl

/-- A stopped core restarts once a wake condition has arisen, the grain after it and no later (R168). -/
theorem State.restartsAt_of {s : State} {core n : Nat} (later : 0 < n) (wakes : (s.passTime core (n - 1)).wakeCondition core = true)
    (first : n = 1 ∨ (s.passTime core (n - 2)).anyTimeUp core = false) : s.restartsAt core n = true := by
  rw [State.restartsAt, wakes, decide_eq_true later]
  rcases first with rfl | first
  · rfl
  · rw [first, Bool.not_false, Bool.or_true]
    rfl

/-! What arrives from other cores. -/

/-- The message at the head of a queue is found by its name, with none ahead of it. -/
theorem find?_head {α : Type} (m : α) (ms : List α) (id : α → Nat) : (m :: ms).find? (fun x => id x == id m) = some m :=
  List.find?_cons_of_pos (by simp)

theorem takeWhile_head {α : Type} (m : α) (ms : List α) (id : α → Nat) : (m :: ms).takeWhile (fun x => id x != id m) = [] :=
  List.takeWhile_cons_of_neg (by simp)

/-- No byte of memory, no steal under way and no deque has changed. -/
structure DequesKept (s t : State) : Prop where
  mem : t.mem = s.mem
  steals : t.steals = s.steals
  deque : ∀ c, (t.core c).deque = (s.core c).deque

theorem DequesKept.refl (s : State) : DequesKept s s := ⟨rfl, rfl, fun _ => rfl⟩

theorem DequesKept.trans {s t u : State} (h₁ : DequesKept s t) (h₂ : DequesKept t u) : DequesKept s u :=
  ⟨h₂.mem.trans h₁.mem, h₂.steals.trans h₁.steals, fun c => (h₂.deque c).trans (h₁.deque c)⟩

theorem DequesKept.modCore {s : State} {c : Nat} {f : Core → Core} (same : ∀ x : Core, (f x).deque = x.deque) : DequesKept s (s.modCore c f) := by
  refine ⟨rfl, rfl, fun d => ?_⟩
  rw [State.modCore_get]
  split
  · next here => rw [here, same]
  · rfl

theorem DequesKept.fold {α : Type} {f : State → α → State} (step : ∀ s a, DequesKept s (f s a)) (l : List α) (s : State) :
    DequesKept s (l.foldl f s) := by
  induction l generalizing s with
  | nil => exact .refl s
  | cons a l ih => exact (step s a).trans (ih _)

theorem DequesKept.setL1 (s : State) (l1 line : Nat) (x : L1Line) : DequesKept s (s.setL1 l1 line x) := by
  unfold State.setL1
  exact .modCore fun _ => rfl

theorem DequesKept.acquire (s : State) (core sco sem : Nat) : DequesKept s (s.acquire core sco sem) := by
  unfold State.acquire State.invalidate
  split
  · exact .fold (fun s line => .setL1 ..) _ s
  · exact .refl s

theorem DequesKept.stealDone (s : State) (gid core seq d c : Nat) (e : Option Dword) : DequesKept s (s.stealDone gid core seq d c e) := by
  have words : ∀ ws, DequesKept s (s.returnWords gid seq ws) := fun ws => by
    unfold State.returnWords
    split <;> exact ⟨rfl, rfl, fun _ => rfl⟩
  unfold State.stealDone
  dsimp only
  split
  · exact (words _).trans (.acquire ..)
  · exact words _

/-- A steal takes the head of the deque, where the victim runs the thief's context (R220). -/
theorem State.stealAt_spec (s : State) (tgt ctx : Nat) : (s.stealAt tgt ctx).2.mem = s.mem ∧ (s.stealAt tgt ctx).2.steals = s.steals ∧
    ((s.core tgt).ctx = some ctx → ((s.stealAt tgt ctx).2.core tgt).deque = (s.core tgt).deque.tail) := by
  unfold State.stealAt
  split
  · next other => exact ⟨rfl, rfl, fun same => absurd same other⟩
  · split
    · next empty => exact ⟨rfl, rfl, fun _ => by rw [empty]; rfl⟩
    · next e rest full => exact ⟨rfl, rfl, fun _ => by rw [State.modCore_self, full]; rfl⟩

/-- The steal at the head of the queue arrives (R219, R220). -/
theorem stealArrival_completes {s : State} {m : Steal} {ms : List Steal} (head : s.steals = m :: ms)
    (may : s.mayArrive m.tgt m.src (s.core m.tgt).lastThief = true) : ∃ t, exec (.dqstealArrival m.id) s = .next t ∧ t.mem = s.mem ∧
      t.steals = (s.steals.filter fun x => x.id != m.id) ∧
      ((s.core m.tgt).ctx = some m.ctx → (t.core m.tgt).deque = (s.core m.tgt).deque.tail) := by
  have next : exec (.dqstealArrival m.id) s = execDqstealArrival m.id s := rfl
  rw [execDqstealArrival, head, find?_head m ms (·.id)] at next
  dsimp only at next
  rw [takeWhile_head m ms (·.id), may, ← head] at next
  obtain ⟨mem, steals, deque⟩ := State.stealAt_spec { s with steals := s.steals.filter fun x => x.id != m.id } m.tgt m.ctx
  generalize State.stealAt { s with steals := s.steals.filter fun x => x.id != m.id } m.tgt m.ctx = taken at *
  have kept : DequesKept taken.2 _ := (DequesKept.modCore (s := taken.2) (c := m.tgt) (f := fun c => { c with phase := if c.running then 13 else 0 })
    fun _ => rfl).trans ((DequesKept.modCore (c := m.tgt) (f := fun c => { c with lastThief := m.src }) fun _ => rfl).trans
      (.stealDone _ m.gid m.src m.load m.d m.c taken.1))
  exact ⟨_, next.trans (event_of rfl), kept.mem.trans mem, kept.steals.trans steals, fun ctx => (kept.deque _).trans (deque ctx)⟩

/-- The access at the head of the queue is performed where it goes (R202, R204). -/
theorem spadAccess_completes {s : State} {m : SpadMsg} {ms : List SpadMsg} (head : s.spads = m :: ms) (free : m.deps = [])
    (may : s.spadTarget m = m.src ∨ s.mayArrive (s.spadTarget m) m.src (s.core (s.spadTarget m)).lastSrc = true) :
    let tgt := s.spadTarget m
    let s0 := (({ s with spads := s.spads.filter fun x => x.id != m.id } : State).spadPerform m m.src).dropExited m.gid m.load
    let s1 := if m.kind = 4 then s0.feArrive m else s0
    let s2 := if tgt = m.src then s1 else s1.arrived tgt m.src
    exec (.remoteScratchpadAccess m.id) s = .next (if (s.core tgt).running = true then s2 else s2.feCycle tgt) := by
  have next : exec (.remoteScratchpadAccess m.id) s = execRemoteScratchpadAccess m.id s := rfl
  have goes : (s.spadTarget m == m.src || s.mayArrive (s.spadTarget m) m.src (s.core (s.spadTarget m)).lastSrc) = true := by simpa using may
  rw [execRemoteScratchpadAccess, head, find?_head m ms (·.id)] at next
  dsimp only at next
  rw [takeWhile_head m ms (·.id), free, goes, ← head] at next
  simpa only [beq_iff_eq] using next.trans (event_of rfl)

/-! Signals. -/

theorem exec_sigaddApplied {s t : State} {id : Nat} {m : SigAdd} (found : (s.sigs.find? fun x => x.id == id) = some m)
    (applied : s.sigApply m = some t) : exec (.sigaddApplied id) s = .next t := by
  have next : exec (.sigaddApplied id) s = maybe "SIGADD_APPLIED" ((s.sigs.find? fun m => m.id == id).bind s.sigApply) := rfl
  rw [next, found, Option.bind_some, applied, maybe]

/-- A signal addition at its home adds its value to the word there, once nothing holds it up (R401). -/
theorem State.sigApply_home {s : State} {m : SigAdd} {cells : List Host.Cell} (unsent : m.sent = false) (free : ∀ d ∈ m.deps, s.pendingId d = false)
    (home : pkgOf m.pa = s.pkg) (order : inScm m.pa = true → s.olderWrite m.gid m.epoch m.id = false ∧ s.wbqRoom m.pa = true)
    (still : s.sweeping m.pa = false) (sound : s.anyBad (s.readPas m.pa m.step ++ s.writePas m.pa 8 m.step) = false)
    (written : s.writeCells m.pa m.step (bytesOf 8 ((ofBytes (s.homeRead m.pa 8 m.step) + m.val) % 2 ^ 64)) = some cells) :
    s.sigApply m = some ((({ s with sigs := s.sigs.filter fun x => x.id != m.id } : State).homeCells cells).finishOp m.ctx m.gid 3 m.n none) := by
  have waits : (m.sent || m.deps.any s.pendingId || (inScm m.pa && s.olderWrite m.gid m.epoch m.id)) = false := by
    rw [unsent, List.any_eq_false.2 fun d hd => by rw [free d hd]; exact Bool.false_ne_true]
    cases scm : inScm m.pa with
    | false => rfl
    | true => rw [(order scm).1]; rfl
  have reached : s.reachable s.pkg = true := by rw [State.reachable, beq_self_eq_true, Bool.true_or]
  have room : (inScm m.pa && !s.wbqRoom m.pa) = false := by
    cases scm : inScm m.pa with
    | false => rfl
    | true => rw [(order scm).2]; rfl
  simp only [State.sigApply, waits, home, reached, still, sound, room, written, Bool.not_true, Bool.false_eq_true, if_false, ne_eq, not_true]
  rfl

/-- Settles O45: each event's condition is the one its statement asks for, and what it leaves is the state the event names. -/
theorem coreEventsComplete : Obligations.CoreEventsComplete := by
  intro s core part gid slot n line cyc g b
  refine ⟨fun r chosen run => ?_, fun r run ended => ?_, fun j mem old => ?_, event_of, event_of, fun needed unasked still => ?_,
    fun a => loadReturn_completes, fun w word commits => ?_, event_of, fun wakes => ?_, fun runs stops => ?_, fun on stands gate later wakes first => ?_,
    fun l raise => ?_, fun c cs => claimServed_completes, fun dead ended => ?_, fun orphaned ended => ?_,
    fun lvl id unit low high done ended => ?_, fun lvl id unit high full => ?_, event_of, fun m ms head free => spadAccess_completes head free,
    fun m ms => stealArrival_completes, fun m => ⟨event_of, fun found t => exec_sigaddApplied found, fun cells found unsent free home order still sound written =>
      exec_sigaddApplied found (State.sigApply_home unsent free home order still sound written)⟩⟩
  · exact ⟨_, exec_runSelect chosen, run ▸ s.beginRun_part core part gid slot, s.beginRun_group core part gid slot⟩
  · have next : exec (.runBoundary core part) s = execRunBoundary core part s := rfl
    rw [next, execRunBoundary, run]
    exact event_of ended
  · exact event_of (List.any_eq_true.2 ⟨j, mem, by simpa using old⟩)
  · exact event_of (by simpa [unasked] using ⟨needed, still⟩)
  · have next : exec (.settleCommit gid slot) s = execSettleCommit gid slot s := rfl
    rw [next, execSettleCommit, word]
    exact event_of commits
  · exact ⟨_, event_of wakes, State.modGroup_self ..⟩
  · exact event_of (by simpa [State.mayStop, runs] using stops)
  · exact event_of (by simp [on, stands, gate, State.restartsAt_of later wakes first])
  · have next : exec (.levelRaiseSettled n) s = execLevelRaiseSettled n s := rfl
    rw [next, execLevelRaiseSettled]
    dsimp only
    rw [raise]
  · exact event_of (by rw [dead, ended]; rfl)
  · exact event_of (by rw [orphaned, ended]; rfl)
  · have next : exec (.barrierComplete n lvl id unit) s = execBarrierComplete n lvl id unit s := rfl
    rw [next, execBarrierComplete, if_neg (by omega)]
    exact event_of (by simpa [low, done] using ended)
  · have next : exec (.barrierComplete n lvl id unit) s = execBarrierComplete n lvl id unit s := rfl
    rw [next, execBarrierComplete, if_pos high]
    exact event_of full

end Sys2Proof.Machine
end

section
/-! The lane operations, IADDC and ISUBB, and the compares (R110, R111, R115, R116, R120, R123). -/

namespace Sys2Proof.Machine

/-- A ready operation issues as any effect that does the same in its state. -/
theorem Ready.exec_eq_issue {s : State} {i : Instr} {x : Iss} (h : Ready s i x) {eff : Iss → State → Eff} (ho : effectOf x.ins.op = some eff)
    {as : Iss → State → Eff} (same : eff x s = as x s) : exec i s = issue x.ins as s := by
  rw [h.exec_eq ho, issue_ready as h.issuer h.settled h.checks h.sound, same]

/-- A ready operation that acts as a lane operation within the cap (R104, R185). -/
theorem Ready.laneVal {s : State} {i : Instr} {x : Iss} (h : Ready s i x) (room : s.overCap x x.ins.dsts = false) {f : Args → Nat × Flags}
    {eff : Iss → State → Eff} (ho : effectOf x.ins.op = some eff) (same : eff x s = Machine.laneVal f x s) :
    ∃ t, exec i s = .next t ∧ Result s t x (toLanes x x.ins.dsts.length fun l => (f ((s.regs x).args x l)).1) noPred
      (raised x fun l => (f ((s.regs x).args x l)).2) := by
  rw [h.exec_eq_issue ho same]
  exact laneVal_result f h.issuer h.settled h.checks h.sound room

/-- A ready sum or difference with carry within the cap (R111). -/
theorem Ready.laneCarry {s : State} {i : Instr} {x : Iss} (h : Ready s i x) (room : s.overCap x x.ins.dsts = false) {f : Args → Nat × Bool}
    (ho : effectOf x.ins.op = some (Machine.laneCarry f)) :
    ∃ t, exec i s = .next t ∧ Result s t x (toLanes x 1 fun l => (f ((s.regs x).args x l)).1)
      (toPred x x.ins.c fun l => (f ((s.regs x).args x l)).2) 0 := by
  rw [h.exec_eq_issue ho rfl]
  exact laneCarry_result f h.issuer h.settled h.checks h.sound room

/-- A ready compare (R115, R120). -/
theorem Ready.lanePred {s : State} {i : Instr} {x : Iss} (h : Ready s i x) {f : Args → Bool × Flags}
    (ho : effectOf x.ins.op = some (Machine.lanePred f)) :
    ∃ t, exec i s = .next t ∧ Result s t x noReg
      (toPred x x.ins.d fun l => mergePred x.ins.opx ((s.regs x).pred x.ins.d l) (f ((s.regs x).args x l)).1)
      (raised x fun l => (f ((s.regs x).args x l)).2) := by
  rw [h.exec_eq_issue ho rfl]
  exact lanePred_result f h.issuer h.settled h.checks h.sound

/-! The fields of an instruction as each of its lanes reads them (R104). -/

section
variable {s : State} {x : Iss} {op : Nat} (h : x.ins.op = op) (known : (opInfo op).isSome) (l : Nat)
include h known

theorem State.args_ty : ((s.regs x).args x l).ty = x.ins.ty := by
  obtain ⟨-, ty, -⟩ := regs_args_op (s := s) h known l
  exact ty

theorem State.args_cc : ((s.regs x).args x l).cc = x.ins.c := by
  obtain ⟨-, -, -, -, cc, -⟩ := regs_args_op (s := s) h known l
  exact cc

theorem State.args_lane : ((s.regs x).args x l).lane = l := by
  obtain ⟨-, -, -, -, -, lane, -⟩ := regs_args_op (s := s) h known l
  exact lane

theorem State.args_p : ((s.regs x).args x l).p = (s.regs x).pred x.ins.c l := by
  obtain ⟨-, -, -, -, -, -, p⟩ := regs_args_op (s := s) h known l
  exact p

end

/-- An operation with a lane rule issues as the lane operation of that rule. -/
theorem effectOf_of_laneRule {op : Nat} {f : Args → Nat × Flags} (rule : laneRule op = some f) : effectOf op = some (laneVal f) := by
  unfold laneRule at rule
  split at rule <;> cases rule <;> rfl

/-- Settles O1: an operation with a lane rule is the lane operation of that rule, in every format. -/
theorem laneOperationsWriteTheirResults : Obligations.LaneOperationsWriteTheirResults :=
  fun _ _ _ _ ready rule room => ready.laneVal room (effectOf_of_laneRule rule) rfl

/-- Settles O3: the predicate that C names is the carry in of each lane. -/
theorem carryOperationsWriteSumAndCarry : Obligations.CarryOperationsWriteSumAndCarry := by
  intro f s x room a b c
  refine ⟨fun ready => ?iaddc, fun ready => ?isubb⟩
  case iaddc =>
    have op : x.ins.op = 0x06 := by rw [ready.ins_eq rfl]; rfl
    have done := ready.laneCarry room (f := iaddcLane) (by rw [op]; rfl)
    simpa only [iaddcLane, State.args_p op rfl] using done
  case isubb =>
    have op : x.ins.op = 0x07 := by rw [ready.ins_eq rfl]; rfl
    have done := ready.laneCarry room (f := isubbLane) (by rw [op]; rfl)
    simpa only [isubbLane, State.args_p op rfl] using done

/-- A ready floating-point compare: C names the condition and TY the format (R120). -/
theorem Ready.floatCompare {s : State} {i : Instr} {x : Iss} (h : Ready s i x) (op : x.ins.op = 0x38 ∨ x.ins.op = 0x4F) :
    ∃ t, exec i s = .next t ∧
      let c (l : Nat) : Bool × Flags := fcmpNum x.ins.c ((tyFmt x.ins.ty).decode ((s.regs x).args x l).a) ((tyFmt x.ins.ty).decode ((s.regs x).args x l).b)
      Result s t x noReg (toPred x x.ins.d fun l => mergePred x.ins.opx ((s.regs x).pred x.ins.d l) (c l).1) (raised x fun l => (c l).2) := by
  have known : (opInfo x.ins.op).isSome := by rcases op with op | op <;> rw [op] <;> rfl
  have done := h.lanePred (f := fcmpLane) (by rcases op with op | op <;> rw [op] <;> rfl)
  simpa only [fcmpLane, State.args_ty rfl known, State.args_cc rfl known] using done

/-- Settles O4: C names the condition, and TY the width or the format, in every lane. -/
theorem comparesWriteTheirPredicate : Obligations.ComparesWriteTheirPredicate := by
  intro f s x v
  refine ⟨fun ready => ?_, fun i form ready => ready.floatCompare ?_⟩
  · have op : x.ins.op = 0x1F := by rw [ready.ins_eq rfl]; rfl
    have done := ready.lanePred (f := icmpLane) (by rw [op]; rfl)
    simpa only [icmpLane, Args.w, State.args_ty op rfl, State.args_cc op rfl, raised_zero] using done
  · rcases form with rfl | rfl
    · exact .inl (by rw [ready.ins_eq rfl]; rfl)
    · exact .inr (by rw [ready.ins_eq rfl]; rfl)

end Sys2Proof.Machine
end

section
/-! MOV, READL, PSET and PMOV (R128, R131, R179). -/

namespace Sys2Proof.Machine

/-- The executing lanes receive values in the lane predicates below `n`. -/
def toPreds (x : Iss) (n : Nat) (v : Nat → Nat → Bool) : Nat → Nat → Option Bool := fun c l =>
  if c < n ∧ x.exec.getLsbD l = true then some (v c l) else none

/-- Lane predicates written one after the other (R56). -/
theorem State.writePs_writes (s : State) (x : Iss) {n : Nat} (hn : n ≤ 7) (v : Nat → Nat → Bool) :
    Writes s ((List.range n).foldl (fun t k => t.writeP x k (v k)) s) x [] noReg (toPreds x n v) 0 := by
  induction n with
  | zero =>
    have none : toPreds x 0 v = noPred := by funext c l; simp [toPreds, noPred]
    rw [none]
    exact Writes.refl s x
  | succ n ih =>
    rw [List.range_succ, List.foldl_append]
    refine ((ih (by omega)).then (State.writeP_writes _ x n (v n))).as (by simp [noReg]) (fun c l => ?_) (by simp)
    by_cases last : c = n
    · subst last
      cases here : x.exec.getLsbD l <;> simp [toPred, toPreds, here, show c < 7 by omega]
    · simp [toPred, toPreds, last, show c < n + 1 ↔ c < n by omega]

/-- Settles O6: MOV is a lane operation but for the self move; READL, PSET and PMOV write the registers or the predicates they name. -/
theorem movesWriteTheirResults : Obligations.MovesWriteTheirResults := by
  intro i s x ready
  refine ⟨fun op => ⟨fun self => ?selfMove, fun moves room => ?mov⟩, fun op => ?readl, fun op => ?pset, fun op opx room => ?toRegister,
    fun op opx => ?toPredicates⟩
  case selfMove => exact ready.result (eff := movEff) (by rw [op]; rfl) (if_pos self) (Writes.refl' s x)
  case mov =>
    have done := ready.laneVal room (eff := movEff) (f := fun a => (a.a, 0)) (by rw [op]; rfl) (if_neg (by simp [moves]))
    rwa [raised_zero] at done
  case readl =>
    have writes := fun w => (State.lastReads_writes s x).then (State.writeU_writes (s.lastReads x) x x.ins.d w)
    refine ready.result (eff := readlEff) (by rw [op]; rfl) rfl ((writes _).as (fun c l => ?_) (by simp [noPred]) (by simp))
    rw [oneUni_eq_toUniform]
    exact Option.or_none
  case pset =>
    refine ready.result (eff := psetEff) (by rw [op]; rfl) rfl (((State.writeP_writes s x _ _).mayFree _).as (fun _ _ => rfl) (fun c l => ?_) rfl)
    refine congrFun (congrFun (toPred_congr fun l _ _ => ?_) c) l
    match x.ins.opx with
    | 0 | 1 | 2 | _ + 3 => simp
  case toRegister =>
    obtain ⟨t, done, writes⟩ := laneValN_writes 1 (fun a => ((List.range 12).foldr (fun k acc => ((s.regs x).pred k a.lane).toNat + 2 * acc) 0, 0)) x s
    simp only [State.args_lane op rfl, raised_zero] at writes
    refine ready.result (eff := pmovEff) (by rw [op]; rfl) ?_ writes
    rw [pmovEff, if_pos opx, capped, if_neg (by simp [room]), done]
  case toPredicates =>
    refine ready.result (eff := pmovEff) (by rw [op]; rfl) (by rw [pmovEff, if_neg (by omega)])
      (((State.lastReads_writes s x).then (State.writePs_writes _ x le_rfl _)).as (by simp [noReg]) ?_ (by simp))
    simp [noPred, toPreds]

end Sys2Proof.Machine
end

section
/-! SREG (R44, R130). -/

namespace Sys2Proof.Machine

/-- A further change of the issuing group stays within it. -/
theorem Local.thenModGroup {s t : State} {x : Iss} (h : Local s t x) (f : Group → Group) : Local s (t.modGroup x.gid f) x where
  rest := by rw [h.rest]; rfl
  others g hg := (State.modGroup_ne t hg f).trans (h.others g hg)
  cores := h.cores
  core := h.core
  parts := h.parts
  part := h.part

/-- The flags cleared (R44). -/
def Group.clearFlags (g : Group) : Group := { g with fpstat := 0 }

theorem RegsOnly.clearFlags {s t : State} {x : Iss} (h : RegsOnly s t x) : RegsOnly s (t.modGroup x.gid Group.clearFlags) x := by
  unfold RegsOnly at *
  rw [State.modGroup_self, h]
  rfl

theorem Passes.clearFlags {s t : State} {x : Iss} (h : Passes s t x) : Passes s (t.modGroup x.gid Group.clearFlags) x where
  lanes l hl := by rw [State.modGroup_self]; exact h.lanes l hl
  slot := by rw [State.modGroup_self]; exact h.slot
  slots k hk := by rw [State.modGroup_self]; exact h.slots k hk
  run := h.run

theorem State.regs_clearFlags (s : State) (x : Iss) (c l : Nat) :
    (((s.modGroup x.gid Group.clearFlags).regs x).x c l = (s.regs x).x c l) ∧
      (((s.modGroup x.gid Group.clearFlags).regs x).pred c l = (s.regs x).pred c l) := by
  constructor
  · apply Regs.x_congr <;> simp [Group.clearFlags]
  · apply Regs.pred_congr <;> simp [Group.clearFlags]

/-- Whether the flags are cleared before or after the split goes on makes no difference. -/
theorem State.advance_clearFlags (s : State) (x : Iss) :
    (s.modGroup x.gid Group.clearFlags).advance x = (s.advance x).modGroup x.gid Group.clearFlags := by
  have group : ∀ f : Group → Group, (∀ g, f g.clearFlags = (f g).clearFlags) →
      (s.modGroup x.gid Group.clearFlags).modGroup x.gid f = (s.modGroup x.gid f).modGroup x.gid Group.clearFlags := fun f same => by
    simp only [State.modGroup_modGroup, same]
  unfold State.advance
  dsimp only
  rw [group]
  · split
    · rw [State.endRun_eq, State.endRun_eq, State.modGroup_self]
      rfl
    · rfl
  · exact fun _ => rfl

/-- SREG reads no register for the last time. -/
theorem lastOnes_of_sreg {x : Iss} (op : x.ins.op = 0x68) : x.lastOnes = [] := by
  have info : opInfo 0x68 = some (laneI kv (.lim 22) .zero .zero [0, 10] false [0, 1]) := rfl
  simp [Iss.lastOnes, Ins.lastNames, Ins.kinds, op, info, laneI, Ins.codes]

/-- Settles O10: SREG is a write of lane results; with OPX = 1 the flags are cleared in the same step. -/
theorem sregReadsItsRegister : Obligations.SregReadsItsRegister := by
  intro f s x ready room n v clears
  have op : x.ins.op = 0x68 := by rw [ready.ins_eq rfl]; rfl
  have writes := (State.writeTable_writes s x n v).mayFree x.lastOnes
  obtain ⟨core, part⟩ := ready.place
  obtain ⟨here, only, passes, written, kept, preds, flags⟩ := writes.advance core part
  have freed : ∀ c, c ∉ x.lastOnes := fun c => by rw [lastOnes_of_sreg op]; exact List.not_mem_nil
  have next := ready.exec_eq (eff := sregEff) (by rw [op]; rfl)
  have within : sregEff x s = .done (if x.ins.opx = 1 ∧ x.exec ≠ 0 ∧ x.handler = false then
      (s.writeLanes x x.ins.d n (laneTable x v)).modGroup x.gid Group.clearFlags else s.writeLanes x x.ins.d n (laneTable x v)) := by
    rw [sregEff, capped, if_neg (by simp [room])]
    rfl
  rw [within, Eff.settle] at next
  have agrees : (x.ins.opx = 1 ∧ x.exec ≠ 0 ∧ x.handler = false) ↔ clears = true := by simp [clears, and_assoc]
  by_cases clear : x.ins.opx = 1 ∧ x.exec ≠ 0 ∧ x.handler = false
  · rw [if_pos clear, State.advance_clearFlags] at next
    refine ⟨_, next, here.thenModGroup _, only.clearFlags, passes.clearFlags, fun c l w hl hw => ?_, fun c l hl hn => ?_, fun c l hl => ?_, ?_⟩
    · rw [(State.regs_clearFlags _ x c l).1]; exact written c l w hl hw
    · rw [(State.regs_clearFlags _ x c l).1]; exact kept c l hl hn (freed c)
    · rw [(State.regs_clearFlags _ x c l).2]; exact preds c l hl
    · rw [State.modGroup_self, if_pos (agrees.1 clear)]; rfl
  · rw [if_neg clear] at next
    refine ⟨_, next, here, only, passes, written, fun c l hl hn => kept c l hl hn (freed c), preds, ?_⟩
    rw [flags, if_neg (mt agrees.2 clear)]
    simp

end Sys2Proof.Machine
end

section
/-! SPRS of a format that has no second source (R57, R127). -/

namespace Sys2Proof.Machine

/-- SPRS of an accepted format that is not 16 bits wide traps where B is marked as read for the last time: B is then no v register. -/
theorem sprsEff_lastReadB {x : Iss} {s : State} (ok : slotOk (s.fmtSlot x.gid x.ins.c) = true)
    (accepted : slotFmt (s.fmtSlot x.gid x.ins.c) ∉ [0, 6, 7]) (unscaled : slotScale (s.fmtSlot x.gid x.ins.c) = 0)
    (narrow : (slotFormat (s.fmtSlot x.gid x.ins.c)).width ≠ 16) (lastB : x.ins.last 3 = true) :
    sprsEff x s = .trap (x.fault .illegalOperand) s := by
  unfold sprsEff
  dsimp only
  rw [if_neg (by simpa [ok, unscaled] using accepted), if_pos (by simp [narrow, lastB])]

/-- One group runs, with its trap handler at 0x2000, and format slot 0 of its block holds E5M2. -/
def narrowSlot : State :=
  let s := State.reset.withFetchWord 16 0
  { s with
    groups := [(0, { s.group 0 with sys := { tvec := 0x2000 } })]
    blocks := [(0, { s.block 0 with fmts := [4] })] }

/-- SPRS v6, v3 with LB = 1. -/
def sprsLastB : W64F := { m12 := 8, c := 0, b := 0, a := 3, d := 6, gn := 0, g := 7, st := 0, e := 0 }

/-- The issue of that SPRS in slot 0 of the group. -/
def sprsIssue : Iss := narrowSlot.issAt 0 0 (insW64 0x63 sprsLastB)

theorem sprs_ready : Ready narrowSlot (.sprs sprsLastB) sprsIssue where
  word := rfl
  issuer := by decide +kernel
  settled := by decide +kernel
  checks := by decide +kernel
  sound := by decide +kernel

/-- The trap of that SPRS enters the handler. -/
theorem sprs_trap_mode : (((narrowSlot.raise sprsIssue.gid sprsIssue.slot (sprsIssue.fault .illegalOperand)).group sprsIssue.gid).slot sprsIssue.slot).mode = .handler ∧
    ((narrowSlot.group sprsIssue.gid).slot sprsIssue.slot).mode = .running := by decide +kernel

/-- Refutes O8: SPRS of an 8-bit format with B = 0 and LB = 1 traps ILLEGAL_OPERAND, and its split stands in the handler. -/
theorem not_slotConversionsWriteTheirResults : ¬ Obligations.SlotConversionsWriteTheirResults := by
  intro h
  have slot : narrowSlot.fmtSlot sprsIssue.gid sprsIssue.ins.c = 4 := by decide +kernel
  have narrow : (slotFormat 4).width = 8 := rfl
  have accepted : slotFmt 4 ∉ [0, 6, 7] := by decide
  obtain ⟨-, -, completes⟩ := h sprsLastB narrowSlot sprsIssue
  simp only [slot] at completes
  obtain ⟨t, next, result⟩ := completes sprs_ready rfl accepted rfl (fun _ => rfl) (fun pair => absurd pair (by rw [narrow]; simp))
    (by decide +kernel)
  have trapped := sprs_ready.exec_eq (eff := sprsEff) rfl
  rw [sprsEff_lastReadB (by rw [slot]; rfl) (by rw [slot]; exact accepted) (by rw [slot]; rfl) (by rw [slot, narrow]; decide) rfl, Eff.settle,
    next] at trapped
  obtain rfl := Host.Outcome.next.inj trapped
  obtain ⟨handler, running⟩ := sprs_trap_mode
  have kept := congrArg Slot.mode result.passes.slot
  rw [handler] at kept
  cases kept.trans running

end Sys2Proof.Machine
end

section
/-! SHFL, VRED, VSCAN, VOTE, BALLOT and MATCH (R38, R39, R134 to R137). -/

namespace Sys2Proof.Machine

/-- One result of each executing lane written to D, after the last reads (R104, R180). -/
theorem State.lastReads_writeTable_writes (s : State) (x : Iss) (n : Nat) (v : Nat → Nat) :
    Writes s ((s.lastReads x).writeLanes x x.ins.d n (laneTable x v)) x x.lastOnes (toLanes x n v) noPred 0 :=
  ((State.lastReads_writes s x).then (State.writeTable_writes _ x n v)).as (by simp [noReg]) (by simp [noPred]) (by simp)

/-- The same with flags raised (R43). -/
theorem State.lastReads_writeTable_flags_writes (s : State) (x : Iss) (n : Nat) (v : Nat → Nat) (f : Flags) :
    Writes s (((s.lastReads x).writeLanes x x.ins.d n (laneTable x v)).flags x f) x x.lastOnes (toLanes x n v) noPred f :=
  ((State.lastReads_writeTable_writes s x n v).then (State.flags_writes _ x f)).as (by simp [noReg]) (by simp [noPred]) (by simp)

/-- The lane that SHFL reads for a lane, and whether it is one that takes part (R134). -/
def Iss.shflPick (x : Iss) (r : Regs) (l : Nat) : Option Nat :=
  (shflSrc x.ins.opx (r.x x.ins.b l).toNat l).filter fun j => x.active.getLsbD j

/-- What SHFL gives a lane, and whether its source takes part. -/
def Iss.shflLane (x : Iss) (r : Regs) (n l : Nat) : Nat × Bool :=
  match shflSrc x.ins.opx (r.x x.ins.b l).toNat l with
  | some j => if x.active.getLsbD j then (r.xs x.ins.a n j, true) else (r.xs x.ins.a n l, false)
  | none => (r.xs x.ins.a n l, false)

/-- A lane receives the value of its source, or its own where it has none. -/
theorem Iss.shflLane_eq (x : Iss) (r : Regs) (n l : Nat) :
    x.shflLane r n l = (r.xs x.ins.a n ((x.shflPick r l).getD l), (x.shflPick r l).isSome) := by
  unfold Iss.shflLane Iss.shflPick
  cases shflSrc x.ins.opx (r.x x.ins.b l).toNat l with
  | none => rfl
  | some j => cases here : x.active.getLsbD j <;> simp [Option.filter, here]

/-- SHFL is one table of lane results and one predicate. -/
theorem shflEff_eq {s : State} {x : Iss} (room : s.overCap x x.ins.dsts = false) :
    let t := laneTable x (x.shflLane (s.regs x) x.ins.width)
    let s1 := (s.lastReads x).writeLanes x x.ins.d x.ins.width (t.map fun y => (y.1, y.2.1))
    shflEff x s = .done (if x.ins.c = 288 then s1 else s1.writeP x x.ins.c fun l => (tableAt t l (0, false)).2) := by
  rw [shflEff, capped, room]
  rfl

theorem voteEff_eq (x : Iss) (s : State) :
    let votes := (x.exec.lanes.filter fun l => (s.regs x).pred x.ins.a l).length
    voteEff x s = .done (s.writeP x x.ins.d fun _ =>
      if x.ins.opx = 0 then votes == x.exec.lanes.length else if x.ins.opx = 1 then decide (votes > 0)
      else if x.ins.opx = 2 then votes == 0 || votes == x.exec.lanes.length else decide (2 * votes > x.exec.lanes.length)) := by
  unfold voteEff
  match x.ins.opx with
  | 0 | 1 | 2 | _ + 3 => simp

/-- Settles O9: each of them is one table of lane results, SHFL and VOTE with a predicate, VRED and VSCAN with flags. -/
theorem crossLaneOperationsWriteTheirResults : Obligations.CrossLaneOperationsWriteTheirResults := by
  intro i s x ready room r n src votes
  refine ⟨fun op => ?shfl, fun op => ?vred, fun op => ?vscan, fun op => ?vote, fun op => ?ballot, fun op => ?matchLanes⟩
  case shfl =>
    have lanes := State.lastReads_writeTable_writes s x n fun l => (x.shflLane r n l).1
    rw [show (toLanes x n fun l => r.xs x.ins.a n ((src l).getD l)) = toLanes x n fun l => (x.shflLane r n l).1 from
      congrArg (toLanes x n) (funext fun l => by rw [Iss.shflLane_eq]; rfl)]
    rw [show (fun l => (src l).isSome) = fun l => (x.shflLane r n l).2 from funext fun l => by rw [Iss.shflLane_eq]; rfl]
    refine ready.result (eff := shflEff) (by rw [op]; rfl) (shflEff_eq room) ?_
    rw [laneTable_map]
    by_cases noDest : x.ins.c = 288
    · simp only [if_pos noDest]
      exact lanes
    · simp only [if_neg noDest]
      refine (lanes.then (State.writeP_writes _ x x.ins.c _)).as (by simp [noReg]) (fun c l => ?_) (by simp)
      rw [toPred_congr fun l hl he => by rw [tableAt_laneTable x _ _ hl he]]
      simp [noPred, r, n]
  case vred => exact ready.cappedResult room (by rw [op]; rfl) rfl (State.lastReads_writeTable_flags_writes ..)
  case vscan => exact ready.cappedResult room (by rw [op]; rfl) rfl (State.lastReads_writeTable_flags_writes ..)
  case vote => exact ready.result (eff := voteEff) (by rw [op]; rfl) (voteEff_eq x s) ((State.writeP_writes ..).mayFree _)
  case ballot => exact ready.cappedResult room (by rw [op]; rfl) rfl ((State.writeTable_writes ..).mayFree _)
  case matchLanes => exact ready.cappedResult room (by rw [op]; rfl) rfl (State.lastReads_writeTable_writes ..)

end Sys2Proof.Machine
end

section
/-! What the memory instructions share (R138 to R152, R160, R268): their checks, the loads they enter and the accesses they start. -/

namespace Sys2Proof.Machine

/-! Checks that pass. -/

theorem withLoadRoom_of_lt {s : State} {x : Iss} (h : s.loadCount x < 32) (eff : Iss → State → Eff) : withLoadRoom eff x s = eff x s := if_pos h

theorem capped_of_room {s : State} {x : Iss} {names : Ins → List Nat} (h : s.overCap x (names x.ins) = false) (eff : Iss → State → Eff) :
    capped names eff x s = eff x s := if_neg (by simp [h])

/-- One lane's translation joins what completes or what is unfinished (R150). -/
def State.laneTurn (s : State) (x : Iss) (n : Need) (acc : List (Nat × Nat × Nat) × List (Nat × Nat × Cause)) (a : Nat × Nat) :
    List (Nat × Nat × Nat) × List (Nat × Nat × Cause) :=
  match s.laneAccess x.core (s.group x.gid).ctx (s.group x.gid).step.toNat n a.2 with
  | .ok pa => (acc.1 ++ [(a.1, a.2, pa)], acc.2)
  | .error c => (acc.1, acc.2 ++ [(a.1, a.2, c)])

theorem State.lanesAt_eq_foldl (s : State) (x : Iss) (n : Need) (la : List (Nat × Nat)) : s.lanesAt x n la = la.foldl (s.laneTurn x n) ([], []) := rfl

theorem State.laneTurn_cases (s : State) (x : Iss) (n : Need) (acc : List (Nat × Nat × Nat) × List (Nat × Nat × Cause)) (a : Nat × Nat) :
    (∃ pa, s.laneTurn x n acc a = (acc.1 ++ [(a.1, a.2, pa)], acc.2)) ∨ ∃ c, s.laneTurn x n acc a = (acc.1, acc.2 ++ [(a.1, a.2, c)]) := by
  unfold State.laneTurn
  split
  · exact .inl ⟨_, rfl⟩
  · exact .inr ⟨_, rfl⟩

/-- Where no lane is unfinished, every lane completes, in order. -/
theorem State.lanesAt_lanes {s : State} {x : Iss} {n : Need} {la : List (Nat × Nat)} (all : (s.lanesAt x n la).2 = []) :
    (s.lanesAt x n la).1.map Prod.fst = la.map Prod.fst := by
  rw [State.lanesAt_eq_foldl] at all ⊢
  induction la using List.reverseRecOn with
  | nil => rfl
  | append_singleton la a ih =>
    rw [List.foldl_append, List.foldl_cons, List.foldl_nil] at all ⊢
    rcases s.laneTurn_cases x n (la.foldl (s.laneTurn x n) ([], [])) a with ⟨pa, turn⟩ | ⟨c, turn⟩ <;> rw [turn] at all ⊢
    · simp [ih all]
    · simp at all

/-- A global instruction whose lanes pass the checks and translate performs them all (R150). -/
theorem globalEff_done {s : State} {x : Iss} {n : Need} {uni : Bool} {w : Nat} {la : List (Nat × Nat)} (aligned : x.misaligned uni w la = none)
    (all : (s.lanesAt x n la).2 = []) (perform : State → List (Nat × Nat × Nat) → State) :
    globalEff n uni w la perform x s = .done (perform s (s.lanesAt x n la).1) := by
  simp [globalEff, aligned, all]

theorem Iss.addrs_lanes (x : Iss) (f : Nat → Nat) : (x.addrs f).map Prod.fst = x.exec.lanes := by simp [Iss.addrs, Function.comp_def]

/-- The lanes listed by an instruction are the executing ones. -/
theorem Iss.mask_of_lanes {α : Type} {x : Iss} {ls : List (Nat × α)} (h : ls.map Prod.fst = x.exec.lanes) :
    (Mask.ofFn fun l => ls.any fun a => a.1 == l) = x.exec := by
  refine BitVec.eq_of_getLsbD_eq fun l hl => ?_
  have listed : (ls.any fun a => a.1 == l) = x.exec.lanes.contains l := by
    rw [← h, List.contains_eq_any_beq, List.any_map]
    exact congrArg ls.any (funext fun a => Bool.beq_comm)
  rw [Mask.ofFn_getLsbD, listed, Bool.eq_iff_iff]
  simp [hl, Mask.mem_lanes]

theorem Mask.lanes_ne_nil {m : Mask} (h : m ≠ 0) : m.lanes ≠ [] := by
  intro none
  refine h (BitVec.eq_of_getLsbD_eq fun l hl => ?_)
  by_contra here
  have mem : l ∈ m.lanes := Mask.mem_lanes.2 ⟨hl, by simpa using here⟩
  rw [none] at mem
  cases mem

/-- Lanes that all complete are some, where a lane executes. -/
theorem State.lanesAt_isEmpty {s : State} {x : Iss} {n : Need} {f : Nat → Nat} (some_ : x.exec ≠ 0) (all : (s.lanesAt x n (x.addrs f)).2 = []) :
    (s.lanesAt x n (x.addrs f)).1.isEmpty = false := by
  have lanes := (State.lanesAt_lanes all).trans (x.addrs_lanes f)
  rw [List.isEmpty_eq_false_iff]
  intro none
  rw [none] at lanes
  exact Mask.lanes_ne_nil some_ lanes.symm

/-! Accesses that start. -/

/-- Nothing but groups, accesses under way and the next name has changed. -/
def Under (s t : State) : Prop := t = { s with groups := t.groups, accs := t.accs, nextId := t.nextId }

theorem Under.refl (s : State) : Under s s := rfl

theorem Under.trans {s t u : State} (h₁ : Under s t) (h₂ : Under t u) : Under s u := by
  unfold Under at *
  rw [h₂, h₁]

/-- Of an access, what the statements name (R140, R141, R147). -/
abbrev Form : Type := AccKind × Mask × Nat × Nat × List (Nat × List Byte) × Bool × Option Nat

/-- Accesses of these forms have started, and nothing else has changed. -/
structure Adds (s t : State) (fs : List Form) : Prop where
  rest : t = { s with accs := t.accs, nextId := t.nextId }
  news : ∃ news, t.accs = s.accs ++ news ∧ news.map Access.form = fs ∧ ∀ a ∈ news, a.done = false ∧ a.sent = false

theorem Adds.nil (s : State) : Adds s s [] := ⟨rfl, [], by simp⟩

theorem Adds.trans {s t u : State} {fs gs : List Form} (h₁ : Adds s t fs) (h₂ : Adds t u gs) : Adds s u (fs ++ gs) := by
  obtain ⟨ns, accs, forms, fresh⟩ := h₁.news
  obtain ⟨ms, accs', forms', fresh'⟩ := h₂.news
  refine ⟨by rw [h₂.rest, h₁.rest], ns ++ ms, by rw [accs', accs, List.append_assoc], by rw [List.map_append, forms, forms'], fun a ha => ?_⟩
  rcases List.mem_append.1 ha with ha | ha
  · exact fresh a ha
  · exact fresh' a ha

theorem Adds.startAccess (s : State) (a : Access) (more : List Nat) (undone : a.done = false) (unsent : a.sent = false) :
    Adds s (s.startAccess a more) [a.form] :=
  ⟨rfl, [_], rfl, rfl, by simp [undone, unsent]⟩

theorem Adds.under {s t : State} {fs : List Form} (h : Adds s t fs) : Under s t := by rw [Under, h.rest]

theorem Adds.group {s t : State} {fs : List Form} (h : Adds s t fs) (g : Nat) : t.group g = s.group g := by rw [h.rest]; rfl

/-- Accesses started one after the other. -/
theorem Adds.fold {α : Type} {s s₁ : State} {mk : State → α → Access} {more : State → α → List Nat} {f : α → Form} (under : Under s s₁)
    (each : ∀ t a, Under s t → (mk t a).form = f a ∧ (mk t a).done = false ∧ (mk t a).sent = false) (l : List α) :
    Adds s₁ (l.foldl (fun t a => t.startAccess (mk t a) (more t a)) s₁) (l.map f) := by
  induction l using List.reverseRecOn with
  | nil => exact .nil s₁
  | append_singleton l a ih =>
    rw [List.foldl_append, List.map_append]
    generalize l.foldl (fun t a => t.startAccess (mk t a) (more t a)) s₁ = t at ih ⊢
    obtain ⟨form, undone, unsent⟩ := each t a (under.trans ih.under)
    have one := Adds.startAccess t (mk t a) (more t a) undone unsent
    rw [form] at one
    exact ih.trans one

theorem State.foldl_startAccess_group {α : Type} (mk : State → α → Access) (more : State → α → List Nat) (l : List α) (s : State) (g : Nat) :
    (l.foldl (fun t a => t.startAccess (mk t a) (more t a)) s).group g = s.group g := by
  induction l generalizing s with
  | nil => rfl
  | cons a l ih => exact ih _

/-- What a release begins before the accesses of its instruction start (R268). -/
theorem State.releaseFor_spec (s : State) (x : Iss) :
    (s.releaseFor x).2 = { s with accs := (s.releaseFor x).2.accs, nextId := (s.releaseFor x).2.nextId } ∧
      ∃ rels, (s.releaseFor x).2.accs = s.accs ++ rels ∧ ∀ a ∈ rels, a.kind = .rel ∨ a.kind = .relWait := by
  unfold State.releaseFor
  split
  · unfold State.startRelease
    dsimp only
    split
    · exact ⟨rfl, [], by simp⟩
    · exact ⟨rfl, [_, _], rfl, by simp⟩
  · exact ⟨rfl, [], by simp⟩

/-- Accesses that start after a release have started. -/
theorem Starts.after {s s₁ t u : State} {x : Iss} {fs : List Form} (before : s₁.accs = s.accs) (adds : Adds (s₁.releaseFor x).2 t fs)
    (after : u.accs = t.accs) : Starts s u fs := by
  obtain ⟨-, rels, released, kinds⟩ := s₁.releaseFor_spec x
  obtain ⟨news, accs, forms, fresh⟩ := adds.news
  exact ⟨rels, news, by rw [after, accs, released, before], kinds, forms, fresh⟩

/-- Accesses that start without one have started. -/
theorem Starts.atOnce {s s₁ t u : State} {fs : List Form} (before : s₁.accs = s.accs) (adds : Adds s₁ t fs) (after : u.accs = t.accs) :
    Starts s u fs := by
  obtain ⟨news, accs, forms, fresh⟩ := adds.news
  exact ⟨[], news, by rw [after, accs, before, List.append_nil], by simp, forms, fresh⟩

/-! Loads that are entered. -/

/-- Only names of the issuing group have changed. -/
structure Maps (s t : State) (x : Iss) : Prop where
  rest : t = { s with groups := t.groups }
  group : t.group x.gid = { s.group x.gid with names := (t.group x.gid).names }

theorem Maps.refl (s : State) (x : Iss) : Maps s s x := ⟨rfl, rfl⟩

theorem Maps.trans {s t u : State} {x : Iss} (h₁ : Maps s t x) (h₂ : Maps t u x) : Maps s u x :=
  ⟨by rw [h₂.rest, h₁.rest], by rw [h₂.group, h₁.group]⟩

theorem Maps.modGroup {s : State} {x : Iss} {f : Group → Group} (names : ∀ g, f g = { g with names := (f g).names }) :
    Maps s (s.modGroup x.gid f) x := ⟨rfl, by rw [State.modGroup_self]; exact names _⟩

theorem Maps.mapName (s : State) (x : Iss) (n : Nat) : Maps s (s.mapName x n) x := by
  unfold State.mapName
  split
  · exact .refl s x
  · exact .modGroup fun _ => rfl

theorem Maps.fold {α : Type} {x : Iss} {f : State → α → State} (step : ∀ s a, Maps s (f s a) x) (l : List α) (s : State) :
    Maps s (l.foldl f s) x := by
  induction l generalizing s with
  | nil => exact .refl s x
  | cons a l ih => exact (step s a).trans (ih _)

/-- Mapping the destination's names changes those names alone (R179). -/
theorem Maps.mapDest (s : State) (x : Iss) : Maps s (s.mapDest x) x := by
  unfold State.mapDest
  split
  · exact .refl s x
  · refine .fold (fun s n => (Maps.mapName s x n).trans (.modGroup fun g => ?_)) _ s
    split <;> rfl

/-- A load of lanes as an instruction enters it (R160). -/
def Iss.laneLoad (x : Iss) (seq : Nat) (lanes : Mask) (la : List (Nat × Nat)) (wd : Nat) : PLoad :=
  { seq := seq, handler := x.handler, uni := false, dst := x.ins.d, n := x.ins.dsts.length, lanes := lanes, got := 0,
    vals := [], bad := 0, addrs := la.map fun a => (a.1, BitVec.ofNat 64 a.2), wd := wd }

theorem State.newLoad_eq (s : State) (x : Iss) (m : Mask) (la : List (Nat × Nat)) (wd : Nat) : s.newLoad x m la wd =
    (s.nextId, ({ s with nextId := s.nextId + 1 } : State).modGroup x.gid fun g => { g with loads := g.loads ++ [x.laneLoad s.nextId m la wd] }) := rfl

/-! What starting accesses leaves as it was. -/

theorem Maps.under {s t : State} {x : Iss} (h : Maps s t x) : Under s t := by rw [Under, h.rest]
theorem Under.newLoad (s : State) (x : Iss) (m : Mask) (la : List (Nat × Nat)) (wd : Nat) : Under s (s.newLoad x m la wd).2 := rfl
theorem Under.newUniLoad (s : State) (x : Iss) (d n a wd : Nat) : Under s (s.newUniLoad x d n a wd).2 := rfl
theorem Under.releaseFor (s : State) (x : Iss) : Under s (s.releaseFor x).2 := by
  rw [Under, s.releaseFor_spec x |>.1]

/-- Where an access is performed depends on nothing of that (R141). -/
theorem Under.atHome {s t : State} (h : Under s t) (x : Iss) (pa : Nat) : t.atHome x pa = s.atHome x pa := by rw [h]; rfl

theorem State.releaseFor_group (s : State) (x : Iss) (g : Nat) : (s.releaseFor x).2.group g = s.group g := by
  rw [(s.releaseFor_spec x).1]; rfl

theorem Maps.accs {s t : State} {x : Iss} (h : Maps s t x) : t.accs = s.accs := by rw [h.rest]
theorem Maps.loads {s t : State} {x : Iss} (h : Maps s t x) : (t.group x.gid).loads = (s.group x.gid).loads := by rw [h.group]
theorem Maps.nextId {s t : State} {x : Iss} (h : Maps s t x) : t.nextId = s.nextId := by rw [h.rest]

/-- A load entered after the names of its destination are mapped is the last one (R160, R179). -/
theorem State.mapDest_newLoad_loads (s : State) (x : Iss) (m : Mask) (la : List (Nat × Nat)) (wd : Nat) :
    ((((s.mapDest x).newLoad x m la wd).2).group x.gid).loads = (s.group x.gid).loads ++ [x.laneLoad s.nextId m la wd] := by
  have maps := Maps.mapDest s x
  rw [State.newLoad_eq, State.modGroup_self, maps.nextId, ← maps.loads]
  rfl

/-- The load that stands last is the one an instruction has entered. -/
theorem Loads.last {s u : State} {x : Iss} {l : PLoad} (last : (u.group x.gid).loads = (s.group x.gid).loads ++ [l]) (set : l.handler = x.handler)
    (dst : l.dst = x.ins.d) : Loads s (u.advance x) x l :=
  ⟨⟨_, by rw [State.advance_group_loads, last], fun _ => rfl⟩, set, dst⟩

end Sys2Proof.Machine
end

section
/-! LD and ST (R140, R141, R143, R150). -/

namespace Sys2Proof.Machine

/-- LD enters one load and starts one read for each lane. -/
theorem ldEff_eq {s : State} {x : Iss} (few : s.loadCount x < 32) (room : s.overCap x x.ins.dsts = false)
    (aligned : x.misaligned false (wdBytes x.ins.wd) (x.addrs ((s.regs x).gaddr x)) = none)
    (all : (s.lanesAt x .read (x.addrs ((s.regs x).gaddr x))).2 = []) (some_ : x.exec ≠ 0) :
    let ok := (s.lanesAt x .read (x.addrs ((s.regs x).gaddr x))).1
    let loaded := (s.mapDest x).newLoad x x.exec (ok.map fun a => (a.1, a.2.1)) x.ins.wd
    ldEff x s = .done (ok.foldl (fun t a => t.startAccess { x.access t .read (laneBit a.1) a.2.1 a.2.2 (wdBytes x.ins.wd) [(a.1, [])]
      (t.atHome x a.2.2) (some loaded.1) with last := x.ins.lastBit } []) loaded.2) := by
  intro ok loaded
  have lanes : ok.map Prod.fst = x.exec.lanes := (State.lanesAt_lanes all).trans (x.addrs_lanes _)
  rw [ldEff, withLoadRoom_of_lt few, capped_of_room room]
  rw [globalEff_done aligned all]
  dsimp only
  rw [State.lanesAt_isEmpty some_ all, if_neg (by simp), Iss.mask_of_lanes lanes]

/-- LD without an executing lane maps the names of its destination alone. -/
theorem ldEff_idle {s : State} {x : Iss} (few : s.loadCount x < 32) (room : s.overCap x x.ins.dsts = false) (idle : x.exec = 0) :
    ldEff x s = .done (s.mapDest x) := by
  have none : x.addrs ((s.regs x).gaddr x) = [] := by rw [Iss.addrs, idle]; rfl
  rw [ldEff, withLoadRoom_of_lt few, capped_of_room room, none]
  rfl

/-- ST starts one write for each lane, after its release, and records what it stores. -/
theorem stEff_eq {s : State} {x : Iss} (aligned : x.misaligned false (wdBytes x.ins.wd) (x.addrs ((s.regs x).gaddr x)) = none)
    (all : (s.lanesAt x .write (x.addrs ((s.regs x).gaddr x))).2 = []) :
    let w := wdBytes x.ins.wd
    let ok := (s.lanesAt x .write (x.addrs ((s.regs x).gaddr x))).1
    let released := s.releaseFor x
    stEff x s = .done ((ok.foldl (fun t a => t.startAccess (x.access t .write (laneBit a.1) a.2.1 a.2.2 w [(a.1, (s.regs x).data x w a.1)]
      (t.atHome x a.2.2) none) (released.1 ++ t.sinceOverlap released.2.nextId a.2.2 w)) released.2).recordStore x
        (ok.map fun a => (s.regs x).xs x.ins.c 1 a.1)) := by
  rw [stEff, globalEff_done aligned all]

@[simp] theorem State.recordStore_accs (s : State) (x : Iss) (vals : List Nat) : (s.recordStore x vals).accs = s.accs := by
  unfold State.recordStore
  dsimp only
  split
  · split <;> rfl
  · rfl

/-- Settles O16: LD enters its load and ST makes its release, and then one access for each lane starts. -/
theorem loadsAndStoresStartTheirAccesses : Obligations.LoadsAndStoresStartTheirAccesses := by
  intro f s x r w la aligned
  have maps := Maps.mapDest s x
  refine ⟨fun ready few room all some_ => ?ld, fun ready few room idle => ?idle, fun ready all => ?st⟩
  case ld =>
    obtain ⟨next, kept⟩ := ready.kept (by rw [ready.ins_eq rfl]; rfl) (ldEff_eq few room aligned all some_)
      (((Queues.mapDest s x).trans (.newLoad ..)).trans (.fold x _ (fun _ _ => .startAccess ..) _ _))
    refine ⟨_, _, next, kept, .last ((congrArg Group.loads (State.foldl_startAccess_group ..)).trans (s.mapDest_newLoad_loads ..)) rfl rfl, rfl, rfl, rfl,
      .atOnce (s₁ := ((s.mapDest x).newLoad ..).2) maps.accs (.fold (maps.under.trans (.newLoad ..)) (fun t a under => ⟨?_, rfl, rfl⟩) _)
        (State.advance_accs ..)⟩
    rw [← under.atHome, ← maps.nextId]
    rfl
  case idle =>
    obtain ⟨next, kept⟩ := ready.kept (by rw [ready.ins_eq rfl]; rfl) (ldEff_idle few room idle) (.mapDest s x)
    exact ⟨_, next, kept, by rw [State.advance_accs, maps.accs], by rw [State.advance_group_loads, maps.loads]⟩
  case st =>
    obtain ⟨next, kept⟩ := ready.kept (by rw [ready.ins_eq rfl]; rfl) (stEff_eq aligned all)
      (((Queues.releaseFor s x).trans (.fold x _ (fun _ _ => .startAccess ..) _ _)).trans (.recordStore ..))
    refine ⟨_, next, kept, .after (s₁ := s) (x := x) rfl (.fold (.releaseFor s x) (fun t a under => ⟨?_, rfl, rfl⟩) _)
      ((State.advance_accs ..).trans (State.recordStore_accs ..))⟩
    rw [← under.atHome]
    rfl

end Sys2Proof.Machine
end

section
/-! GLD and GST (R144). -/

namespace Sys2Proof.Machine

/-- An aligned uniform access passes its check. -/
theorem Iss.misaligned_uniAddr {x : Iss} {r : Regs} {w : Nat} (aligned : r.gaddr x 0 % w = 0) : x.misaligned true w (x.uniAddr r) = none := by
  unfold Iss.misaligned Iss.uniAddr
  split
  · rfl
  · simp [aligned, Iss.precheck]

/-- The one lane of a uniform access that translates completes. -/
theorem State.lanesAt_uniAddr {s : State} {x : Iss} {n : Need} {pa : Nat} (some_ : x.exec ≠ 0)
    (ok : s.laneAccess x.core (s.group x.gid).ctx (s.group x.gid).step.toNat n ((s.regs x).gaddr x 0) = .ok pa) :
    s.lanesAt x n (x.uniAddr (s.regs x)) = ([(0, (s.regs x).gaddr x 0, pa)], []) := by
  rw [Iss.uniAddr, if_neg some_, State.lanesAt_eq_foldl, List.foldl_cons, List.foldl_nil, State.laneTurn, ok]
  rfl

/-- A load of uniform registers as an instruction enters it (R160). -/
def Iss.uniLoad (x : Iss) (seq dst n addr wd : Nat) : PLoad :=
  { seq := seq, handler := x.handler, uni := true, dst := dst, n := n, lanes := 0, got := 0,
    vals := [], bad := 0, addrs := [(0, BitVec.ofNat 64 addr)], wd := wd }

theorem State.newUniLoad_eq (s : State) (x : Iss) (d n a wd : Nat) : s.newUniLoad x d n a wd =
    (s.nextId, ({ s with nextId := s.nextId + 1 } : State).modGroup x.gid fun g => { g with loads := g.loads ++ [x.uniLoad s.nextId d n a wd] }) := rfl

/-- GLD enters one load and starts one read. -/
theorem gldEff_eq {s : State} {x : Iss} {pa : Nat} (few : s.loadCount x < 32) (some_ : x.exec ≠ 0) (aligned : (s.regs x).gaddr x 0 % wdBytes x.ins.wd = 0)
    (ok : s.laneAccess x.core (s.group x.gid).ctx (s.group x.gid).step.toNat .read ((s.regs x).gaddr x 0) = .ok pa) :
    let loaded := s.newUniLoad x x.ins.d x.ins.dsts.length ((s.regs x).gaddr x 0) x.ins.wd
    gldEff x s = .done (loaded.2.startAccess { x.access loaded.2 .read x.exec ((s.regs x).gaddr x 0) pa (wdBytes x.ins.wd) [(0, [])]
      (loaded.2.atHome x pa) (some loaded.1) with last := x.ins.lastBit } []) := by
  have lanes := State.lanesAt_uniAddr some_ ok
  rw [gldEff]
  dsimp only
  rw [if_neg some_, withLoadRoom_of_lt few, globalEff_done (Iss.misaligned_uniAddr aligned) (by rw [lanes]), lanes]
  rw [Iss.uniAddr, if_neg some_]
  rfl

/-- GST starts one write, after its release, and records what it stores. -/
theorem gstEff_eq {s : State} {x : Iss} {pa : Nat} (some_ : x.exec ≠ 0) (aligned : (s.regs x).gaddr x 0 % wdBytes x.ins.wd = 0)
    (ok : s.laneAccess x.core (s.group x.gid).ctx (s.group x.gid).step.toNat .write ((s.regs x).gaddr x 0) = .ok pa) :
    let w := wdBytes x.ins.wd
    let released := s.releaseFor x
    gstEff x s = .done ((released.2.startAccess { x.access released.2 .write x.exec ((s.regs x).gaddr x 0) pa w [(0, (s.regs x).data x w 0)]
      (released.2.atHome x pa) none with uni := true } released.1).recordStore x [(s.regs x).xs x.ins.c 1 0]) := by
  have lanes := State.lanesAt_uniAddr some_ ok
  rw [gstEff]
  dsimp only
  rw [globalEff_done (Iss.misaligned_uniAddr aligned) (by rw [lanes]), lanes]
  rfl

/-- Without an executing lane neither does anything. -/
theorem uniEff_idle {s : State} {x : Iss} (idle : x.exec = 0) : gldEff x s = .done s ∧ gstEff x s = .done s := by
  constructor
  · rw [gldEff]
    dsimp only
    rw [if_pos idle]
  · rw [gstEff, Iss.uniAddr, if_pos idle]
    rfl

/-- Settles O17: the one lane that stands for the split completes, and its access starts. -/
theorem uniformLoadsAndStoresStartOneAccess : Obligations.UniformLoadsAndStoresStartOneAccess := by
  intro f s x pa r w ctx step
  refine ⟨fun ready some_ aligned ok few => ?gld, fun ready some_ aligned ok => ?gst, fun i form ready idle => ?idle⟩
  case gld =>
    obtain ⟨next, kept⟩ := ready.kept (by rw [ready.ins_eq rfl]; rfl) (gldEff_eq few some_ aligned ok) ((Queues.newUniLoad ..).trans (.startAccess ..))
    refine ⟨_, _, next, kept, .last (l := x.uniLoad s.nextId x.ins.d x.ins.dsts.length (r.gaddr x 0) x.ins.wd) ?_ rfl rfl, rfl, rfl,
      .atOnce (s₁ := (s.newUniLoad ..).2) rfl (.startAccess _ _ _ rfl rfl) (State.advance_accs ..)⟩
    show (((s.newUniLoad ..).2).group x.gid).loads = _
    rw [State.newUniLoad_eq, State.modGroup_self]
    rfl
  case gst =>
    obtain ⟨next, kept⟩ := ready.kept (by rw [ready.ins_eq rfl]; rfl) (gstEff_eq some_ aligned ok)
      (((Queues.releaseFor s x).trans (.startAccess ..)).trans (.recordStore ..))
    refine ⟨_, next, kept, .after (s₁ := s) (x := x) rfl ?_ ((State.advance_accs ..).trans (State.recordStore_accs ..))⟩
    rw [← (Under.releaseFor s x).atHome]
    exact .startAccess _ _ _ rfl rfl
  case idle =>
    obtain ⟨gld, gst⟩ := uniEff_idle (s := s) idle
    rcases form with rfl | rfl
    · obtain ⟨next, kept⟩ := ready.kept (by rw [ready.ins_eq rfl]; rfl) gld (.refl s x)
      exact ⟨_, next, kept, State.advance_accs ..⟩
    · obtain ⟨next, kept⟩ := ready.kept (by rw [ready.ins_eq rfl]; rfl) gst (.refl s x)
      exact ⟨_, next, kept, State.advance_accs ..⟩

end Sys2Proof.Machine
end

section
/-! ATOM and RED (R140, R147, R284). -/

namespace Sys2Proof.Machine

/-- The forms of the accesses of an atomic: one for each location, with its lanes in order (R147). -/
def Iss.atomForms (x : Iss) (r : Regs) (k : AccKind) (load : Option Nat) (ok : List (Nat × Nat × Nat)) : List Form :=
  (groupBy (ok.map fun a => (a.1, a.2.2))).map fun g =>
    (k, Mask.ofFn (fun l => g.2.contains l), g.1, atyBytes x.ins.aty, g.2.map fun l => (l, r.operand x l), true, load)

theorem Adds.startAtoms (s : State) (x : Iss) (r : Regs) (k : AccKind) (load : Option Nat) (rel : List Nat) (ok : List (Nat × Nat × Nat)) :
    Adds s (s.startAtoms x r k load rel ok) (x.atomForms r k load ok) := by
  refine Adds.fold (.refl s) (fun t g _ => ⟨?_, rfl, rfl⟩) _
  rfl

theorem State.startAtoms_group (s : State) (x : Iss) (r : Regs) (k : AccKind) (load : Option Nat) (rel : List Nat) (ok : List (Nat × Nat × Nat)) (g : Nat) :
    (s.startAtoms x r k load rel ok).group g = s.group g := (Adds.startAtoms s x r k load rel ok).group g

/-- RED starts its accesses after its release. -/
theorem redEff_eq {s : State} {x : Iss} (aligned : x.misaligned false (atyBytes x.ins.aty) (x.addrs ((s.regs x).gaddr x)) = none)
    (all : (s.lanesAt x .atomic (x.addrs ((s.regs x).gaddr x))).2 = []) :
    redEff x s = .done ((s.releaseFor x).2.startAtoms x (s.regs x) (.red x.ins.wd x.ins.aty) none (s.releaseFor x).1
      (s.lanesAt x .atomic (x.addrs ((s.regs x).gaddr x))).1) := by
  rw [redEff, globalEff_done aligned all]

section
variable {s : State} {x : Iss} (aligned : x.misaligned false (atyBytes x.ins.aty) (x.addrs ((s.regs x).gaddr x)) = none) (some_ : x.exec ≠ 0)
include aligned some_

/-- ATOM with a D enters one load, makes its release and starts its accesses. -/
theorem atomEff_load (dest : x.ins.d ≠ 288) (few : s.loadCount x < 32) (room : s.overCap x x.ins.dsts = false)
    (all : (s.lanesAt x .atomic (x.addrs ((s.regs x).gaddr x))).2 = []) :
    let ok := (s.lanesAt x .atomic (x.addrs ((s.regs x).gaddr x))).1
    let loaded := (s.mapDest x).newLoad x x.exec (ok.map fun a => (a.1, a.2.1)) (wdOf (atyBytes x.ins.aty))
    let released := loaded.2.releaseFor x
    atomEff x s = .done (released.2.startAtoms x (s.regs x) (.atom x.ins.wd x.ins.aty) (some loaded.1) released.1 ok) := by
  have lanes := (State.lanesAt_lanes all).trans (x.addrs_lanes _)
  rw [atomEff, if_neg dest, withLoadRoom_of_lt few, atomIssue, capped_of_room room, if_neg dest, globalEff_done aligned all]
  dsimp only
  rw [State.lanesAt_isEmpty some_ all, if_neg (by simp), if_neg dest, Iss.mask_of_lanes lanes]

/-- ATOM without one starts its accesses after its release. -/
theorem atomEff_quiet (noDest : x.ins.d = 288) (room : s.overCap x x.ins.dsts = false)
    (all : (s.lanesAt x .quiet (x.addrs ((s.regs x).gaddr x))).2 = []) :
    let released := (s.mapDest x).releaseFor x
    atomEff x s = .done (released.2.startAtoms x (s.regs x) (.atom x.ins.wd x.ins.aty) none released.1
      (s.lanesAt x .quiet (x.addrs ((s.regs x).gaddr x))).1) := by
  rw [atomEff, if_pos noDest, atomIssue, capped_of_room room, if_pos noDest, globalEff_done aligned all]
  dsimp only
  rw [State.lanesAt_isEmpty some_ all, if_neg (by simp), if_pos noDest]

end

/-- Settles O18: the accesses of an atomic start for each location, after its load and its release. -/
theorem atomicsStartOneAccessPerLocation : Obligations.AtomicsStartOneAccessPerLocation := by
  intro f s x r w la forms aligned some_
  have maps := Maps.mapDest s x
  refine ⟨fun ready dest all few room => ?load, fun ready noDest all room => ?quiet, fun ready all => ?red⟩
  case load =>
    obtain ⟨next, kept⟩ := ready.kept (by rw [ready.ins_eq rfl]; rfl) (atomEff_load aligned some_ dest few room all)
      ((((Queues.mapDest s x).trans (.newLoad ..)).trans (.releaseFor _ x)).trans (.startAtoms ..))
    refine ⟨_, _, next, kept, .last ((congrArg Group.loads ((State.startAtoms_group ..).trans (State.releaseFor_group ..))).trans
      (s.mapDest_newLoad_loads ..)) rfl rfl, rfl, rfl, rfl, ?_⟩
    rw [show (x.laneLoad s.nextId _ _ _).seq = (s.mapDest x).nextId from maps.nextId.symm]
    exact .after (s₁ := ((s.mapDest x).newLoad ..).2) (x := x) maps.accs (.startAtoms ..) (State.advance_accs ..)
  case quiet =>
    obtain ⟨next, kept⟩ := ready.kept (by rw [ready.ins_eq rfl]; rfl) (atomEff_quiet aligned some_ noDest room all)
      (((Queues.mapDest s x).trans (.releaseFor _ x)).trans (.startAtoms ..))
    refine ⟨_, next, kept, ?_, .after (s₁ := s.mapDest x) (x := x) maps.accs (.startAtoms ..) (State.advance_accs ..)⟩
    rw [State.advance_group_loads, State.startAtoms_group, State.releaseFor_group, maps.loads]
  case red =>
    obtain ⟨next, kept⟩ := ready.kept (by rw [ready.ins_eq rfl]; rfl) (redEff_eq aligned all)
      ((Queues.releaseFor s x).trans (.startAtoms ..))
    exact ⟨_, next, kept, .after (s₁ := s) (x := x) rfl (.startAtoms ..) (State.advance_accs ..)⟩

end Sys2Proof.Machine
end

section
/-! PREF and DROP (R149, R367). -/

namespace Sys2Proof.Machine

/-- The access that DROP starts for a lane that translates (R149). -/
def dropForm (x : Iss) (a : Nat × Nat × Nat) : Form := (.drop x.ins.lastBit, laneBit a.1, lineOf a.2.2 * 64, 64, [], false, none)

/-- Settles O19: what translates is what each of them starts an access for. -/
theorem prefetchAndDropComplete : Obligations.PrefetchAndDropComplete := by
  intro f s x la
  refine ⟨fun ready => ?pref, fun ready => ?drop⟩
  case pref =>
    by_cases far : x.ins.pl = 1
    · obtain ⟨next, kept⟩ := ready.kept (eff := prefEff) (by rw [ready.ins_eq rfl]; rfl) (by rw [prefEff]; dsimp only; rw [if_pos far]) (.refl s x)
      refine ⟨_, next, kept, ?_⟩
      rw [if_pos far]
      exact .atOnce rfl (.nil s) (State.advance_accs ..)
    · obtain ⟨next, kept⟩ := ready.kept (eff := prefEff) (by rw [ready.ins_eq rfl]; rfl) (by rw [prefEff]; dsimp only; rw [if_neg far])
        (.fold x _ (fun _ _ => .startAccess ..) _ _)
      refine ⟨_, next, kept, ?_⟩
      rw [if_neg far]
      refine .atOnce rfl (.fold (.refl s) (fun _ _ _ => ⟨?_, rfl, rfl⟩) _) (State.advance_accs ..)
      rfl
  case drop =>
    obtain ⟨next, kept⟩ := ready.kept (eff := dropEff) (by rw [ready.ins_eq rfl]; rfl) rfl (.fold x _ (fun _ _ => .startAccess ..) _ _)
    refine ⟨_, next, kept, ?_⟩
    refine (congrArg (Starts s _) ?_).mp (.atOnce rfl (.fold (f := dropForm x) (.refl s) (fun _ _ _ => ⟨rfl, rfl, rfl⟩) _) (State.advance_accs ..))
    rw [List.map_filterMap]
    refine congrArg (List.filterMap · la) (funext fun a => ?_)
    cases s.translate x.core (s.group x.gid).ctx .write a.2 <;> rfl

end Sys2Proof.Machine
end

section
/-! Scratchpad accesses and the loads they return to (R143 to R147, R159, R202 to R204). -/

namespace Sys2Proof.Machine

/-! Data that returns for a load. -/

/-- A load once data has returned for the load of a name (R159). -/
def PLoad.returned (seq : Nat) (res : List (Nat × List Byte)) (bad : Bool) (l : PLoad) : PLoad :=
  let m := Mask.ofFn fun k => res.any fun r => r.1 == k
  if l.seq ≠ seq then l
  else if l.uni then
    { l with got := 1, bad := if bad then 1 else l.bad
             vals := if l.dst = 288 then [] else [(l.dst, loadWords l.wd l.n ((res.map Prod.snd).headD []))] }
  else
    { l with got := l.got ||| m, bad := if bad then l.bad ||| m else l.bad
             vals := l.vals ++ res.map fun r => (r.1, loadWords l.wd l.n r.2) }

theorem Tbl.getD_of_absent {α : Type} {t : Tbl α} {k : Nat} (absent : t.get? k = none) (d : α) : t.getD k d = d := by
  induction t with
  | nil => rfl
  | cons p r ih =>
    obtain ⟨i, a⟩ := p
    by_cases h : i = k
    · simp [Tbl.get?, h] at absent
    · rw [Tbl.get?, if_neg h] at absent
      rw [Tbl.getD, if_neg h, ih absent]

/-- What data returns to is the loads of its group. -/
theorem State.returnLoad_loads (s : State) (gid seq : Nat) (res : List (Nat × List Byte)) (bad : Bool) :
    ((s.returnLoad gid seq res bad).group gid).loads = (s.group gid).loads.map (PLoad.returned seq res bad) := by
  by_cases none : (s.groups.get? gid).isNone
  · have absent : (s.group gid).loads = [] := by
      rw [State.group, Tbl.getD_of_absent (Option.isNone_iff_eq_none.1 none)]
    rw [State.returnLoad, if_pos none, absent]
    rfl
  · rw [State.returnLoad, if_neg none]
    simp only [State.modGroup_self]
    rfl

theorem State.returnLoad_rest (s : State) (gid seq : Nat) (res : List (Nat × List Byte)) (bad : Bool) :
    s.returnLoad gid seq res bad = { s with groups := (s.returnLoad gid seq res bad).groups } := by
  unfold State.returnLoad
  split <;> rfl

theorem PLoad.returned_of_ne {seq : Nat} {l : PLoad} (h : l.seq ≠ seq) (res : List (Nat × List Byte)) (bad : Bool) : l.returned seq res bad = l := if_pos h

/-- A load as it was entered, whatever has returned for it. -/
structure Same (l m : PLoad) : Prop where
  form : m = { l with got := m.got, bad := m.bad, vals := m.vals }
  got : ∀ n, l.got.getLsbD n = true → m.got.getLsbD n = true
  vals : l.vals ⊆ m.vals

theorem Same.refl (l : PLoad) : Same l l := ⟨rfl, fun _ h => h, fun _ h => h⟩

theorem Same.trans {l m k : PLoad} (h₁ : Same l m) (h₂ : Same m k) : Same l k :=
  ⟨by rw [h₂.form, h₁.form], fun n h => h₂.got n (h₁.got n h), fun _ h => h₂.vals (h₁.vals h)⟩

theorem Same.seq {l m : PLoad} (h : Same l m) : m.seq = l.seq := by rw [h.form]
theorem Same.uni {l m : PLoad} (h : Same l m) : m.uni = l.uni := by rw [h.form]
theorem Same.wd {l m : PLoad} (h : Same l m) : m.wd = l.wd := by rw [h.form]
theorem Same.n {l m : PLoad} (h : Same l m) : m.n = l.n := by rw [h.form]

/-- A load of lanes holds what returns for it. -/
structure Holds (l : PLoad) (res : List (Nat × List Byte)) : Prop where
  got : ∀ r ∈ res, r.1 < 32 → l.got.getLsbD r.1 = true
  vals : ∀ r ∈ res, (r.1, loadWords l.wd l.n r.2) ∈ l.vals

theorem Holds.same {l m : PLoad} {res : List (Nat × List Byte)} (h : Holds l res) (same : Same l m) : Holds m res :=
  ⟨fun r hr lt => same.got _ (h.got r hr lt), fun r hr => by rw [same.wd, same.n]; exact same.vals (h.vals r hr)⟩

theorem PLoad.returned_eq {l : PLoad} (lanes : l.uni = false) (res : List (Nat × List Byte)) (bad : Bool) :
    l.returned l.seq res bad = { l with
      got := l.got ||| Mask.ofFn fun k => res.any fun r => r.1 == k
      bad := if bad then l.bad ||| Mask.ofFn fun k => res.any fun r => r.1 == k else l.bad
      vals := l.vals ++ res.map fun r => (r.1, loadWords l.wd l.n r.2) } := by
  simp [PLoad.returned, lanes]

theorem Same.returned {l : PLoad} (lanes : l.uni = false) (res : List (Nat × List Byte)) (bad : Bool) : Same l (l.returned l.seq res bad) := by
  rw [PLoad.returned_eq lanes]
  exact ⟨rfl, fun n h => by simp [h], fun v h => List.mem_append_left _ h⟩

theorem Holds.returned {l : PLoad} (lanes : l.uni = false) (res : List (Nat × List Byte)) (bad : Bool) : Holds (l.returned l.seq res bad) res := by
  rw [PLoad.returned_eq lanes]
  refine ⟨fun r hr lt => ?_, fun r hr => List.mem_append_right _ (List.mem_map.2 ⟨r, hr, rfl⟩)⟩
  have listed : (res.any fun q => q.1 == r.1) = true := List.any_eq_true.2 ⟨r, hr, by simp⟩
  simp [Mask.ofFn_getLsbD, lt, listed]

/-- The load of an instruction stands last, and the loads before it are as they were where none has its name. -/
structure LastLoad (base ls : List PLoad) (l : PLoad) : Prop where
  last : ∃ olds, ls = olds ++ [l] ∧ ((∀ o ∈ base, o.seq ≠ l.seq) → olds = base)
  lanes : l.uni = false

theorem LastLoad.new (base : List PLoad) {l : PLoad} (lanes : l.uni = false) : LastLoad base (base ++ [l]) l := ⟨⟨base, rfl, fun _ => rfl⟩, lanes⟩

theorem LastLoad.returned {base ls : List PLoad} {l : PLoad} (h : LastLoad base ls l) (res : List (Nat × List Byte)) (bad : Bool) :
    LastLoad base (ls.map (PLoad.returned l.seq res bad)) (l.returned l.seq res bad) := by
  have same := Same.returned h.lanes res bad
  obtain ⟨olds, stand, others⟩ := h.last
  refine ⟨⟨olds.map (PLoad.returned l.seq res bad), by rw [stand, List.map_append]; rfl, fun fresh => ?_⟩, same.uni.trans h.lanes⟩
  rw [same.seq] at fresh
  rw [others fresh, List.map_congr_left fun o ho => PLoad.returned_of_ne (fresh o ho) res bad, List.map_id']

/-- The load that stands last is the one an instruction has entered. -/
theorem LastLoad.loads {s u : State} {x : Iss} {l : PLoad} (h : LastLoad (s.group x.gid).loads (u.group x.gid).loads l)
    (handler : l.handler = x.handler) (dst : l.dst = x.ins.d) : Loads s (u.advance x) x l := by
  obtain ⟨olds, stand, others⟩ := h.last
  exact ⟨⟨olds, by rw [State.advance_group_loads, stand], others⟩, handler, dst⟩

/-! One access that is performed. -/

/-- An acquire changes L1 lines alone (R268). -/
theorem State.acquire_rest (s : State) (core sco sem : Nat) : s.acquire core sco sem = { s with cores := (s.acquire core sco sem).cores } := by
  have lines (ls : List Nat) (l1 : Nat) : ∀ t : State, (ls.foldl (fun t line => t.setL1 l1 line (t.l1Line l1 line).cleaned) t) =
      { t with cores := (ls.foldl (fun t line => t.setL1 l1 line (t.l1Line l1 line).cleaned) t).cores } := by
    induction ls with
    | nil => exact fun t => rfl
    | cons line ls ih => exact fun t => ih _
  unfold State.acquire State.invalidate
  split
  · exact lines ..
  · rfl

@[simp] theorem State.acquire_block (s : State) (core sco sem k : Nat) : (s.acquire core sco sem).block k = s.block k := by
  rw [State.acquire_rest]
  rfl

/-- What an access does to its block and to the loads of its group when it is performed (R202). -/
def Block.performFor (m : SpadMsg) (p : Block × List PLoad) : Block × List PLoad :=
  let r := p.1.perform m
  (r.1, match m.load with | some seq => p.2.map (PLoad.returned seq r.2.1 r.2.2) | none => p.2)

/-- What the accesses of a group to its block are performed on. -/
def State.bank (s : State) (bk gid : Nat) : Block × List PLoad := (s.block bk, (s.group gid).loads)

/-- Only the block, the loads of groups and L1 lines have changed. -/
structure Banked (s t : State) (bk : Nat) : Prop where
  rest : t = { s with blocks := t.blocks, groups := t.groups, cores := t.cores }
  blocks : ∀ k, k ≠ bk → t.block k = s.block k
  group : ∀ g, t.group g = { s.group g with loads := (t.group g).loads }

theorem Banked.refl (s : State) (bk : Nat) : Banked s s bk := ⟨rfl, fun _ _ => rfl, fun _ => rfl⟩

theorem Banked.trans {s t u : State} {bk : Nat} (h₁ : Banked s t bk) (h₂ : Banked t u bk) : Banked s u bk :=
  ⟨by rw [h₂.rest, h₁.rest], fun k hk => (h₂.blocks k hk).trans (h₁.blocks k hk), fun g => by rw [h₂.group, h₁.group]⟩

theorem Banked.setBlock (s : State) (bk : Nat) (b : Block) : Banked s (s.setBlock bk b) bk := ⟨rfl, fun _ hk => s.setBlock_ne hk b, fun _ => rfl⟩

theorem Banked.acquire (s : State) (bk core sco sem : Nat) : Banked s (s.acquire core sco sem) bk := by
  have only := s.acquire_rest core sco sem
  exact ⟨by rw [only], fun k _ => by rw [only]; rfl, fun g => by rw [only]; rfl⟩

theorem Banked.returnLoad (s : State) (bk gid seq : Nat) (res : List (Nat × List Byte)) (bad : Bool) : Banked s (s.returnLoad gid seq res bad) bk := by
  have only := s.returnLoad_rest gid seq res bad
  refine ⟨by rw [only], fun k _ => by rw [only]; rfl, fun g => ?_⟩
  unfold State.returnLoad
  split
  · rfl
  · by_cases h : g = gid
    · rw [h, State.modGroup_self]
    · rw [State.modGroup_ne _ h]

/-- What returns to a load, where the access has one. -/
def State.spadAnswer (s : State) (m : SpadMsg) (res : List (Nat × List Byte)) (bad : Bool) : State :=
  match m.load with | some seq => s.returnLoad m.gid seq res bad | none => s

theorem State.spadAnswer_spec (s : State) (m : SpadMsg) (bk : Nat) (res : List (Nat × List Byte)) (bad : Bool) :
    Banked s (s.spadAnswer m res bad) bk ∧ (s.spadAnswer m res bad).blocks = s.blocks ∧ ((s.spadAnswer m res bad).group m.gid).loads =
      match m.load with | some seq => (s.group m.gid).loads.map (PLoad.returned seq res bad) | none => (s.group m.gid).loads := by
  unfold State.spadAnswer
  split
  · exact ⟨.returnLoad .., by rw [State.returnLoad_rest], State.returnLoad_loads ..⟩
  · exact ⟨.refl .., rfl, rfl⟩

/-- An access that is performed acts on its block and on the loads of its group, and on nothing else but L1 lines (R202). -/
theorem State.spadPerform_spec (s : State) (m : SpadMsg) (core : Nat) :
    (s.spadPerform m core).bank m.blk m.gid = Block.performFor m (s.bank m.blk m.gid) ∧ Banked s (s.spadPerform m core) m.blk := by
  let r := (s.block m.blk).perform m
  let answered := (s.setBlock m.blk r.1).spadAnswer m r.2.1 r.2.2
  have performs : s.spadPerform m core = if m.acq then answered.acquire core m.sco 1 else answered := rfl
  obtain ⟨kept, blocks, loads⟩ := (s.setBlock m.blk r.1).spadAnswer_spec m m.blk r.2.1 r.2.2
  have banked := (Banked.setBlock s m.blk r.1).trans kept
  have bank : answered.bank m.blk m.gid = Block.performFor m (s.bank m.blk m.gid) := by
    have block : answered.block m.blk = r.1 := by
      rw [State.block, blocks]
      exact s.setBlock_self ..
    exact Prod.ext block loads
  rw [performs]
  split
  · refine ⟨?_, banked.trans (.acquire ..)⟩
    rw [← bank, State.acquire_rest]
    rfl
  · exact ⟨bank, banked⟩

/-! The block and the loads as accesses are performed in turn. -/

theorem Block.write_cores (b : Block) (addr : Nat) (bs : List Byte) : (b.write addr bs).cores = b.cores := rfl
theorem Block.setFull_cores (b : Block) (addr : Nat) (v : Bool) : (b.setFull addr v).cores = b.cores := rfl

theorem Block.foldl_cores {α : Type} {f : Block → α → Block} (step : ∀ b a, (f b a).cores = b.cores) (l : List α) (b : Block) :
    (l.foldl f b).cores = b.cores := by
  induction l generalizing b with
  | nil => rfl
  | cons a l ih => exact (ih _).trans (step b a)

/-- An access moves no word to another core's bank (R199). -/
theorem Block.perform_cores (b : Block) (m : SpadMsg) : (b.perform m).1.cores = b.cores := by
  unfold Block.perform
  split
  · rfl
  · exact Block.foldl_cores (fun b a => b.write_cores ..) _ b
  · exact Block.foldl_cores (fun b k => b.setFull_cores ..) _ b
  · rfl
  · split <;> rfl

section
variable {α : Type} (msg : α → SpadMsg)

/-- Accesses performed in turn. -/
def Block.performAll (l : List α) (p : Block × List PLoad) : Block × List PLoad := l.foldl (fun p a => Block.performFor (msg a) p) p

theorem Block.performAll_append (l : List α) (a : α) (p : Block × List PLoad) :
    Block.performAll msg (l ++ [a]) p = Block.performFor (msg a) (Block.performAll msg l p) := by
  rw [Block.performAll, List.foldl_append]
  rfl

theorem Block.performAll_block (l : List α) (p : Block × List PLoad) :
    (Block.performAll msg l p).1 = l.foldl (fun b a => (b.perform (msg a)).1) p.1 := by
  induction l generalizing p with
  | nil => rfl
  | cons a l ih => exact ih _

theorem Block.performAll_cores (l : List α) (p : Block × List PLoad) : (Block.performAll msg l p).1.cores = p.1.cores := by
  rw [Block.performAll_block]
  exact Block.foldl_cores (fun b a => b.perform_cores _) l p.1

theorem Block.performAll_loads_of_none (none : ∀ a, (msg a).load = none) (l : List α) (p : Block × List PLoad) :
    (Block.performAll msg l p).2 = p.2 := by
  induction l generalizing p with
  | nil => rfl
  | cons a l ih =>
    refine (ih _).trans ?_
    simp [Block.performFor, none a]

/-- The load of an instruction holds what each of its performed accesses has found, in the block as it then was. -/
theorem Block.performAll_load {seq : Nat} (some_ : ∀ a, (msg a).load = some seq) (base : List PLoad) {inv : Block → Prop}
    (step : ∀ b a, inv b → inv (b.perform (msg a)).1) (l : List α) {p : Block × List PLoad} (start : inv p.1) {i : PLoad} (name : i.seq = seq)
    (last : LastLoad base p.2 i) :
    ∃ j, LastLoad base (Block.performAll msg l p).2 j ∧ Same i j ∧ ∀ a ∈ l, ∃ b, inv b ∧ Holds j (b.perform (msg a)).2.1 := by
  subst name
  induction l generalizing p i with
  | nil => exact ⟨i, last, .refl i, by simp⟩
  | cons a l ih =>
    let r := p.1.perform (msg a)
    have one : Block.performFor (msg a) p = (r.1, p.2.map (PLoad.returned i.seq r.2.1 r.2.2)) := by rw [Block.performFor, some_ a]
    have same := Same.returned last.lanes r.2.1 r.2.2
    obtain ⟨j, last', same', holds⟩ := ih (p := Block.performFor (msg a) p) (i := i.returned i.seq r.2.1 r.2.2)
      (by rw [one]; exact step _ _ start) (by rw [one]; exact last.returned ..) (fun a => by rw [some_ a, same.seq])
    refine ⟨j, last', same.trans same', fun c hc => ?_⟩
    rcases List.mem_cons.1 hc with rfl | hc
    · exact ⟨p.1, start, (Holds.returned last.lanes r.2.1 r.2.2).same same'⟩
    · exact holds c hc

end

/-! Accesses issued in turn. -/

/-- An access under way is one of these, with a name and the accesses it follows. -/
def SpadMsg.Queued (p m : SpadMsg) : Prop := m = { p with id := m.id, deps := m.deps }

/-- An access issued now is performed at once, where no release precedes it (R202, R204). -/
structure SpadMsg.Free (s : State) (x : Iss) (m : SpadMsg) : Prop where
  own : (s.block m.blk).coreOf m.addr = x.core
  first : s.spadDeps x.gid m.lanes m.addr = []

/-- An access is performed as it issues, where nothing precedes it at its own core's bank, or else is under way (R202, R204). -/
theorem State.spadIssue_cases (s : State) (x : Iss) (m : SpadMsg) (rel : List Nat) :
    ((rel = [] ∧ m.Free s x) ∧ s.spadIssue x m rel = s.spadPerform m x.core) ∨
      ¬(rel = [] ∧ m.Free s x) ∧ ∃ n, m.Queued n ∧ s.spadIssue x m rel = { s with nextId := s.nextId + 1, spads := s.spads ++ [n] } := by
  have free : (rel = [] ∧ m.Free s x) ↔ ((rel ++ s.spadDeps x.gid m.lanes m.addr).isEmpty && (s.block m.blk).coreOf m.addr == x.core) = true := by
    simp only [Bool.and_eq_true, List.isEmpty_iff, List.append_eq_nil_iff, beq_iff_eq]
    exact ⟨fun ⟨alone, own, first⟩ => ⟨⟨alone, first⟩, own⟩, fun ⟨⟨alone, first⟩, own⟩ => ⟨alone, own, first⟩⟩
  rw [free]
  by_cases now : ((rel ++ s.spadDeps x.gid m.lanes m.addr).isEmpty && (s.block m.blk).coreOf m.addr == x.core) = true
  · exact .inl ⟨now, if_pos now⟩
  · exact .inr ⟨now, { m with id := s.nextId, deps := rel ++ s.spadDeps x.gid m.lanes m.addr }, rfl, if_neg now⟩

/-- Accesses that lanes of others make precede nothing of these lanes (R204). -/
theorem State.spadDeps_append {s t : State} {news : List SpadMsg} (accs : t.accs = s.accs) (spads : t.spads = s.spads ++ news) (gid addr : Nat)
    {lanes : Mask} (apart : ∀ m ∈ news, m.lanes &&& lanes = 0) : t.spadDeps gid lanes addr = s.spadDeps gid lanes addr := by
  have skip (p : SpadMsg → Bool) : (news.filter fun m => !m.done && m.gid == gid && m.lanes &&& lanes != 0 && p m) = [] :=
    List.filter_eq_nil_iff.2 fun m hm => by simp [apart m hm]
  simp only [State.spadDeps, State.depsOf, accs, spads, List.filter_append, skip, List.append_nil]
  rfl

/-- Of these accesses, in their order, some have been performed and the others are under way; nothing else but L1 lines has changed. -/
structure Runs {α : Type} (s t : State) (x : Iss) (msg : α → SpadMsg) (all now : List α) : Prop where
  rest : t = { s with blocks := t.blocks, groups := t.groups, cores := t.cores, spads := t.spads, nextId := t.nextId }
  blocks : ∀ k, k ≠ (s.group x.gid).blk → t.block k = s.block k
  group : ∀ g, t.group g = { s.group g with loads := (t.group g).loads }
  bank : t.bank (s.group x.gid).blk x.gid = Block.performAll msg now (s.bank (s.group x.gid).blk x.gid)
  order : now.Sublist all
  queue : ∃ news, t.spads = s.spads ++ news ∧ (∀ m ∈ news, ∃ a ∈ all, a ∉ now ∧ (msg a).Queued m) ∧
    ∀ a ∈ all, a ∈ now ∨ ∃ m ∈ news, (msg a).Queued m

section
variable {α : Type} {s : State} {x : Iss} {msg : α → SpadMsg} (gid : ∀ a, (msg a).gid = x.gid) (blk : ∀ a, (msg a).blk = (s.group x.gid).blk)

theorem Runs.nil (s : State) (x : Iss) (msg : α → SpadMsg) : Runs s s x msg [] [] :=
  ⟨rfl, fun _ _ => rfl, fun _ => rfl, rfl, .slnil, [], by simp⟩

include gid blk

theorem Runs.issue {t : State} {all now : List α} (run : Runs s t x msg all now) (a : α)
    (apart : ∀ b ∈ all, b ≠ a ∧ (msg b).lanes &&& (msg a).lanes = 0) (rel : List Nat) :
    ∃ now', Runs s (t.spadIssue x (msg a) rel) x msg (all ++ [a]) now' ∧ now ⊆ now' ∧ (rel = [] → (msg a).Free s x → a ∈ now') := by
  obtain ⟨news, spads, origins, everyone⟩ := run.queue
  have sameDeps : t.spadDeps x.gid (msg a).lanes (msg a).addr = s.spadDeps x.gid (msg a).lanes (msg a).addr := by
    refine State.spadDeps_append (by rw [run.rest]) spads _ _ fun m hm => ?_
    obtain ⟨b, hb, -, queued⟩ := origins m hm
    rw [queued]
    exact (apart b hb).2
  have sameCore : (t.block (msg a).blk).coreOf (msg a).addr = (s.block (msg a).blk).coreOf (msg a).addr := by
    have cores := (congrArg (·.1.cores) run.bank).trans (Block.performAll_cores ..)
    rw [blk a, Block.coreOf, Block.coreOf]
    exact congrArg (List.getD · _ 0) cores
  rcases t.spadIssue_cases x (msg a) rel with ⟨-, issues⟩ | ⟨held, m, waiting, issues⟩ <;> rw [issues]
  · obtain ⟨bank, banked⟩ := t.spadPerform_spec (msg a) x.core
    rw [gid a, blk a] at bank
    rw [blk a] at banked
    refine ⟨now ++ [a], ⟨by rw [banked.rest, run.rest], fun k hk => (banked.blocks k hk).trans (run.blocks k hk),
      fun g => by rw [banked.group, run.group], by rw [bank, run.bank, Block.performAll_append], run.order.append (.refl _),
      news, by rw [banked.rest, spads], fun m hm => ?_, fun b hb => ?_⟩, by simp, fun _ _ => by simp⟩
    · obtain ⟨b, hb, waits, queued⟩ := origins m hm
      exact ⟨b, by simp [hb], by simp [waits, (apart b hb).1], queued⟩
    · rcases List.mem_append.1 hb with hb | hb
      · exact (everyone b hb).imp_left fun h => by simp [h]
      · exact .inl (List.mem_append_right _ hb)
  · refine ⟨now, ⟨by rw [run.rest], run.blocks, run.group, run.bank, run.order.trans (List.sublist_append_left ..),
      news ++ [m], by simp only [spads, List.append_assoc], fun n hn => ?_, fun b hb => ?_⟩, fun _ h => h, fun none free => ?_⟩
    · rcases List.mem_append.1 hn with hn | hn
      · obtain ⟨b, hb, waits, queued⟩ := origins n hn
        exact ⟨b, by simp [hb], waits, queued⟩
      · obtain rfl := List.mem_singleton.1 hn
        exact ⟨a, by simp, fun ha => (apart a (run.order.subset ha)).1 rfl, waiting⟩
    · rcases List.mem_append.1 hb with hb | hb
      · exact (everyone b hb).imp_right fun ⟨n, hn, queued⟩ => ⟨n, by simp [hn], queued⟩
      · obtain rfl := List.mem_singleton.1 hb
        exact .inr ⟨m, by simp, waiting⟩
    · exact absurd ⟨none, sameCore.trans free.own, sameDeps.trans free.first⟩ held

/-- Accesses issued in turn: one that is free, and that no earlier one of its lanes' location holds back, is performed at once. -/
theorem Runs.fold {f : State → α → State} {rel : State → α → List Nat} {before follows : α → α → Prop} {start : α → Prop}
    (issues : ∀ t a, (t.group x.gid).blk = (s.group x.gid).blk → f t a = t.spadIssue x (msg a) (rel t a))
    (apart : ∀ b a, before b a → b ≠ a ∧ (msg b).lanes &&& (msg a).lanes = 0)
    (chain : ∀ c b a, follows c b → follows b a → follows c a)
    (held : ∀ t all now a, Runs s t x msg all now → start a →
      (∀ b ∈ all, before b a → follows b a → b ∈ now) → (∀ b ∈ all, before b a) → rel t a = [])
    {l : List α} (order : l.Pairwise before) :
    ∃ now, Runs s (l.foldl f s) x msg l now ∧
      ∀ a ∈ l, start a ∧ (msg a).Free s x → (∀ b ∈ l, before b a → follows b a → start b ∧ (msg b).Free s x) → a ∈ now := by
  induction l using List.reverseRecOn with
  | nil => exact ⟨[], .nil s x msg, by simp⟩
  | append_singleton l a ih =>
    obtain ⟨early, -, last⟩ := List.pairwise_append.1 order
    have last : ∀ b ∈ l, before b a := fun b hb => last b hb a (List.mem_singleton_self a)
    obtain ⟨now, run, firsts⟩ := ih early
    rw [List.foldl_append, List.foldl_cons, List.foldl_nil, issues _ a (by rw [run.group])]
    generalize l.foldl f s = t at run
    obtain ⟨now', run', more, performed⟩ := run.issue gid blk a (fun b hb => apart b a (last b hb)) (rel t a)
    refine ⟨now', run', fun b hb free earlier => ?_⟩
    rcases List.mem_append.1 hb with hb | hb
    · exact more (firsts b hb free fun c hc => earlier c (List.mem_append_left _ hc))
    · obtain rfl := List.mem_singleton.1 hb
      refine performed (held t l now b run free.1 (fun c hc hcb foll => ?_) last) free.2
      refine firsts c hc (earlier c (by simp [hc]) hcb foll) fun d hd _ foll' => ?_
      exact earlier d (by simp [hd]) (last d hd) (chain d c b foll' foll)

end

/-! What an instruction does before its accesses are issued. -/

theorem Iss.spadMsg_congr {s t : State} {x : Iss} (blk : (t.group x.gid).blk = (s.group x.gid).blk) : x.spadMsg t = x.spadMsg s := by
  unfold Iss.spadMsg
  rw [blk]

theorem Under.block {s t : State} (h : Under s t) (k : Nat) : t.block k = s.block k := by rw [h]; rfl
theorem Under.spads {s t : State} (h : Under s t) : t.spads = s.spads := by rw [h]

/-- A release that waits for nothing waits for nothing once names and a load are entered, and begins nothing (R268). -/
theorem State.releaseFor_of_nil {s t : State} {x : Iss} (entered : Under s t) (accs : t.accs = s.accs) (none : (s.releaseFor x).1 = []) :
    t.releaseFor x = ([], t) := by
  obtain ⟨groups, n, rfl⟩ : ∃ groups n, t = { s with groups := groups, nextId := n } :=
    ⟨t.groups, t.nextId, by rw [Under, accs] at entered; exact entered⟩
  unfold State.releaseFor at none ⊢
  split
  next release =>
    rw [if_pos release] at none
    unfold State.startRelease at none ⊢
    dsimp only at none ⊢
    split at none
    next before =>
      refine (if_pos before).trans ?_
      exact Prod.ext none rfl
    next => simp at none
  next => rfl

/-- The accesses under way are those that precede an instruction's, where its release waits for nothing. -/
theorem SpadMsg.Free.entered {s t : State} {x : Iss} {m : SpadMsg} (free : m.Free s x) (under : Under s t) (accs : t.accs = s.accs) : m.Free t x :=
  ⟨by rw [under.block]; exact free.own, by
    rw [State.spadDeps_append (s := s) (news := []) accs (by rw [under.spads, List.append_nil]) _ _ (by simp)]
    exact free.first⟩

theorem Iss.mem_addrs {x : Iss} {f : Nat → Nat} {a : Nat × Nat} : a ∈ x.addrs f ↔ (a.1 < 32 ∧ x.exec.getLsbD a.1 = true) ∧ a.2 = f a.1 := by
  obtain ⟨l, p⟩ := a
  simp only [Iss.addrs, List.mem_map, Prod.mk.injEq, Mask.mem_lanes]
  constructor
  · rintro ⟨n, lane, rfl, rfl⟩
    exact ⟨lane, rfl⟩
  · rintro ⟨lane, rfl⟩
    exact ⟨l, lane, rfl, rfl⟩

end Sys2Proof.Machine
end

section
/-! Accesses performed at home (R141, R147, R266, R270). -/

namespace Sys2Proof.Machine

/-! What the steps of a performance leave of memory and of the accesses under way. -/

/-- Memory, the accesses under way and what is kept for others are as they were. -/
structure SameAccs (s t : State) : Prop where
  mem : t.mem = s.mem
  accs : t.accs = s.accs

theorem SameAccs.trans {s t u : State} (h₁ : SameAccs s t) (h₂ : SameAccs t u) : SameAccs s u := ⟨h₂.mem.trans h₁.mem, h₂.accs.trans h₁.accs⟩

theorem SameAccs.setL1 (s : State) (l1 line : Nat) (x : L1Line) : SameAccs s (s.setL1 l1 line x) := ⟨rfl, rfl⟩

theorem SameAccs.updateCopy (s : State) (l1 pa : Nat) (bs : List Byte) (later : Bool) : SameAccs s (s.updateCopy l1 pa bs later) := by
  unfold State.updateCopy
  split
  · exact ⟨rfl, rfl⟩
  · exact .setL1 ..

theorem SameAccs.acquire (s : State) (core sco sem : Nat) : SameAccs s (s.acquire core sco sem) := by
  rw [State.acquire_rest]
  exact ⟨rfl, rfl⟩

theorem SameAccs.afterRead (s : State) (a : Access) : SameAccs s (s.afterRead a) := by
  unfold State.afterRead
  split
  · exact (SameAccs.setL1 ..).trans (.acquire ..)
  · exact .acquire ..

theorem State.homeCells_accs (s : State) (cells : List Host.Cell) : (s.homeCells cells).accs = s.accs := by
  unfold State.homeCells
  split
  · rfl
  · dsimp only
    split
    · split <;> rfl
    · rfl

theorem State.performed_mem (s : State) (a : Access) (res : List (Nat × List Byte)) (bad : Bool) : (s.performed a res bad).mem = s.mem := by
  unfold State.performed
  dsimp only
  split <;> split <;> rfl

/-- Where an access is under way, one of its name is kept for the load it returns to, with its data (R140). -/
theorem State.performed_keeps {s : State} {a : Access} (here : a ∈ s.accs) (res : List (Nat × List Byte)) (bad : Bool) {q : Nat} (load : a.load = some q) :
    ∃ b ∈ (s.performed a res bad).accs, b.id = a.id ∧ b.done = true ∧ b.failed = bad ∧ b.result = res := by
  refine ⟨{ a with done := true, result := res, failed := bad }, ?_, rfl, rfl, rfl, rfl⟩
  have accs : (s.performed a res bad).accs = s.accs.map fun x => if x.id = a.id then { x with done := true, result := res, failed := bad } else x := by
    unfold State.performed
    rw [load]
    split <;> rfl
  rw [accs]
  exact List.mem_map.2 ⟨a, here, if_pos rfl⟩

/-! Lines of this package that are neither stepped nor lost. -/

/-- The line of an address is this package's, holds its data and belongs to no stepped region. -/
structure PlainLine (s : State) (pa : Nat) : Prop where
  pkg : pkgOf pa = s.pkg
  sound : s.lineBad pa = false
  plain : s.stepped pa = none

theorem PlainLine.dropLine {s : State} {pa : Nat} (h : PlainLine s pa) (l1 : Nat) : PlainLine (s.dropLine l1 pa) pa := ⟨h.pkg, h.sound, h.plain⟩

theorem PlainLine.sweeping {s : State} {pa : Nat} (h : PlainLine s pa) : s.sweeping pa = false := by rw [State.sweeping, h.plain]

theorem PlainLine.homeRead {s : State} {pa : Nat} (h : PlainLine s pa) (n st : Nat) : s.homeRead pa n st = s.bytes pa n := by rw [State.homeRead, h.plain]

theorem PlainLine.readPas {s : State} {pa : Nat} (h : PlainLine s pa) (st : Nat) : s.anyBad (s.readPas pa st) = false := by
  rw [State.readPas, h.plain]
  simp [State.anyBad, h.sound]

theorem PlainLine.writePas {s : State} {pa : Nat} (h : PlainLine s pa) (n st : Nat) : s.anyBad (s.writePas pa n st) = false := by
  rw [State.writePas, h.plain]
  dsimp only
  split <;> simp [State.anyBad, h.sound]

theorem PlainLine.writeCells {s : State} {pa : Nat} (h : PlainLine s pa) (st : Nat) (bs : List Byte) :
    s.writeCells pa st bs = some (bs.mapIdx fun i b => (pa + i, b)) := by
  rw [State.writeCells, h.sweeping, h.plain]
  rfl

theorem PlainLine.anyBad_append {s : State} {pa : Nat} (h : PlainLine s pa) (n st : Nat) :
    s.anyBad (s.readPas pa st ++ s.writePas pa n st) = false := by
  have read := h.readPas st
  have write := h.writePas n st
  rw [State.anyBad] at *
  rw [List.any_append, read, write]
  rfl

/-! The three performances. -/

section
variable {s : State} {a : Access} (line : PlainLine s a.pa)
include line

theorem PlainLine.writeHome (may : s.mayEnter a = true) : s.writeHome a =
    some (((s.homeBytes a.pa a.data).updateCopy (s.l1Of a.core) a.pa a.data false).performed a [] false) := by
  rw [State.writeHome]
  simp [line.pkg, line.sweeping, line.writePas, may, line.writeCells, State.homeBytes]

theorem PlainLine.readHome : s.readHome a =
    some ((s.performed a (a.apps.map fun p => (p.1, s.bytes a.pa a.w)) false).afterRead a) := by
  rw [State.readHome]
  simp [line.pkg, line.sweeping, line.readPas, line.homeRead]

theorem PlainLine.atomHome (may : s.mayEnter a = true) (aop aty : Nat) :
    let v := atomApply aop aty (s.word a.pa a.w) a.apps
    let stored := (s.homeBytes a.pa (bytesOf a.w v.1)).updateCopy (s.l1Of a.core) a.pa (bytesOf a.w v.1) false
    s.atomHome a aop aty = some ((stored.performed a v.2 false).afterRead a) := by
  rw [State.atomHome]
  simp [line.pkg, line.sweeping, line.anyBad_append, may, line.homeRead, line.writeCells, State.homeBytes, State.word]

end

/-! What comes before them. -/

/-- An access found at its home, waiting there or not, is performed by its event. -/
theorem exec_performNow {s t : State} {a : Access} {w : Bool} (found : (s.accs.find? fun x => x.id == a.id && x.waiting == w) = some a)
    (now : s.performNow a = some t) : exec (if w then .wbqEntry a.id else .homeAccess a.id) s = .next t := by
  cases w with
  | true =>
    have next : exec (.wbqEntry a.id) s = execWbqEntry a.id s := rfl
    simp only [beq_true] at found
    rw [if_pos rfl, next, execWbqEntry, found, Option.bind_some, now]
  | false =>
    have next : exec (.homeAccess a.id) s = execHomeAccess a.id s := rfl
    simp only [beq_false] at found
    rw [if_neg Bool.false_ne_true, next, execHomeAccess, found]
    dsimp only
    rw [now]

section
variable {s : State} {a : Access} (undone : a.done = false) (free : ∀ d ∈ a.deps, s.pendingId d = false)
include undone free

/-- Nothing holds the access back. -/
theorem State.not_heldBack : (a.done || a.deps.any s.pendingId) = false := by
  rw [undone, List.any_eq_false.2 fun d hd => by simp [free d hd]]
  rfl

theorem State.performNow_write (kind : a.kind = .write) (home : a.home = true) : s.performNow a = s.storeHome a := by
  rw [State.performNow, State.not_heldBack undone free, kind]
  exact if_pos home

theorem State.performNow_read (kind : a.kind = .read) (home : a.home = true) : s.performNow a = s.flushFirst a fun s => s.readHome a := by
  rw [State.performNow, State.not_heldBack undone free, kind]
  exact if_pos home

theorem State.performNow_atom {aop aty : Nat} (kind : a.kind = .atom aop aty ∨ a.kind = .red aop aty) :
    s.performNow a = s.flushFirst a fun s => s.atomHome a aop aty := by
  rw [State.performNow, State.not_heldBack undone free]
  rcases kind with kind | kind <;> rw [kind] <;> rfl

end

section
variable {s : State} {a : Access} (unsent : a.sent = false) (clean : (s.l1Line (s.l1Of a.core) (lineOf a.pa)).dirty = 0)
  (home : s.wbs (s.l1Of a.core) (lineOf a.pa) = [])
include unsent clean home

/-- With nothing of its line to write back, a home load or atomic goes on once the line has left the L1 (R141, R267). -/
theorem State.flushFirst_of_clean (k : State → Option State) : s.flushFirst a k = k (s.dropLine (s.l1Of a.core) a.pa) := by
  simp [State.flushFirst, unsent, clean, home]

omit unsent in
theorem State.storeHome_of_clean : s.storeHome a = s.writeHome a := by
  simp [State.storeHome, clean, home]

end

/-- Bytes performed at home stand there, and no other byte has changed (R266). -/
theorem State.homeBytes_read {s : State} (ok : s.memOk) (pa : Nat) (bs : List Byte) (x : Nat) :
    Mem.read (s.homeBytes pa bs).mem x = if pa ≤ x ∧ x < pa + bs.length then bs.getD (x - pa) 0 else Mem.read s.mem x := by
  rw [State.homeBytes_mem, Mem.read_writes ok]

/-- Settles O56: with nothing before it, an access is performed by its event, on a line as this package's home holds it. -/
theorem accessesArePerformedAtHome : Obligations.AccessesArePerformedAtHome := by
  intro s a aop aty w i l1 line v stores keeps ok found undone unsent free pkg sound plain clean home
  have here : a ∈ s.accs := List.mem_of_find?_eq_some found
  have own : PlainLine s a.pa := ⟨pkg, sound, plain⟩
  have dropped := own.dropLine l1
  refine ⟨fun kind atHome may => ?write, fun kind atHome => ?read, fun kind may => ?atomic⟩
  case write =>
    have performs := (State.performNow_write undone free kind atHome).trans ((State.storeHome_of_clean clean home).trans (own.writeHome may))
    refine ⟨_, exec_performNow found performs, fun x => ?_⟩
    rw [State.performed_mem, (SameAccs.updateCopy ..).mem, State.homeBytes_read ok]
  case read =>
    have performs : s.performNow a = some (((s.dropLine l1 a.pa).performed a (a.apps.map fun p => (p.1, s.bytes a.pa a.w)) false).afterRead a) := by
      rw [State.performNow_read undone free kind atHome, State.flushFirst_of_clean unsent clean home]
      exact dropped.readHome
    have after := SameAccs.afterRead ((s.dropLine l1 a.pa).performed a (a.apps.map fun p => (p.1, s.bytes a.pa a.w)) false) a
    refine ⟨_, exec_performNow found performs, after.mem.trans (State.performed_mem ..), fun q load => ?_⟩
    rw [after.accs]
    exact State.performed_keeps (s := s.dropLine l1 a.pa) here _ _ load
  case atomic =>
    let stored := ((s.dropLine l1 a.pa).homeBytes a.pa (bytesOf a.w v.1)).updateCopy l1 a.pa (bytesOf a.w v.1) false
    have copy : SameAccs ((s.dropLine l1 a.pa).homeBytes a.pa (bytesOf a.w v.1)) stored := .updateCopy ..
    have performs : s.performNow a = some ((stored.performed a v.2 false).afterRead a) := by
      rw [State.performNow_atom undone free kind, State.flushFirst_of_clean unsent clean home]
      exact dropped.atomHome may aop aty
    have after := SameAccs.afterRead (stored.performed a v.2 false) a
    refine ⟨_, exec_performNow found performs, fun x => ?_, fun q load => ?_⟩
    · rw [after.mem, State.performed_mem, copy.mem, State.homeBytes_read (s := s.dropLine l1 a.pa) ok]
      rfl
    · rw [after.accs]
      refine State.performed_keeps ?_ _ _ load
      rw [copy.accs, State.homeBytes, State.homeCells_accs]
      exact here

end Sys2Proof.Machine
end

section
/-! LDFE, STFE and FESET (R145, R146, R202). -/

namespace Sys2Proof.Machine

/-! Data that returns lane by lane. -/

theorem PLoad.returned_got {l : PLoad} (lanes : l.uni = false) {res : List (Nat × List Byte)} {bad : Bool} {n : Nat}
    (h : (l.returned l.seq res bad).got.getLsbD n = true) : l.got.getLsbD n = true ∨ ∃ r ∈ res, r.1 = n := by
  rw [PLoad.returned_eq lanes] at h
  simp only [BitVec.getLsbD_or, Mask.ofFn_getLsbD, Bool.or_eq_true, Bool.and_eq_true, List.any_eq_true, beq_iff_eq] at h
  exact h.imp_right And.right

section
variable {α : Type} (gid seq : Nat) (res : α → List (Nat × List Byte)) (bad : α → Bool)

theorem State.returnLoads_blocks (la : List α) (s : State) : (la.foldl (fun t a => t.returnLoad gid seq (res a) (bad a)) s).blocks = s.blocks := by
  induction la generalizing s with
  | nil => rfl
  | cons a la ih =>
    refine (ih _).trans ?_
    dsimp only
    rw [State.returnLoad_rest]

/-- A load to which data returns for several lanes has received it all, and nothing more (R159). -/
theorem LastLoad.returnLoads {base : List PLoad} (la : List α) {s : State} {l : PLoad} (name : l.seq = seq) (last : LastLoad base (s.group gid).loads l) :
    ∃ j, LastLoad base ((la.foldl (fun t a => t.returnLoad gid seq (res a) (bad a)) s).group gid).loads j ∧ Same l j ∧
      (∀ a ∈ la, Holds j (res a)) ∧ ∀ n, j.got.getLsbD n = true → l.got.getLsbD n = true ∨ ∃ a ∈ la, ∃ r ∈ res a, r.1 = n := by
  induction la generalizing s l with
  | nil => exact ⟨l, last, .refl l, by simp, fun n h => .inl h⟩
  | cons a la ih =>
    have same := Same.returned last.lanes (res a) (bad a)
    have next := last.returned (res a) (bad a)
    have holds := Holds.returned last.lanes (res a) (bad a)
    have got := @PLoad.returned_got _ last.lanes (res a) (bad a)
    rw [name] at same next holds got
    rw [← State.returnLoad_loads] at next
    obtain ⟨j, last', same', others, only⟩ := ih (same.seq.trans name) next
    refine ⟨j, last', same.trans same', fun c hc => ?_, fun n hn => ?_⟩
    · rcases List.mem_cons.1 hc with rfl | hc
      · exact holds.same same'
      · exact others c hc
    · rcases only n hn with early | ⟨c, hc, more⟩
      · exact (got early).imp_right fun more => ⟨a, by simp, more⟩
      · exact .inr ⟨c, by simp [hc], more⟩

end

/-! LDFE's load and its words. -/

section
variable (s : State) (x : Iss)

/-- The words of a LDFE, read into its load (R145). -/
def State.feRead : State :=
  let loaded := (s.mapDest x).newLoad x x.exec (x.addrs ((s.regs x).saddr x)) 4
  (x.addrs ((s.regs x).saddr x)).foldl
    (fun t a => t.returnLoad x.gid loaded.1 [(a.1, (s.blockOf x).read a.2 4)] ((s.blockOf x).badAt a.2 4)) loaded.2

/-- The words of a LDFE, emptied where it takes them. -/
def State.feTake : State :=
  if x.ins.pl = 1 then (s.feRead x).modBlock (s.group x.gid).blk fun b => (x.addrs ((s.regs x).saddr x)).foldl (fun b a => b.setFull a.2 false) b
  else s.feRead x

theorem State.feRead_block (k : Nat) : (s.feRead x).block k = s.block k := by
  rw [State.block, State.feRead, State.returnLoads_blocks]
  exact ((Maps.mapDest s x).under.trans (.newLoad ..)).block k

theorem State.feTake_queues : Queues s (s.feTake x) x := by
  have reads : Queues s (s.feRead x) x := ((Queues.mapDest s x).trans (.newLoad ..)).trans (.fold x _ (fun _ _ => .returnLoad ..) _ _)
  unfold State.feTake
  split
  · exact reads.trans (.modBlock ..)
  · exact reads

theorem State.feTake_group (g : Nat) : (s.feTake x).group g = (s.feRead x).group g := by
  unfold State.feTake
  split <;> rfl

theorem State.feTake_block (k : Nat) : (s.feTake x).block k =
    if k = (s.group x.gid).blk ∧ x.ins.pl = 1 then (x.addrs ((s.regs x).saddr x)).foldl (fun b a => b.setFull a.2 false) (s.blockOf x) else s.block k := by
  unfold State.feTake
  split
  next take =>
    rw [State.modBlock_get, State.feRead_block, State.feRead_block]
    simp only [take, and_true]
    rfl
  next keep => rw [State.feRead_block, if_neg fun h => keep h.2]

/-- The load of a LDFE has received the words of all its lanes when it issues (R145). -/
theorem State.feRead_load : ∃ l, LastLoad (s.group x.gid).loads ((s.feRead x).group x.gid).loads l ∧
    Same (x.laneLoad s.nextId x.exec (x.addrs ((s.regs x).saddr x)) 4) l ∧ l.got = x.exec ∧
    ∀ a ∈ x.addrs ((s.regs x).saddr x), (a.1, loadWords 4 l.n ((s.blockOf x).read a.2 4)) ∈ l.vals := by
  have entered : LastLoad (s.group x.gid).loads ((((s.mapDest x).newLoad x x.exec (x.addrs ((s.regs x).saddr x)) 4).2).group x.gid).loads
      (x.laneLoad s.nextId x.exec (x.addrs ((s.regs x).saddr x)) 4) := by
    rw [State.mapDest_newLoad_loads]
    exact .new _ rfl
  obtain ⟨l, last, same, holds, only⟩ := LastLoad.returnLoads x.gid _ (fun a => [(a.1, (s.blockOf x).read a.2 4)])
    (fun a => (s.blockOf x).badAt a.2 4) (x.addrs ((s.regs x).saddr x)) (Maps.mapDest s x).nextId.symm entered
  have wd : l.wd = 4 := same.wd
  refine ⟨l, last, same, BitVec.eq_of_getLsbD_eq fun n hn => Bool.eq_iff_iff.2 ⟨fun got => ?_, fun lane => ?_⟩, fun a ha => ?_⟩
  · rcases only n got with early | ⟨a, ha, r, hr, rfl⟩
    · simp [Iss.laneLoad] at early
    · obtain rfl := List.mem_singleton.1 hr
      exact (Iss.mem_addrs.1 ha).1.2
  · exact (holds (n, (s.regs x).saddr x n) (Iss.mem_addrs.2 ⟨⟨hn, lane⟩, rfl⟩)).got _ (List.mem_singleton_self _) hn
  · have held := (holds a ha).vals _ (List.mem_singleton_self _)
    rw [wd] at held
    exact held

end

/-! The three effects where their checks pass. -/

section
variable {s : State} {x : Iss} (todo : s.feDone x = false) (own : s.feAway x (x.addrs ((s.regs x).saddr x)) = false)
  (checks : x.feCheck (s.blockOf x) (x.addrs ((s.regs x).saddr x)) = none) (words : s.feReady x = true)
include todo own checks words

/-- LDFE enters its load, which receives the words, and takes them. -/
theorem ldfeEff_eq (few : s.loadCount x < 32) (room : s.overCap x x.ins.dsts = false) (some_ : x.exec ≠ 0) :
    ldfeEff x s = .done ((s.feTake x).acquire x.core x.ins.sco x.ins.sem) := by
  rw [ldfeEff, if_neg (by simp [todo]), ldfeAt, withLoadRoom_of_lt few, capped_of_room room]
  dsimp only
  rw [checks]
  dsimp only
  rw [if_neg (by simp [own]), if_neg (by simp [words]), if_neg some_]
  rfl

/-- STFE writes its words and fills them. -/
theorem stfeEff_eq (release : x.ins.sem = 2 → x.exec ≠ 0 → s.releaseDone x x.ins.sco = (true, s)) :
    stfeEff x s = .done (s.modBlock (s.group x.gid).blk fun b => (x.addrs ((s.regs x).saddr x)).foldl
      (fun b a => (b.write a.2 (bytesOf 4 ((s.regs x).x x.ins.c a.1).toNat)).setFull a.2 true) b) := by
  rw [stfeEff, if_neg (by simp [todo]), stfeAt]
  dsimp only
  rw [checks]
  dsimp only
  rw [if_neg (by simp [words])]
  split
  next h =>
    rw [release h.1 h.2]
    exact if_neg (by simp [own])
  next => exact if_neg (by simp [own])

end

theorem fesetEff_idle {s : State} {x : Iss} (idle : x.exec = 0 ∨ ((s.regs x).saddr x 0 % 4 = 0 ∧ ((s.regs x).x x.ins.c 0).toNat = 0)) :
    fesetEff x s = .done s := by
  rw [fesetEff]
  rcases idle with idle | ⟨aligned, none⟩
  · rw [if_pos idle]
  · dsimp only
    rw [if_neg (not_not.2 aligned), if_pos none, ite_self]

/-- The access of a FESET. -/
def Iss.fesetMsg (x : Iss) (s : State) : SpadMsg :=
  { x.spadMsg s 3 ((s.regs x).saddr x 0) (4 * ((s.regs x).x x.ins.c 0).toNat) [] none with lanes := x.exec, aop := x.ins.pl, acq := false }

theorem fesetEff_eq {s : State} {x : Iss} (some_ : x.exec ≠ 0) (aligned : (s.regs x).saddr x 0 % 4 = 0) (words : ((s.regs x).x x.ins.c 0).toNat ≠ 0)
    (first : (s.blockOf x).spadOk ((s.regs x).saddr x 0) 4 = true)
    (extent : spadOff ((s.regs x).saddr x 0) + 4 * ((s.regs x).x x.ins.c 0).toNat ≤ (s.blockOf x).spad) :
    fesetEff x s = .done (s.spadIssue x (x.fesetMsg s) []) := by
  rw [fesetEff]
  dsimp only
  rw [if_neg some_, if_neg (by simp [aligned]), if_neg words, if_neg (by simp [first]), if_neg (Nat.not_lt.2 extent)]
  rfl

/-- Settles O23: what each has done to its words is done where the instruction issues. -/
theorem fullEmptyOperationsComplete : Obligations.FullEmptyOperationsComplete := by
  intro f s x r b bk la n start
  refine ⟨fun i which ready done => ?done, fun ready todo own few room checks words some_ => ?ldfe,
    fun ready todo own checks words release => ?stfe, fun ready checks => ?feset⟩
  case done =>
    rcases which with rfl | rfl
    · obtain ⟨next, kept⟩ := ready.kept (u := s.feIssued x) (by rw [ready.ins_eq rfl]; rfl) (if_pos done) (.ofGroup rfl rfl)
      exact ⟨_, next, kept, State.advance_blocks ..⟩
    · obtain ⟨next, kept⟩ := ready.kept (u := s) (by rw [ready.ins_eq rfl]; rfl) (if_pos done) (.refl s x)
      exact ⟨_, next, kept, State.advance_blocks ..⟩
  case ldfe =>
    obtain ⟨next, kept⟩ := ready.kept (by rw [ready.ins_eq rfl]; rfl) (ldfeEff_eq todo own checks words few room some_)
      ((s.feTake_queues x).trans (.acquire ..))
    obtain ⟨l, last, same, got, vals⟩ := s.feRead_load x
    have group : ((s.feTake x).acquire x.core x.ins.sco x.ins.sem).group x.gid = (s.feRead x).group x.gid := by
      rw [State.acquire_rest, ← s.feTake_group]
      rfl
    refine ⟨_, l, next, kept, LastLoad.loads (by rw [group]; exact last) (by rw [same.form]; rfl) (by rw [same.form]; rfl), same.n,
      by rw [same.form]; rfl, got, vals, fun k hk => ?_, ?_⟩
    · rw [State.advance_block, State.acquire_block, State.feTake_block, if_neg fun h => hk h.1]
    · rw [State.advance_block, State.acquire_block, State.feTake_block]
      simp only [bk, true_and]
      rfl
  case stfe =>
    obtain ⟨next, kept⟩ := ready.kept (by rw [ready.ins_eq rfl]; rfl) (stfeEff_eq todo own checks words release) (.modBlock ..)
    refine ⟨_, next, kept, fun k hk => ?_, ?_⟩
    · rw [State.advance_block, State.modBlock_ne _ hk]
    · rw [State.advance_block, State.modBlock_self]
      rfl
  case feset =>
    intro here
    by_cases idle : x.exec = 0 ∨ n = 0
    · have nothing : x.exec = 0 ∨ (start % 4 = 0 ∧ n = 0) := by
        rcases checks with none | ⟨aligned, -⟩
        · exact .inl none
        · exact idle.imp_right fun none => ⟨aligned, none⟩
      obtain ⟨next, kept⟩ := ready.kept (by rw [ready.ins_eq rfl]; rfl) (fesetEff_idle nothing) (.refl s x)
      refine ⟨_, next, kept, fun k _ => by simp, fun _ => by simp; rfl, fun some_ words => ?_, fun some_ words => ?_⟩ <;>
        exact absurd idle (not_or.2 ⟨some_, words⟩)
    · obtain ⟨some_, words⟩ := not_or.1 idle
      obtain ⟨aligned, extent⟩ := checks.resolve_left some_
      obtain ⟨first, extent⟩ := extent.resolve_left words
      obtain ⟨next, kept⟩ := ready.kept (by rw [ready.ins_eq rfl]; rfl) (fesetEff_eq some_ aligned words first extent) (.spadIssue s x _ _ rfl)
      have free : here ↔ ([] : List Nat) = [] ∧ (x.fesetMsg s).Free s x := by
        simp only [here, State.feOrdered, List.all_cons, List.all_nil, Bool.and_true, List.isEmpty_iff]
        exact ⟨fun ⟨own, first⟩ => ⟨trivial, own, first⟩, fun ⟨_, own, first⟩ => ⟨own, first⟩⟩
      rcases s.spadIssue_cases x (x.fesetMsg s) [] with ⟨performed, issues⟩ | ⟨held, m, queued, issues⟩ <;> rw [issues] at next kept
      · obtain ⟨bank, banked⟩ := s.spadPerform_spec (x.fesetMsg s) x.core
        refine ⟨_, next, kept, fun k hk => (State.advance_block ..).trans (banked.blocks k hk), fun h => absurd h idle, fun _ _ _ => ?_,
          fun _ _ away => absurd (free.2 performed) away⟩
        have count : 4 * n / 4 = n := by omega
        refine (State.advance_block ..).trans ((congrArg Prod.fst bank).trans ?_)
        exact congrArg (fun n => (List.range n).foldl (fun b k => b.setFull (start + 4 * k) (x.ins.pl == 1)) b) count
      · refine ⟨_, next, kept, fun k _ => State.advance_block .., fun h => absurd h idle, fun _ _ own => absurd (free.1 own) held,
          fun _ _ _ => ⟨State.advance_block .., m, State.advance_spads .., ?_⟩⟩
        rw [queued]
        exact ⟨rfl, rfl, rfl, rfl, rfl, rfl, rfl⟩

end Sys2Proof.Machine
end

section
/-! LDS, STS and ATOMS (R143, R147, R199, R202, R204). -/

namespace Sys2Proof.Machine

/-! The messages of an instruction. -/

theorem Mask.lanes_pairwise (m : Mask) : m.lanes.Pairwise (· < ·) := List.pairwise_lt_range.filter _

/-- The lanes of an instruction stand in increasing order. -/
theorem Iss.addrs_pairwise (x : Iss) (f : Nat → Nat) : (x.addrs f).Pairwise fun b a => b.1 < a.1 :=
  List.pairwise_map.2 (Mask.lanes_pairwise x.exec)

theorem Mask.ofFn_and_eq_zero {f g : Nat → Bool} (apart : ∀ l, f l = true → g l = false) : Mask.ofFn f &&& Mask.ofFn g = 0 := by
  refine BitVec.eq_of_getLsbD_eq fun l hl => ?_
  rw [BitVec.getLsbD_and, Mask.ofFn_getLsbD, Mask.ofFn_getLsbD]
  cases h : f l
  · simp
  · simp [apart l h]

/-- The mask of a message's lanes. -/
theorem Iss.spadMsg_lanes (x : Iss) (s : State) (kind addr w : Nat) (apps : List (Nat × List Byte)) (load : Option Nat) :
    (x.spadMsg s kind addr w apps load).lanes = Mask.ofFn fun l => (apps.map Prod.fst).contains l := by
  refine congrArg Mask.ofFn (funext fun l => (?_ : (apps.any fun a => a.1 == l) = _))
  rw [List.contains_eq_any_beq, List.any_map]
  exact congrArg apps.any (funext fun a => Bool.beq_comm)

/-- The accesses of single lanes belong to no common lane. -/
theorem SpadMsg.lane_apart {msg : Nat → SpadMsg} (one : ∀ n, (msg n).lanes = Mask.ofFn fun l => [n].contains l) {b a : Nat} (lt : b < a) :
    b ≠ a ∧ (msg b).lanes &&& (msg a).lanes = 0 := by
  refine ⟨lt.ne, ?_⟩
  rw [one b, one a]
  refine Mask.ofFn_and_eq_zero fun l hl => ?_
  have same : l = b := by simpa using hl
  simpa [same] using lt.ne

theorem Iss.foldl_addrs {β : Type} (x : Iss) (f : Nat → Nat) (g : β → Nat × Nat → β) (b : β) :
    (x.addrs f).foldl g b = x.exec.lanes.foldl (fun b n => g b (n, f n)) b := List.foldl_map

/-! The lanes of an atomic, by location (R147). -/

theorem mem_groupBy {la : List (Nat × Nat)} {g : Nat × List Nat} (h : g ∈ groupBy la) : ∀ n, n ∈ g.2 ↔ (n, g.1) ∈ la := by
  obtain ⟨a, -, rfl⟩ := List.mem_map.1 h
  intro n
  simp

/-- Locations differ, and no lane belongs to two of them. -/
theorem groupBy_pairwise {la : List (Nat × Nat)} (lanes : la.Pairwise fun b a => b.1 < a.1) :
    (groupBy la).Pairwise fun h g => h ≠ g ∧ ∀ n ∈ h.2, n ∉ g.2 := by
  have once : (la.map Prod.fst).Nodup := List.pairwise_map.2 (lanes.imp fun lt => lt.ne)
  have keys : (la.map Prod.snd).dedup.Pairwise fun b a => b ≠ a := List.nodup_dedup _
  refine List.pairwise_map.2 (keys.imp fun {b a} ne => ⟨fun h => ne (congrArg Prod.fst h), fun n hb ha => ne ?_⟩)
  have hb : (n, b) ∈ la := by simpa using hb
  have ha : (n, a) ∈ la := by simpa using ha
  exact congrArg Prod.snd (List.inj_on_of_nodup_map once hb ha rfl)

/-! Results. -/

theorem atomApply_lanes (aop aty old : Nat) (apps : List (Nat × List Byte)) : (atomApply aop aty old apps).2.map Prod.fst = apps.map Prod.fst := by
  induction apps using List.reverseRecOn with
  | nil => rfl
  | append_singleton apps a ih =>
    rw [atomApply, List.foldl_append] at *
    simp [ih]

/-- Each lane of an atomic receives something (R147). -/
theorem Block.perform_atom_lanes (b : Block) {m : SpadMsg} (atomic : m.kind = 2) : (b.perform m).2.1.map Prod.fst = m.apps.map Prod.fst := by
  simp only [Block.perform, atomic]
  split
  · simp [Function.comp_def]
  · exact atomApply_lanes ..

theorem Block.perform_load (b : Block) {m : SpadMsg} (load : m.kind = 0) :
    b.perform m = (b, m.apps.map fun a => (a.1, b.read m.addr m.w), b.badAt m.addr m.w) := by simp only [Block.perform, load]

theorem Block.perform_store (b : Block) {m : SpadMsg} (store : m.kind = 1) :
    b.perform m = (m.apps.foldl (fun b a => b.write m.addr a.2) b, [], false) := by simp only [Block.perform, store]

/-! Accesses that issue once names, a load and a release are entered. -/

/-- What an instruction has entered before its accesses are issued, and what they wait for: its release, where it makes one. -/
structure Prepared (s u : State) (rel : List Nat) (x : Iss) : Prop where
  under : Under s u
  blk : (u.group x.gid).blk = (s.group x.gid).blk
  alone : (s.releaseFor x).1 = [] → rel = [] ∧ u.accs = s.accs

theorem Prepared.release {s t : State} {x : Iss} (entered : Under s t) (accs : t.accs = s.accs) (blk : (t.group x.gid).blk = (s.group x.gid).blk) :
    Prepared s (t.releaseFor x).2 (t.releaseFor x).1 x := by
  refine ⟨entered.trans (.releaseFor ..), by rw [State.releaseFor_group, blk], fun none => ?_⟩
  rw [State.releaseFor_of_nil entered accs none]
  exact ⟨rfl, accs⟩

/-- The block is as it was when the accesses begin to issue. -/
theorem Prepared.bank {s u : State} {rel : List Nat} {x : Iss} (h : Prepared s u rel x) : (u.bank (u.group x.gid).blk x.gid).1 = s.blockOf x :=
  (h.under.block _).trans (congrArg s.block h.blk)

theorem Maps.blk {s t : State} {x : Iss} (h : Maps s t x) : (t.group x.gid).blk = (s.group x.gid).blk := by rw [h.group]

theorem State.newLoad_blk (s : State) (x : Iss) (m : Mask) (la : List (Nat × Nat)) (wd : Nat) :
    ((s.newLoad x m la wd).2.group x.gid).blk = (s.group x.gid).blk := by
  rw [State.newLoad_eq, State.modGroup_self]
  rfl

section
variable {α : Type} {s u t : State} {x : Iss} {rel : List Nat} {msg : α → SpadMsg} {all now : List α}

/-- Each access has been performed or is under way. -/
theorem Runs.waits (run : Runs u t x msg all now) {v : State} (same : v.spads = t.spads) {a : α} (ha : a ∈ all)
    {k addr w : Nat} {apps : List (Nat × List Byte)} {load : Option Nat}
    (form : msg a = x.spadMsg s k addr w apps load) : a ∈ now ∨ ∃ m ∈ v.spads, m.kind = k ∧ m.gid = x.gid ∧ m.blk = (s.group x.gid).blk ∧
      m.addr = addr ∧ m.w = w ∧ m.apps = apps ∧ m.load = load ∧ m.done = false := by
  obtain ⟨news, spads, -, everyone⟩ := run.queue
  refine (everyone a ha).imp_right fun ⟨m, hm, queued⟩ => ⟨m, by rw [same, spads]; exact List.mem_append_right _ hm, ?_⟩
  rw [queued, form]
  exact ⟨rfl, rfl, rfl, rfl, rfl, rfl, rfl, rfl⟩

theorem Runs.others (run : Runs u t x msg all now) (prepared : Prepared s u rel x) : ∀ k, k ≠ (s.group x.gid).blk → t.block k = s.block k := by
  intro k hk
  rw [run.blocks k (by rwa [prepared.blk]), prepared.under.block]

theorem Runs.block (run : Runs u t x msg all now) (prepared : Prepared s u rel x) :
    t.block (s.group x.gid).blk = now.foldl (fun b a => (b.perform (msg a)).1) (s.blockOf x) := by
  have bank := congrArg Prod.fst run.bank
  rw [Block.performAll_block, prepared.blk] at bank
  have start := prepared.bank
  rw [prepared.blk] at start
  rw [← start]
  exact bank

theorem Runs.loads (run : Runs u t x msg all now) : (t.group x.gid).loads = (Block.performAll msg now (u.bank (u.group x.gid).blk x.gid)).2 :=
  congrArg Prod.snd run.bank

/-- Accesses of separate lanes are issued in turn, and those that nothing precedes are performed at once. -/
theorem Prepared.runs (prepared : Prepared s u rel x) {f : State → α → State} (gid : ∀ a, (msg a).gid = x.gid)
    (blk : ∀ a, (msg a).blk = (s.group x.gid).blk)
    (issues : ∀ t a, (t.group x.gid).blk = (s.group x.gid).blk → f t a = t.spadIssue x (msg a) rel) {l : List α}
    (apart : l.Pairwise fun b a => b ≠ a ∧ (msg b).lanes &&& (msg a).lanes = 0) :
    ∃ now, Runs u (l.foldl f u) x msg l now ∧ ∀ a ∈ l, (s.releaseFor x).1 = [] → (msg a).Free s x → a ∈ now := by
  obtain ⟨now, run, first⟩ := Runs.fold (s := u) (start := fun _ => (s.releaseFor x).1 = []) (follows := fun _ _ => False) gid
    (fun a => (blk a).trans prepared.blk.symm) (fun t a h => issues t a (h.trans prepared.blk)) (fun b a h => h) (fun _ _ _ h => h.elim)
    (fun _ _ _ _ _ alone _ _ => (prepared.alone alone).1) apart
  exact ⟨now, run, fun a ha alone free => first a ha ⟨alone, free.entered prepared.under (prepared.alone alone).2⟩ fun _ _ _ h => h.elim⟩

end

/-- A scratchpad load or atomic with the names of its destination mapped and its load entered (R160, R179). -/
def State.spadLoad (s : State) (x : Iss) (wd : Nat) : State := ((s.mapDest x).newLoad x x.exec (x.addrs ((s.regs x).saddr x)) wd).2

theorem State.spadLoad_prepared (s : State) (x : Iss) (wd : Nat) : Prepared s ((s.spadLoad x wd).releaseFor x).2 ((s.spadLoad x wd).releaseFor x).1 x := by
  have maps := Maps.mapDest s x
  exact .release (maps.under.trans (.newLoad ..)) maps.accs ((State.newLoad_blk ..).trans maps.blk)

theorem State.spadLoad_load (s : State) (x : Iss) (wd : Nat) : LastLoad (s.group x.gid).loads
    (((s.spadLoad x wd).releaseFor x).2.group x.gid).loads (x.laneLoad s.nextId x.exec (x.addrs ((s.regs x).saddr x)) wd) := by
  rw [State.releaseFor_group, State.spadLoad, State.mapDest_newLoad_loads]
  exact .new _ rfl

/-! LDS. -/

/-- The access of one lane of a LDS. -/
def Iss.ldsMsg (x : Iss) (s : State) (n : Nat) : SpadMsg := x.spadMsg s 0 ((s.regs x).saddr x n) (wdBytes x.ins.wd) [(n, [])] (some s.nextId)

theorem ldsEff_eq {s : State} {x : Iss} (few : s.loadCount x < 32) (room : s.overCap x x.ins.dsts = false)
    (aligned : x.misaligned false (wdBytes x.ins.wd) (x.addrs ((s.regs x).saddr x)) = none)
    (inside : x.outOfExtent (s.blockOf x) (wdBytes x.ins.wd) (x.addrs ((s.regs x).saddr x)) = none) (some_ : x.exec ≠ 0) :
    let released := (s.spadLoad x x.ins.wd).releaseFor x
    ldsEff x s = .done (x.exec.lanes.foldl (fun t n => t.spadIssue x
      (x.spadMsg t 0 ((s.regs x).saddr x n) (wdBytes x.ins.wd) [(n, [])] (some s.nextId)) released.1) released.2) := by
  intro released
  rw [ldsEff, withLoadRoom_of_lt few, capped_of_room room]
  dsimp only
  rw [aligned, inside]
  dsimp only
  rw [if_neg some_]
  rw [Iss.foldl_addrs, ← (Maps.mapDest s x).nextId]
  rfl

/-- A LDS as it issues: its reads find the block's bytes, and nothing of the block changes. -/
theorem lds_runs (s : State) (x : Iss) :
    let u := (s.spadLoad x x.ins.wd).releaseFor x
    let b := s.blockOf x
    let t := x.exec.lanes.foldl (fun t n => t.spadIssue x
      (x.spadMsg t 0 ((s.regs x).saddr x n) (wdBytes x.ins.wd) [(n, [])] (some s.nextId)) u.1) u.2
    ∃ now l, Runs u.2 t x (x.ldsMsg s) x.exec.lanes now ∧ (∀ k, t.block k = s.block k) ∧ LastLoad (s.group x.gid).loads (t.group x.gid).loads l ∧
      Same (x.laneLoad s.nextId x.exec (x.addrs ((s.regs x).saddr x)) x.ins.wd) l ∧
      (∀ n ∈ now, Holds l [(n, b.read ((s.regs x).saddr x n) (wdBytes x.ins.wd))]) ∧
      ∀ n ∈ x.exec.lanes, (s.releaseFor x).1 = [] → (x.ldsMsg s n).Free s x → n ∈ now := by
  intro u b t
  have prepared := s.spadLoad_prepared x x.ins.wd
  have turn (t : State) (n : Nat) (blk : (t.group x.gid).blk = (s.group x.gid).blk) : t.spadIssue x
      (x.spadMsg t 0 ((s.regs x).saddr x n) (wdBytes x.ins.wd) [(n, [])] (some s.nextId)) u.1 = t.spadIssue x (x.ldsMsg s n) u.1 := by
    rw [Iss.spadMsg_congr blk]
    rfl
  obtain ⟨now, run, first⟩ := prepared.runs (msg := x.ldsMsg s) (fun _ => rfl) (fun _ => rfl) turn
    ((Mask.lanes_pairwise x.exec).imp (SpadMsg.lane_apart fun n => x.spadMsg_lanes ..))
  obtain ⟨l, last, same, holds⟩ := Block.performAll_load (x.ldsMsg s) (fun _ => rfl) _ (inv := fun c => c = b)
    (fun c n h => by rw [Block.perform_load _ rfl]; exact h) now prepared.bank rfl (s.spadLoad_load x x.ins.wd)
  have unchanged (k : Nat) : t.block k = s.block k := by
    by_cases own : k = (s.group x.gid).blk
    · rw [own, run.block prepared]
      exact List.foldl_fixed' (fun n => by rw [Block.perform_load _ rfl]) now
    · exact run.others prepared k own
  refine ⟨now, l, run, unchanged, by rw [run.loads]; exact last, same, fun n hn => ?_, first⟩
  obtain ⟨c, rfl, held⟩ := holds n hn
  rw [Block.perform_load _ rfl] at held
  exact held

/-! STS. -/

/-- The access of one lane of a STS. -/
def Iss.stsMsg (x : Iss) (s : State) (n : Nat) : SpadMsg :=
  x.spadMsg s 1 ((s.regs x).saddr x n) (wdBytes x.ins.wd) [(n, (s.regs x).data x (wdBytes x.ins.wd) n)] none

/-- The accesses of an address that are under way since a state. -/
def State.since (u t : State) (a : Nat) : List Nat := ((t.spads.drop u.spads.length).filter (·.addr == a)).map (·.id)

theorem stsEff_eq {s : State} {x : Iss} (aligned : x.misaligned false (wdBytes x.ins.wd) (x.addrs ((s.regs x).saddr x)) = none)
    (inside : x.outOfExtent (s.blockOf x) (wdBytes x.ins.wd) (x.addrs ((s.regs x).saddr x)) = none) :
    let released := s.releaseFor x
    stsEff x s = .done ((x.exec.lanes.foldl (fun t n => t.spadIssue x
      (x.spadMsg t 1 ((s.regs x).saddr x n) (wdBytes x.ins.wd) [(n, (s.regs x).data x (wdBytes x.ins.wd) n)] none)
      (released.1 ++ released.2.since t ((s.regs x).saddr x n))) released.2).recordStore x
        ((x.addrs ((s.regs x).saddr x)).map fun a => (s.regs x).xs x.ins.c 1 a.1)) := by
  intro released
  rw [stsEff]
  dsimp only
  rw [aligned, inside]
  dsimp only
  rw [Iss.foldl_addrs]
  rfl

/-- No store of an address is under way, where every earlier one was performed. -/
theorem Runs.since_eq_nil {u t : State} {x : Iss} {msg : Nat → SpadMsg} {all now : List Nat} (run : Runs u t x msg all now) {a : Nat}
    (done : ∀ b ∈ all, (msg b).addr = a → b ∈ now) : u.since t a = [] := by
  obtain ⟨news, spads, origins, -⟩ := run.queue
  rw [State.since, spads, List.drop_left, List.map_eq_nil_iff, List.filter_eq_nil_iff]
  intro m hm at_
  obtain ⟨b, hb, waits, queued⟩ := origins m hm
  rw [queued] at at_
  exact waits (done b hb (by simpa using at_))

/-- A STS as it issues: each location's lanes store in their order. -/
theorem sts_runs (s : State) (x : Iss) :
    let u := s.releaseFor x
    let t := x.exec.lanes.foldl (fun t n => t.spadIssue x
      (x.spadMsg t 1 ((s.regs x).saddr x n) (wdBytes x.ins.wd) [(n, (s.regs x).data x (wdBytes x.ins.wd) n)] none)
      (u.1 ++ u.2.since t ((s.regs x).saddr x n))) u.2
    ∃ now, Runs u.2 t x (x.stsMsg s) x.exec.lanes now ∧ ∀ n ∈ x.exec.lanes,
      (∀ k ∈ x.exec.lanes, k ≤ n → (s.regs x).saddr x k = (s.regs x).saddr x n →
        (s.releaseFor x).1 = [] ∧ (x.stsMsg s k).Free s x) → n ∈ now := by
  intro u t
  have prepared : Prepared s u.2 u.1 x := .release (.refl s) rfl rfl
  have turn (t : State) (n : Nat) (blk : (t.group x.gid).blk = (u.2.group x.gid).blk) : t.spadIssue x
      (x.spadMsg t 1 ((s.regs x).saddr x n) (wdBytes x.ins.wd) [(n, (s.regs x).data x (wdBytes x.ins.wd) n)] none)
      (u.1 ++ u.2.since t ((s.regs x).saddr x n)) = t.spadIssue x (x.stsMsg s n) (u.1 ++ u.2.since t ((s.regs x).saddr x n)) := by
    rw [Iss.spadMsg_congr (blk.trans prepared.blk)]
    rfl
  obtain ⟨now, run, first⟩ := Runs.fold (s := u.2) (msg := x.stsMsg s) (start := fun _ => (s.releaseFor x).1 = [])
    (follows := fun b a => (s.regs x).saddr x b = (s.regs x).saddr x a) (fun _ => rfl) (fun _ => prepared.blk.symm) turn
    (fun b a => SpadMsg.lane_apart fun n => x.spadMsg_lanes ..) (fun _ _ _ h h' => h.trans h')
    (fun t all now a run alone done early => by
      rw [(prepared.alone alone).1, run.since_eq_nil fun b hb same => done b hb (early b hb) same]
      rfl) (Mask.lanes_pairwise x.exec)
  refine ⟨now, run, fun n hn free => ?_⟩
  have ready (k : Nat) (hk : k ∈ x.exec.lanes) (le : k ≤ n) (same : (s.regs x).saddr x k = (s.regs x).saddr x n) :
      (s.releaseFor x).1 = [] ∧ (x.stsMsg s k).Free u.2 x := by
    obtain ⟨alone, own⟩ := free k hk le same
    exact ⟨alone, own.entered prepared.under (prepared.alone alone).2⟩
  exact first n hn (ready n hn le_rfl rfl) fun k hk lt same => ready k hk lt.le same

/-! ATOMS. -/

/-- The access of one location of an ATOMS. -/
def Iss.atomsMsg (x : Iss) (s : State) (load : Option Nat) (g : Nat × List Nat) : SpadMsg :=
  x.spadMsg s 2 g.1 (atyBytes x.ins.aty) (g.2.map fun n => (n, (s.regs x).operand x n)) load

theorem Iss.atomsMsg_lanes (x : Iss) (s : State) (load : Option Nat) (g : Nat × List Nat) :
    (x.atomsMsg s load g).lanes = Mask.ofFn fun n => g.2.contains n := by
  refine (x.spadMsg_lanes ..).trans ?_
  rw [List.map_map]
  simp [Function.comp_def]

/-- The locations of an ATOMS, with their lanes. -/
def State.atomsGroups (s : State) (x : Iss) : List (Nat × List Nat) := groupBy (x.addrs ((s.regs x).saddr x))

/-- The accesses of an ATOMS issue, with what they wait for. -/
def State.atomsIssues (s : State) (x : Iss) (load : Option Nat) (released : List Nat × State) : State :=
  (s.atomsGroups x).foldl (fun t g => t.spadIssue x
    (x.spadMsg t 2 g.1 (atyBytes x.ins.aty) (g.2.map fun n => (n, (s.regs x).operand x n)) load) released.1) released.2

section
variable {s : State} {x : Iss} (room : s.overCap x x.ins.dsts = false)
  (aligned : x.misaligned false (atyBytes x.ins.aty) (x.addrs ((s.regs x).saddr x)) = none)
  (inside : x.outOfExtent (s.blockOf x) (atyBytes x.ins.aty) (x.addrs ((s.regs x).saddr x)) = none)
include room aligned inside

theorem atomsEff_drops (drops : x.ins.d = 288) (sound : ∀ a ∈ x.addrs ((s.regs x).saddr x), (s.blockOf x).badAt a.2 (atyBytes x.ins.aty) = false) :
    atomsEff x s = .done (if x.exec = 0 then s.mapDest x else s.atomsIssues x none ((s.mapDest x).releaseFor x)) := by
  have words : x.badWords (s.blockOf x) (atyBytes x.ins.aty) (x.addrs ((s.regs x).saddr x)) = none := by
    rw [Iss.badWords, if_pos drops, List.filter_eq_nil_iff.2 fun a ha => by simp [sound a ha]]
    rfl
  rw [atomsEff, if_pos drops, atomsIssue, capped_of_room room]
  dsimp only
  rw [aligned, inside, words]
  dsimp only
  split <;> rfl

theorem atomsEff_returns (returns : x.ins.d ≠ 288) (few : s.loadCount x < 32) (some_ : x.exec ≠ 0) :
    atomsEff x s = .done (s.atomsIssues x (some s.nextId) ((s.spadLoad x (wdOf (atyBytes x.ins.aty))).releaseFor x)) := by
  have words : x.badWords (s.blockOf x) (atyBytes x.ins.aty) (x.addrs ((s.regs x).saddr x)) = none := if_neg returns
  rw [atomsEff, if_neg returns, withLoadRoom_of_lt few, atomsIssue, capped_of_room room]
  dsimp only
  rw [aligned, inside, words]
  dsimp only
  rw [if_neg some_, if_neg returns, ← (Maps.mapDest s x).nextId]
  rfl

end

/-- An ATOMS as it issues: no lane belongs to two locations, so each goes its own way. -/
theorem Prepared.atoms {s u : State} {rel : List Nat} {x : Iss} (prepared : Prepared s u rel x) (load : Option Nat) :
    ∃ now, Runs u (s.atomsIssues x load (rel, u)) x (x.atomsMsg s load) (s.atomsGroups x) now ∧
      ∀ g ∈ s.atomsGroups x, (s.releaseFor x).1 = [] → (x.atomsMsg s load g).Free s x → g ∈ now := by
  refine prepared.runs (fun _ => rfl) (fun _ => rfl) (fun t g blk => ?_) ?_
  · rw [Iss.spadMsg_congr blk]
    rfl
  · refine (groupBy_pairwise (x.addrs_pairwise _)).imp fun {h g} apart => ⟨apart.1, ?_⟩
    rw [Iss.atomsMsg_lanes, Iss.atomsMsg_lanes]
    exact Mask.ofFn_and_eq_zero fun n hn => by simpa using apart.2 n (by simpa using hn)

/-- Every lane of a location that is performed receives its old value (R147). -/
theorem Runs.atoms_received {s u t : State} {x : Iss} {now : List (Nat × List Nat)} (run : Runs u t x (x.atomsMsg s (some s.nextId)) (s.atomsGroups x) now)
    {l : PLoad} (name : l.seq = s.nextId) (last : LastLoad (s.group x.gid).loads (u.group x.gid).loads l) :
    ∃ m, LastLoad (s.group x.gid).loads (t.group x.gid).loads m ∧ Same l m ∧ ∀ g ∈ now, ∀ n ∈ g.2, m.got.getLsbD n = true := by
  obtain ⟨m, last', same, holds⟩ := Block.performAll_load (x.atomsMsg s (some s.nextId)) (fun _ => rfl) _ (inv := fun _ => True)
    (fun _ _ _ => trivial) now (p := u.bank (u.group x.gid).blk x.gid) trivial name last
  refine ⟨m, by rw [run.loads]; exact last', same, fun g hg n hn => ?_⟩
  obtain ⟨c, -, held⟩ := holds g hg
  have lanes := c.perform_atom_lanes (m := x.atomsMsg s (some s.nextId) g) rfl
  have lane : n ∈ ((c.perform (x.atomsMsg s (some s.nextId) g)).2.1).map Prod.fst := by
    rw [lanes]
    simpa [Iss.atomsMsg, Iss.spadMsg] using hn
  obtain ⟨r, hr, rfl⟩ := List.mem_map.1 lane
  exact held.got r hr (Iss.mem_addrs.1 ((mem_groupBy (run.order.subset hg) r.1).1 hn)).1.1

/-! The obligation. -/

/-- A store's scale recording touches groups and contexts alone (R262). -/
theorem State.recordStore_rest (s : State) (x : Iss) (vals : List Nat) :
    s.recordStore x vals = { s with groups := (s.recordStore x vals).groups, ctxs := (s.recordStore x vals).ctxs } := by
  unfold State.recordStore
  dsimp only
  split
  · split <;> rfl
  · rfl

@[simp] theorem State.recordStore_block (s : State) (x : Iss) (vals : List Nat) (k : Nat) : (s.recordStore x vals).block k = s.block k := by
  rw [State.recordStore_rest]
  rfl

@[simp] theorem State.recordStore_spads (s : State) (x : Iss) (vals : List Nat) : (s.recordStore x vals).spads = s.spads := by
  rw [State.recordStore_rest]

theorem SpadMsg.Free.of_lanes {s : State} {x : Iss} {m : SpadMsg} {lanes : Mask} (is : m.lanes = lanes) (own : (s.block m.blk).coreOf m.addr = x.core)
    (first : s.spadDeps x.gid lanes m.addr = []) : m.Free s x := ⟨own, by rw [is]; exact first⟩

/-- Settles O22: what is issued in turn is performed at once where nothing precedes it, or is under way. -/
theorem scratchpadAccessesArePerformedOrUnderWay : Obligations.ScratchpadAccessesArePerformedOrUnderWay := by
  intro f s x r b bk w wa la room free maskOf waits
  refine ⟨fun ready room aligned inside some_ => ?lds, fun ready aligned inside => ?sts, fun ready drops room aligned inside sound => ?drops,
    fun ready returns room aligned inside some_ => ?returns⟩
  case lds =>
    obtain ⟨next, kept⟩ := ready.kept (by rw [ready.ins_eq rfl]; rfl) (ldsEff_eq room.1 room.2 aligned inside some_)
      (((Queues.mapDest s x).trans (.newLoad ..)).trans ((Queues.releaseFor ..).trans (.fold x _ (fun _ _ => .spadIssue _ x _ _ rfl) _ _)))
    obtain ⟨now, l, run, blocks, last, same, holds, first⟩ := lds_runs s x
    have seq : l.seq = s.nextId := same.seq
    have received (n : Nat) (lt : n < 32) (hn : n ∈ now) : l.got.getLsbD n = true := (holds n hn).got _ (List.mem_singleton_self _) lt
    refine ⟨_, l, next, kept, last.loads (by rw [same.form]; rfl) (by rw [same.form]; rfl), same.n, by rw [same.form]; rfl,
      fun k => (State.advance_block ..).trans (blocks k), fun n lt lane => ?_, fun n lt lane ⟨own, alone, quiet⟩ => ?_⟩
    · rw [seq]
      rcases run.waits (State.advance_spads ..) (Mask.mem_lanes.2 ⟨lt, lane⟩) rfl with hn | wait
      · have wd : l.wd = x.ins.wd := same.wd
        have value := (holds n hn).vals _ (List.mem_singleton_self _)
        rw [wd] at value
        exact .inr ⟨received n lt hn, value⟩
      · exact .inl wait
    · exact received n lt (first n (Mask.mem_lanes.2 ⟨lt, lane⟩) alone (.of_lanes (x.spadMsg_lanes ..) own quiet))
  case sts =>
    obtain ⟨next, kept⟩ := ready.kept (by rw [ready.ins_eq rfl]; rfl) (stsEff_eq aligned inside)
      (((Queues.releaseFor ..).trans (.fold x _ (fun _ _ => .spadIssue _ x _ _ rfl) _ _)).trans (.recordStore ..))
    obtain ⟨now, run, first⟩ := sts_runs s x
    have prepared : Prepared s (s.releaseFor x).2 (s.releaseFor x).1 x := .release (.refl s) rfl rfl
    refine ⟨_, now, next, kept, fun k hk => ?_, run.order, ?_, fun n lt lane => ?_, fun n lt lane freely => ?_⟩
    · rw [State.advance_block, State.recordStore_block]
      exact run.others prepared k hk
    · rw [State.advance_block, State.recordStore_block]
      refine (run.block prepared).trans (congrArg (now.foldl · b) (funext₂ fun c n => ?_))
      rw [Block.perform_store _ rfl]
      rfl
    · exact run.waits ((State.advance_spads ..).trans (State.recordStore_spads ..)) (Mask.mem_lanes.2 ⟨lt, lane⟩) rfl
    · refine first n (Mask.mem_lanes.2 ⟨lt, lane⟩) fun k hk le same => ?_
      obtain ⟨own, alone, quiet⟩ := freely k le (Mask.mem_lanes.1 hk).2 same
      rw [← same] at own quiet
      exact ⟨alone, .of_lanes (x.spadMsg_lanes ..) own quiet⟩
  case drops =>
    intro msg
    have maps := Maps.mapDest s x
    have effect := atomsEff_drops room aligned inside drops sound
    by_cases idle : x.exec = 0
    · have nowhere : s.atomsGroups x = [] := by
        rw [State.atomsGroups, Iss.addrs, idle]
        rfl
      have nobody (g : Nat × List Nat) (hg : g ∈ groupBy la) : False := by simp [show groupBy la = [] from nowhere] at hg
      rw [if_pos idle] at effect
      obtain ⟨next, kept⟩ := ready.kept (by rw [ready.ins_eq rfl]; rfl) effect (.mapDest s x)
      have block (k : Nat) : ((s.mapDest x).advance x).block k = s.block k := (State.advance_block ..).trans (maps.under.block k)
      exact ⟨_, [], next, kept, by rw [State.advance_group_loads, maps.loads], fun k _ => block k, List.nil_sublist _, block bk,
        fun g hg => (nobody g hg).elim, fun g hg => (nobody g hg).elim⟩
    · rw [if_neg idle] at effect
      obtain ⟨next, kept⟩ := ready.kept (by rw [ready.ins_eq rfl]; rfl) effect
        ((Queues.mapDest s x).trans ((Queues.releaseFor ..).trans (.fold x _ (fun _ _ => .spadIssue _ x _ _ rfl) _ _)))
      have prepared : Prepared s ((s.mapDest x).releaseFor x).2 ((s.mapDest x).releaseFor x).1 x := .release maps.under maps.accs maps.blk
      obtain ⟨now, run, first⟩ := prepared.atoms none
      have loads : (((s.atomsIssues x none ((s.mapDest x).releaseFor x)).group x.gid).loads) = (s.group x.gid).loads := by
        refine (run.loads.trans (Block.performAll_loads_of_none _ (fun _ => rfl) ..)).trans ?_
        rw [State.bank, State.releaseFor_group]
        exact maps.loads
      exact ⟨_, now, next, kept, (State.advance_group_loads ..).trans loads, fun k hk => (State.advance_block ..).trans (run.others prepared k hk), run.order,
        (State.advance_block ..).trans (run.block prepared), fun g hg => run.waits (State.advance_spads ..) hg rfl,
        fun g hg ⟨own, alone, quiet⟩ => first g hg alone (.of_lanes (x.atomsMsg_lanes ..) own quiet)⟩
  case returns =>
    intro msg
    obtain ⟨next, kept⟩ := ready.kept (by rw [ready.ins_eq rfl]; rfl) (atomsEff_returns room.2 aligned inside returns room.1 some_)
      (((Queues.mapDest s x).trans (.newLoad ..)).trans ((Queues.releaseFor ..).trans (.fold x _ (fun _ _ => .spadIssue _ x _ _ rfl) _ _)))
    have prepared := s.spadLoad_prepared x (wdOf wa)
    obtain ⟨now, run, first⟩ := prepared.atoms (some s.nextId)
    obtain ⟨l, last, same, received⟩ := run.atoms_received rfl (s.spadLoad_load x (wdOf wa))
    have seq : l.seq = s.nextId := same.seq
    refine ⟨_, l, now, next, kept, last.loads (by rw [same.form]; rfl) (by rw [same.form]; rfl), same.n, by rw [same.form]; rfl,
      fun k hk => (State.advance_block ..).trans (run.others prepared k hk), run.order, (State.advance_block ..).trans ?_, fun g hg => ?_,
      fun g hg ⟨own, alone, quiet⟩ => first g hg alone (.of_lanes (x.atomsMsg_lanes ..) own quiet)⟩
    · rw [seq]
      exact run.block prepared
    · rw [seq]
      exact (run.waits (State.advance_spads ..) hg rfl).imp_left fun hn => ⟨hn, received g hn⟩

end Sys2Proof.Machine
end

section
/-! WAIT and the lines of an L1 that it drops (R174, R268). -/

namespace Sys2Proof

theorem Tbl.getD_eq {α : Type} (t : Tbl α) (k : Nat) (d : α) : t.getD k d = (t.get? k).getD d := by
  induction t with
  | nil => rfl
  | cons p r ih =>
    obtain ⟨i, a⟩ := p
    by_cases here : i = k <;> simp [Tbl.getD, Tbl.get?, here, ih]

theorem Tbl.getD_erase {α : Type} (t : Tbl α) (k j : Nat) (d : α) : (t.erase k).getD j d = if j = k then d else t.getD j d := by
  rw [Tbl.getD_eq, Tbl.get?_erase, Tbl.getD_eq]
  split <;> rfl

theorem Tbl.getD_of_key_absent {α : Type} {t : Tbl α} {k : Nat} (h : k ∉ t.map Prod.fst) (d : α) : t.getD k d = d := by
  induction t with
  | nil => rfl
  | cons p r ih =>
    obtain ⟨i, a⟩ := p
    rw [List.map_cons, List.mem_cons, not_or] at h
    rw [Tbl.getD, if_neg (Ne.symm h.1), ih h.2]

namespace Machine

/-- A line as an L1 holds it: one with no valid byte and no fill under way is not held. -/
def L1Line.held (x : L1Line) : L1Line := if x.valid = 0 ∧ x.fill = [] then {} else x

/-- A line that replaces another of an L1 is read as that L1 holds it. -/
theorem State.setL1_l1Line (s : State) (l1 line j : Nat) (x : L1Line) :
    (s.setL1 l1 line x).l1Line l1 j = if j = line then x.held else s.l1Line l1 j := by
  unfold State.l1Line State.setL1 L1Line.held
  rw [State.modCore_self]
  dsimp only
  split
  · exact Tbl.getD_erase ..
  · exact Tbl.getD_set ..

theorem L1Line.cleaned_of_frozen {x : L1Line} (h : x.frozen = true) : x.cleaned = x := if_pos h

theorem L1Line.cleaned_of_noneDirty {x : L1Line} (h : x.frozen = false) (none : x.valid &&& x.dirty = 0) : x.cleaned = {} := by
  rw [L1Line.cleaned, if_neg (by simp [h]), if_pos none]

theorem L1Line.cleaned_of_someDirty {x : L1Line} (h : x.frozen = false) (some_ : x.valid &&& x.dirty ≠ 0) :
    x.cleaned = { x with valid := x.valid &&& x.dirty, fill := [] } := by
  rw [L1Line.cleaned, if_neg (by simp [h]), if_neg some_]

/-- A second acquire finds nothing more to drop. -/
theorem L1Line.cleaned_cleaned (x : L1Line) : x.cleaned.cleaned = x.cleaned := by
  cases h : x.frozen with
  | true => rw [cleaned_of_frozen h, cleaned_of_frozen h]
  | false =>
    by_cases some_ : x.valid &&& x.dirty = 0
    · rw [cleaned_of_noneDirty h some_]
      rfl
    · have same : x.valid &&& x.dirty &&& x.dirty = x.valid &&& x.dirty := by rw [BitVec.and_assoc, BitVec.and_self]
      rw [cleaned_of_someDirty h some_, cleaned_of_someDirty (x := { x with valid := x.valid &&& x.dirty, fill := [] }) h (by rwa [same])]
      simp only [same]

/-- Cleaning a line that is not held leaves none that is. -/
theorem L1Line.held_cleaned_held (x : L1Line) : x.held.cleaned.held = x.cleaned.held := by
  by_cases empty : x.valid = 0 ∧ x.fill = []
  · have gone : x.held = {} := if_pos empty
    cases h : x.frozen with
    | true => rw [cleaned_of_frozen h, gone]; rfl
    | false => rw [cleaned_of_noneDirty h (by simp [empty.1]), gone]; rfl
  · rw [show x.held = x from if_neg empty]

/-- Some lines of an L1 cleaned one after the other. -/
theorem State.foldl_cleaned_l1Line (l1 j : Nat) (ls : List Nat) (s : State) :
    (ls.foldl (fun t line => t.setL1 l1 line (t.l1Line l1 line).cleaned) s).l1Line l1 j =
      if j ∈ ls then (s.l1Line l1 j).cleaned.held else s.l1Line l1 j := by
  induction ls generalizing s with
  | nil => simp
  | cons line ls ih =>
    rw [List.foldl_cons, ih, State.setL1_l1Line]
    by_cases first : j = line
    · subst first
      simp [L1Line.held_cleaned_held, L1Line.cleaned_cleaned]
    · simp [first]

/-- What an acquire of wide scope leaves of a line: what is left of it once cleaned, where the L1 holds that (R268). -/
theorem State.invalidate_l1Line (s : State) (l1 line : Nat) : (s.invalidate l1).l1Line l1 line = (s.l1Line l1 line).cleaned.held := by
  rw [State.invalidate, State.foldl_cleaned_l1Line]
  split
  next => rfl
  next absent =>
    rw [State.l1Line, Tbl.getD_of_key_absent absent]
    rfl

/-- Going on changes no line of an L1. -/
theorem State.advance_l1Line {s : State} {x : Iss} (core : (s.group x.gid).core = x.core) (part : (s.group x.gid).part = x.part) (l1 line : Nat) :
    (s.advance x).l1Line l1 line = s.l1Line l1 line := by
  have here := ((Writes.refl' s x).advance core part).here
  unfold State.l1Line
  by_cases own : l1 = x.core
  · rw [own, here.core]
  · rw [here.cores l1 own]

/-- What an acquire leaves of a line of its L1, where its scope is wide (R268). -/
theorem State.acquire_l1Line (s : State) (core sco line : Nat) : (s.acquire core sco 1).l1Line (s.l1Of core) line =
    if s.wide core sco = false then s.l1Line (s.l1Of core) line else (s.l1Line (s.l1Of core) line).cleaned.held := by
  unfold State.acquire
  cases s.wide core sco
  · rfl
  · exact s.invalidate_l1Line ..

@[simp] theorem State.acquire_group (s : State) (core sco sem g : Nat) : (s.acquire core sco sem).group g = s.group g := by
  rw [State.acquire_rest]
  rfl

/-- The scope of the acquire that a WAIT is: the block's for class TL, none for class MX, and else a wide one (R174, R282, log 74). -/
def State.waitScope (s : State) (x : Iss) : Nat :=
  if x.ins.m12 / 512 = 1 then (s.blockOf x).span + 1 else if x.ins.m12 / 512 = 2 then 0 else 3

/-- What a WAIT does not drop, for class MX and for class TL below a wide span. -/
theorem State.wide_waitScope (s : State) (x : Iss) : s.wide x.core (s.waitScope x) = false ↔
    x.ins.m12 / 512 = 2 ∨ (x.ins.m12 / 512 = 1 ∧ s.wide x.core ((s.blockOf x).span + 1) = false) := by
  unfold State.waitScope
  split_ifs with tl mx
  · simp [tl]
  · simp [mx, State.wide]
  · simp [tl, mx, State.wide]

/-- A WAIT whose counter is low enough and that has nothing to report is an acquire (R174). -/
theorem waitEff_eq {s : State} {x : Iss} (low : (s.group x.gid).counter (x.ins.m12 / 512) ≤ x.ins.m12 % 64)
    (quiet : (s.group x.gid).toReport (x.ins.m12 / 512) (x.ins.m12 % 64) = none) :
    waitEff x s = .done (s.acquire x.core (s.waitScope x) 1) := by
  have narrow : s.acquire x.core 0 1 = s := rfl
  have wide : s.invalidate (s.l1Of x.core) = s.acquire x.core 3 1 := rfl
  unfold waitEff State.waitScope
  rw [if_neg (by simp [State.waitReady, low]), wide]
  revert quiet
  dsimp only
  match x.ins.m12 / 512 with
  | 0 | 1 | _ + 3 => intro quiet; simp [quiet]
  | 2 => intro quiet; simp [quiet, narrow]

/-- WAIT completes when its counter is low enough and no older failure is left to report; the lines it drops are then as the L1 holds them. -/
theorem Ready.wait {i : Instr} {s : State} {x : Iss} (ready : Ready s i x) (op : x.ins.op = 0xC0)
    (low : (s.group x.gid).counter (x.ins.m12 / 512) ≤ x.ins.m12 % 64)
    (quiet : (s.group x.gid).toReport (x.ins.m12 / 512) (x.ins.m12 % 64) = none) :
    ∃ t, exec i s = .next t ∧ Kept s t x ∧ t.accs = s.accs ∧ ∀ line, t.l1Line (s.l1Of x.core) line =
      if x.ins.m12 / 512 = 2 ∨ (x.ins.m12 / 512 = 1 ∧ s.wide x.core ((s.blockOf x).span + 1) = false) then s.l1Line (s.l1Of x.core) line
      else (s.l1Line (s.l1Of x.core) line).cleaned.held := by
  obtain ⟨next, kept⟩ := ready.kept (by rw [op]; rfl) (waitEff_eq low quiet) (.acquire ..)
  refine ⟨_, next, kept, ?_, fun line => ?_⟩
  · rw [State.advance_accs, State.acquire_rest]
  · rw [State.advance_l1Line (by rw [State.acquire_group]; exact ready.place.1) (by rw [State.acquire_group]; exact ready.place.2),
      State.acquire_l1Line]
    simp only [State.wide_waitScope]

/-- The one group runs, and its core's L1 lists line 0 as a frozen copy of no byte. -/
def frozenNothing : State :=
  let s := State.reset.withFetchWord 16 0
  { s with cores := [(0, { s.core 0 with l1 := [(0, { frozen := true })] })] }

/-- WAIT of class BC with N = 0. -/
def waitAll : W64F := { m12 := 0, c := 0, b := 0, a := 0, d := 0, gn := 0, g := 7, st := 0, e := 0 }

/-- The issue of that WAIT in slot 0 of the group. -/
def waitIssue : Iss := frozenNothing.issAt 0 0 (insW64 0xC0 waitAll)

theorem wait_ready : Ready frozenNothing (.wait waitAll) waitIssue where
  word := rfl
  issuer := by decide +kernel
  settled := by decide +kernel
  checks := by decide +kernel
  sound := by decide +kernel

theorem wait_line : frozenNothing.l1Line (frozenNothing.l1Of waitIssue.core) 0 = { frozen := true } := by decide +kernel

/-- Refutes O24: a WAIT cleans a line that its L1 lists as a frozen copy of no byte, and the L1 does not hold it then. No `State.setL1` lists such
a line, but the statement speaks of every state, and asks that the line stand as cleaning alone leaves it, which keeps a frozen copy (R268). -/
theorem not_waitsCompleteWhenDue : ¬ Obligations.WaitsCompleteWhenDue := by
  intro h
  have low : (frozenNothing.group waitIssue.gid).counter (waitIssue.ins.m12 / 512) ≤ waitIssue.ins.m12 % 64 := by decide +kernel
  have none : (frozenNothing.group waitIssue.gid).toReport (waitIssue.ins.m12 / 512) (waitIssue.ins.m12 % 64) = none := by decide +kernel
  obtain ⟨wait, -, -⟩ := h _ frozenNothing waitIssue waitAll wait_ready
  obtain ⟨t, next, -, -, stands⟩ := wait rfl low none
  obtain ⟨t', next', -, -, gone⟩ := wait_ready.wait rfl low none
  obtain rfl := Host.Outcome.next.inj (next.symm.trans next')
  have same := (stands 0).symm.trans (gone 0)
  rw [if_neg (by decide), if_neg (by decide), wait_line] at same
  cases congrArg L1Line.frozen same

end Machine
end Sys2Proof
end

section
/-! PLVL, REGCLM and REGREL (R170, R187). -/

namespace Sys2Proof.Machine

/-- A split that goes on from a state with its lanes, slots and run goes on from them. -/
theorem Passes.of_same {s u t : State} {x : Iss} (h : Passes u t x) (lanes : (u.group x.gid).lanes = (s.group x.gid).lanes)
    (slots : (u.group x.gid).slots = (s.group x.gid).slots) (run : (u.part x.core x.part).run = (s.part x.core x.part).run) : Passes s t x where
  lanes l hl := by
    have same : (u.group x.gid).lane l = (s.group x.gid).lane l := congrArg (·.getD l {}) lanes
    rw [h.lanes l hl, same]
  slot := by
    have same : (u.group x.gid).slot x.slot = (s.group x.gid).slot x.slot := congrArg (·.getD x.slot {}) slots
    rw [h.slot, same]
  slots k hk := (h.slots k hk).trans (congrArg (·.getD k {}) slots)
  run := by rw [h.run, run]

/-- What REGREL does before the split goes on: cap of the group returns to the pool of its block (R187). -/
def State.giveBack (s : State) (gid n : Nat) : State :=
  (s.modGroup gid fun g => { g with cap := g.cap - n }).modBlock (s.group gid).blk fun b => { b with pool := b.pool + n }

theorem State.giveBack_group (s : State) (gid n : Nat) :
    (s.giveBack gid n).group gid = { s.group gid with cap := (s.group gid).cap - n } := by
  rw [State.giveBack, State.modBlock_group, State.modGroup_self]

theorem State.giveBack_regs (s : State) (x : Iss) (n c l : Nat) :
    ((s.giveBack x.gid n).regs x).x c l = (s.regs x).x c l ∧ ((s.giveBack x.gid n).regs x).pred c l = (s.regs x).pred c l := by
  constructor
  · apply Regs.x_congr <;> simp only [State.regs_g, State.giveBack_group, State.regs_handler, implies_true]
    exact fun _ => rfl
  · apply Regs.pred_congr <;> simp only [State.regs_g, State.giveBack_group, State.regs_handler, implies_true]
    exact fun _ => rfl

theorem State.giveBack_block (s : State) (gid n k : Nat) : (s.giveBack gid n).block k =
    if k = (s.group gid).blk then { s.block k with pool := (s.block k).pool + n } else s.block k := by
  split
  next own => rw [own, State.giveBack, State.modBlock_self, State.modGroup_block]
  next other => rw [State.giveBack, State.modBlock_ne _ other, State.modGroup_block]

/-- REGREL gives back what its group's registers leave of its cap. -/
theorem regrelEff_eq {s : State} {x : Iss} (here : (s.block (s.group x.gid).blk).isLocal = true)
    (room : (s.group x.gid).footprint + x.ins.m12 ≤ (s.group x.gid).cap) : regrelEff x s = .done (s.giveBack x.gid x.ins.m12) := by
  rw [regrelEff, if_neg (by simp [State.blockOf, here, room])]
  rfl

/-- Settles O25: PLVL and a served REGCLM do at once what they are for, and REGREL gives back before its split goes on. -/
theorem levelsAndCapsChange : Obligations.LevelsAndCapsChange := by
  intro f s x g v
  refine ⟨fun ready => ?plvl, fun ready served => ?regclm, fun ready here room => ?regrel⟩
  case plvl =>
    rw [ready.exec_eq (eff := plvlEff) (by rw [ready.ins_eq rfl]; rfl)]
    rfl
  case regclm =>
    have done : regclmEff x s = .done s := by rw [regclmEff, served]
    obtain ⟨next, kept⟩ := ready.kept (by rw [ready.ins_eq rfl]; rfl) done (.refl s x)
    exact ⟨_, next, kept⟩
  case regrel =>
    have group := s.giveBack_group x.gid x.ins.m12
    have next := ready.exec_eq (eff := regrelEff) (by rw [ready.ins_eq rfl]; rfl)
    rw [regrelEff_eq here room, Eff.settle] at next
    have kept := (Queues.refl (s.giveBack x.gid x.ins.m12) x).advance (by rw [group]; exact ready.place.1) (by rw [group]; exact ready.place.2)
    have block (k : Nat) := (State.advance_block (s.giveBack x.gid x.ins.m12) x k).trans (s.giveBack_block x.gid x.ins.m12 k)
    refine ⟨_, next, kept.passes.of_same (by rw [group]) (by rw [group]) rfl, kept.mem, ?_, ?_, fun k other => ?_, fun c l hl => ?_, fun c l hl => ?_⟩
    · rw [State.advance_group_cap, group]
    · rw [block, if_pos rfl]
    · rw [block, if_neg other]
    · exact (kept.regs c l hl).trans (s.giveBack_regs x _ c l).1
    · exact (kept.preds c l hl).trans (s.giveBack_regs x _ c l).2

end Sys2Proof.Machine
end

section
/-! BCPY and BFILL (R160, R173, R176, R304 to R308). -/

namespace Sys2Proof.Machine

/-! An operation that is counted, and a load that is answered at once. -/

/-- What a release begins changes accesses under way alone (R268). -/
theorem State.startRelease_rest (s : State) (gid core : Nat) (lanes : Mask) (sco : Nat) : (s.startRelease gid core lanes sco).2 =
    { s with accs := (s.startRelease gid core lanes sco).2.accs, nextId := (s.startRelease gid core lanes sco).2.nextId } := by
  unfold State.startRelease
  dsimp only
  split <;> rfl

/-- One operation more of a class is counted, whatever else is recorded of it (R173). -/
theorem State.countOp_counts (s : State) (gid cls : Nat) {mk : EngOp → EngOp} (same : ∀ e, (mk e).cls = e.cls ∧ (mk e).done = e.done) :
    ((s.countOp gid cls mk).2.group gid).counter cls = (s.group gid).counter cls + 1 ∧
      ((s.countOp gid cls mk).2.group gid).issuedOf cls = (s.group gid).issuedOf cls + 1 := by
  rw [State.countOp, State.modGroup_self]
  constructor
  · simp [Group.counter, List.filter_append, same]
  · exact Tbl.getD_set_self ..

/-- A load once words have returned for the load of a name (R160). -/
def PLoad.answered (seq : Nat) (ws : List (Nat × List Word)) (l : PLoad) : PLoad :=
  if l.seq = seq then { l with got := 1, vals := ws.filter fun w => w.1 != 288 } else l

theorem PLoad.answered_of_ne {seq : Nat} {l : PLoad} (h : l.seq ≠ seq) (ws : List (Nat × List Word)) : l.answered seq ws = l := if_neg h

theorem State.returnWords_group (s : State) (gid seq : Nat) (ws : List (Nat × List Word)) : (s.returnWords gid seq ws).group gid =
    { s.group gid with loads := (s.group gid).loads.map (PLoad.answered seq ws) } := by
  by_cases none : (s.groups.get? gid).isNone
  · have absent : s.group gid = {} := Tbl.getD_of_absent (Option.isNone_iff_eq_none.1 none) {}
    rw [State.returnWords, if_pos none, absent]
    rfl
  · rw [State.returnWords, if_neg none, State.modGroup_self]
    rfl

theorem State.returnWords_rest (s : State) (gid seq : Nat) (ws : List (Nat × List Word)) :
    s.returnWords gid seq ws = { s with groups := (s.returnWords gid seq ws).groups } := by
  unfold State.returnWords
  split <;> rfl

/-- The load that stands last when words return for it is the one the instruction has entered. -/
theorem Loads.answered {s u : State} {x : Iss} {l : PLoad} (last : (u.group x.gid).loads = (s.group x.gid).loads ++ [l])
    (set : l.handler = x.handler) (dst : l.dst = x.ins.d) (ws : List (Nat × List Word)) :
    Loads s ((u.returnWords x.gid l.seq ws).advance x) x { l with got := 1, vals := ws.filter fun w => w.1 != 288 } := by
  have own : l.answered l.seq ws = { l with got := 1, vals := ws.filter fun w => w.1 != 288 } := if_pos rfl
  refine ⟨⟨(s.group x.gid).loads.map (PLoad.answered l.seq ws), ?_, fun fresh => ?_⟩, set, dst⟩
  · rw [State.advance_group_loads, State.returnWords_group, last, List.map_append, ← own]
    rfl
  · rw [List.map_congr_left fun o ho => PLoad.answered_of_ne (fresh o ho) ws, List.map_id']

/-! The operation that is queued. -/

section
variable (s : State) (x : Iss) (o : TongsOp)

/-- The key of the queue that an issue enters (R303). -/
def State.tongsKeyOf : Nat := tongsKey (engineOf x.core) (s.group x.gid).ctx

/-- The promise of an operation: TIME plus its estimate (R176, R310). -/
def State.promise : Nat := (s.core x.core).time + s.estimate (dieOf x.core) (engineOf x.core) (s.group x.gid).ctx o

/-- The release that an operation makes (R308). -/
def State.tongsRelease : List Nat × State :=
  s.startRelease x.gid x.core x.active (if (o.fill || o.ssp) && o.dsp then (s.block (s.group x.gid).blk).span + 1 else 4)

/-- What is recorded of an operation beyond its number: its promise and its engine (R176, R303). -/
def State.promised (e : EngOp) : EngOp := { e with promise := some (s.promise x o), engine := dieOf x.core * 16 + engineOf x.core }

/-- The operation counted (R173). -/
def State.tongsCounted : State := ((s.tongsRelease x o).2.countOp x.gid 0 (s.promised x o)).2

/-- The operation queued at the engine of its core behind its release (R304, R308). -/
def State.queueTongs : State :=
  (s.tongsCounted x o).newId.2.modDie (dieOf x.core) fun d =>
    let q := d.tongs.getD (s.tongsKeyOf x) {}
    { d with tongs := d.tongs.set (s.tongsKeyOf x) { q with ops := q.ops ++ [{ o with
        id := (s.tongsCounted x o).nextId, n := ((s.tongsRelease x o).2.group x.gid).issuedOf 0, deps := (s.tongsRelease x o).1 }] } }

theorem State.tongsRelease_group (g : Nat) : (s.tongsRelease x o).2.group g = s.group g := by
  rw [State.tongsRelease, State.startRelease_rest]
  rfl

theorem State.tongsCounted_die (d : Nat) : (s.tongsCounted x o).die d = s.die d := by
  show (s.tongsRelease x o).2.die d = s.die d
  rw [State.tongsRelease, State.startRelease_rest]
  rfl

theorem State.queueTongs_queues : Queues s (s.queueTongs x o) x :=
  (((Queues.startRelease ..).trans (.countOp ..)).trans (.newId ..)).trans (.modDie _ x _ _)

/-- What has counted the operation and no other is what has its group's counts (R173). -/
theorem State.queueTongs_counts {t : State} (ops : (t.group x.gid).ops = ((s.queueTongs x o).group x.gid).ops)
    (issued : (t.group x.gid).issued = ((s.queueTongs x o).group x.gid).issued) : Counts s t x 0 := by
  have counts := (s.tongsRelease x o).2.countOp_counts x.gid 0 (mk := s.promised x o) fun _ => ⟨rfl, rfl⟩
  rw [State.tongsRelease_group] at counts
  unfold Counts Group.counter Group.issuedOf
  rw [ops, issued]
  exact counts

theorem State.queueTongs_loads : ((s.queueTongs x o).group x.gid).loads = (s.group x.gid).loads := by
  show ((s.tongsCounted x o).group x.gid).loads = _
  rw [← s.tongsRelease_group x o, State.tongsCounted, State.countOp, State.modGroup_self]

/-- A state with the engines of the one that has queued the operation has it last in its queue (R304). -/
theorem State.queueTongs_ops {t : State} (die : t.die (dieOf x.core) = (s.queueTongs x o).die (dieOf x.core)) :
    ∃ id deps, ((t.die (dieOf x.core)).tongs.getD (s.tongsKeyOf x) {}).ops = ((s.die (dieOf x.core)).tongs.getD (s.tongsKeyOf x) {}).ops ++
      [{ o with id := id, n := (s.group x.gid).issuedOf 0, deps := deps }] := by
  refine ⟨(s.tongsCounted x o).nextId, (s.tongsRelease x o).1, ?_⟩
  rw [die, State.queueTongs, State.modDie_self, ← s.tongsCounted_die x o, ← s.tongsRelease_group x o]
  dsimp only
  rw [Tbl.getD_set_self]
  rfl

end

/-- What issues once its descriptor passes and there is room: the operation is queued, and a promise that is asked for returns as a load's
words do (R160, R304). -/
theorem tongsEff_eq {s : State} {x : Iss} {fill : Bool} (passes : s.tongsCheck x (s.descriptor x fill) = none)
    (counter : s.counterFull x.gid 0 = false) (room : ((s.die (dieOf x.core)).tongs.getD (s.tongsKeyOf x) {}).ops.length < 128)
    (few : x.ins.d ≠ 288 → s.loadCount x < 32) :
    let queued := s.queueTongs x (s.descriptor x fill)
    let loaded := queued.newUniLoad x x.ins.d 1 0 4
    tongsEff fill x s = .done (if x.ins.d = 288 then queued else
      loaded.2.returnWords x.gid loaded.1 [(x.ins.d, [BitVec.ofNat 32 (s.promise x (s.descriptor x fill))])]) := by
  have issues : tongsEff fill x s = tongsIssue fill x s := by
    unfold tongsEff
    split_ifs with silent
    · rfl
    · exact withLoadRoom_of_lt (few silent) _
  rw [issues, tongsIssue]
  generalize s.descriptor x fill = o at passes ⊢
  dsimp only
  rw [passes]
  dsimp only
  rw [if_neg (by rw [counter, Bool.false_or, decide_eq_true_eq, not_le]; exact room)]
  by_cases silent : x.ins.d = 288
  · rw [if_pos silent, if_pos silent]
    rfl
  · rw [if_neg silent, if_neg silent]
    rfl

/-- Settles O39: the operation is counted and queued behind its release, and its promise answers the load entered for it. -/
theorem copiesAndFillsAreQueued : Obligations.CopiesAndFillsAreQueued := by
  intro i s x fill ready op o die key promise passes counter room few
  have effect := tongsEff_eq passes counter room few
  have known : effectOf x.ins.op = some (tongsEff fill) := by rw [op]; cases fill <;> rfl
  have queues := s.queueTongs_queues x o
  dsimp only at effect
  by_cases silent : x.ins.d = 288
  · rw [if_pos silent] at effect
    obtain ⟨next, kept⟩ := ready.kept known effect queues
    exact ⟨_, next, kept, s.queueTongs_counts x o (State.advance_group_ops ..) (State.advance_group_issued ..),
      s.queueTongs_ops x o (State.advance_die ..), fun asks => absurd silent asks⟩
  · rw [if_neg silent] at effect
    obtain ⟨next, kept⟩ := ready.kept known effect ((queues.trans (.newUniLoad ..)).trans (.returnWords ..))
    let l := x.uniLoad (s.queueTongs x o).nextId x.ins.d 1 0 4
    have entered : (((s.queueTongs x o).newUniLoad x x.ins.d 1 0 4).2).group x.gid =
        { (s.queueTongs x o).group x.gid with loads := (s.group x.gid).loads ++ [l] } := by
      rw [State.newUniLoad_eq, State.modGroup_self, ← s.queueTongs_loads x o]
      rfl
    refine ⟨_, next, kept, s.queueTongs_counts x o ?_ ?_, s.queueTongs_ops x o ?_, fun _ => ⟨_, .answered (l := l) ?_ rfl rfl _, rfl, rfl, ?_⟩⟩
    · rw [State.advance_group_ops, State.returnWords_group, entered]
    · rw [State.advance_group_issued, State.returnWords_group, entered]
    · rw [State.advance_die, State.returnWords_rest]
      rfl
    · rw [entered]
    · exact List.filter_eq_self.2 (by simpa using silent)

end Sys2Proof.Machine
end

section
/-! The values that reset leaves in the registers (R163, R298, R333, R344, R346, R355, R365, R383, R389, R405). -/

namespace Sys2Proof.Machine

/-! Reset lists no core, quad, launch queue or context: each is as it is first made. -/

theorem State.reset_core (c : Nat) : State.reset.core c = {} := rfl
theorem State.reset_quad (q : Nat) : State.reset.quad q = {} := rfl
theorem State.reset_lq (q : Nat) : State.reset.lq q = {} := rfl
theorem State.reset_ctx (c : Nat) : State.reset.ctx c = {} := rfl

theorem State.reset_region (c r : Nat) : State.reset.region c r = {} := by
  rw [State.region, State.reset_ctx, List.getD_eq_getElem?_getD]
  exact List.getElem?_getD_replicate_default_eq _ 16 r

theorem State.reset_port (k : Nat) : State.reset.ports.getD k {} = {} := by
  rw [List.getD_eq_getElem?_getD]
  exact List.getElem?_getD_replicate_default_eq _ 16 k

/-- Settles O59: what reset lists nowhere is as it is first made, and each single register has its own value. -/
theorem resetLeavesTheStatedValues : Obligations.ResetLeavesTheStatedValues := by
  refine ⟨fun c => ?issue, fun q => ?gating, fun q => ?queue, fun c => ?context, fun c r => ?region, ?power, ?handover,
    ?package, ?fabric, ?enabled, ?range, ?busy, ?done, fun p => ?route, fun k _ => ?port⟩
  case issue => rw [State.reset_core]
  case gating => rw [State.reset_quad]
  case queue => simp [State.reset_lq]
  case context => simp [State.reset_ctx]
  case region => exact State.reset_region c r
  case power => exact ⟨rfl, rfl, rfl, rfl, rfl, rfl, rfl, rfl, rfl, rfl, rfl, rfl⟩
  case handover => exact ⟨rfl, rfl, rfl, rfl, rfl⟩
  case port => rw [State.reset_port]
  all_goals rfl

end Sys2Proof.Machine
end

section
/-! The uniform operations, VFREE, MTSR and TLBINV (R180, R182, R190, R191, R194, R197, R296). -/

namespace Sys2Proof.Machine

/-! Uniform operations. -/

/-- An operation with a uniform rule issues as the uniform operation of that rule. -/
theorem effectOf_of_uniformRule {op : Nat} {f : Args → Nat × Flags} (rule : uniformRule op = some f) : effectOf op = some (uniVal f) := by
  unfold uniformRule at rule
  split at rule <;> cases rule <;> rfl

/-- Settles O2: an operation with a uniform rule is the uniform operation of that rule, in every format. -/
theorem uniformOperationsWriteTheirResults : Obligations.UniformOperationsWriteTheirResults := by
  intro i s x f ready rule
  rw [ready.exec_eq_issue (effectOf_of_uniformRule rule) rfl]
  exact uniVal_result f ready.issuer ready.settled ready.checks ready.sound

/-! An operation that changes its group in a way of its own and goes on. -/

/-- A split that goes on after a change of its group that leaves lanes and slots. -/
structure GoesOn (s t : State) (x : Iss) (g : Group) : Prop where
  here : Local s t x
  passes : Passes s t x
  group : t.group x.gid = { g with lanes := (t.group x.gid).lanes, slots := (t.group x.gid).slots }
  bank : (t.part x.core x.part).bank = (s.part x.core x.part).bank
  parts : ∀ c p, t.part c p = { s.part c p with run := (t.part c p).run }

/-- A ready operation whose effect is such a change completes with it. -/
theorem Ready.changesGroup {s : State} {i : Instr} {x : Iss} (h : Ready s i x) {eff : Iss → State → Eff} {f : Group → Group}
    (ho : effectOf x.ins.op = some eff) (he : eff x s = .done (s.modGroup x.gid f))
    (lanes : (f (s.group x.gid)).lanes = (s.group x.gid).lanes) (slots : (f (s.group x.gid)).slots = (s.group x.gid).slots)
    (core : (f (s.group x.gid)).core = (s.group x.gid).core) (part : (f (s.group x.gid)).part = (s.group x.gid).part) :
    ∃ t, exec i s = .next t ∧ GoesOn s t x (f (s.group x.gid)) := by
  have next := h.exec_eq ho
  rw [he, Eff.settle] at next
  have self := s.modGroup_self x.gid f
  have placed : ((s.modGroup x.gid f).group x.gid).core = x.core ∧ ((s.modGroup x.gid f).group x.gid).part = x.part := by
    rw [self, core, part]
    exact h.place
  obtain ⟨here, -, passes, -⟩ := (Writes.refl' (s.modGroup x.gid f) x).advance placed.1 placed.2
  have kept := (Queues.refl (s.modGroup x.gid f) x).advance placed.1 placed.2
  refine ⟨_, next, ?_, ?_, ?_, ?_, kept.parts⟩
  · exact ⟨here.rest, fun g hg => (here.others g hg).trans (s.modGroup_ne hg f), here.cores, here.core, here.parts, here.part⟩
  · exact passes.of_same (by rw [self, lanes]) (by rw [self, slots]) rfl
  · rw [State.advance_group, self]
  · rw [kept.parts]
    rfl

/-! VFREE. -/

/-- A name is freed once it is live in no lane of the group and no load is pending on it (R180 step 3, R181). -/
theorem Group.freeName_name?_self (g : Group) (n : Nat) : (g.freeName n).name? n = (g.name? n).bind fun e =>
    if e.live &&& g.liveLanes = 0 ∧ g.loadPending n = false then none else some e := by
  unfold Group.freeName
  cases here : g.name? n with
  | none => exact here
  | some e =>
    rw [Option.bind_some]
    by_cases free : e.live &&& g.liveLanes = 0 ∧ g.loadPending n = false
    · simp [free, Group.name?, Tbl.get?_erase]
    · dsimp only
      rw [if_neg free, if_neg (by simpa using free), here]

/-- The name that lanes leave keeps its LIVE bits of the others, or is freed. -/
theorem Group.unlive_name?_self (g : Group) (n : Nat) (m : Mask) : (g.unlive n m).name? n = (g.name? n).bind fun e =>
    if e.live &&& ~~~m &&& g.liveLanes = 0 ∧ g.loadPending n = false then none else some { e with live := e.live &&& ~~~m } := by
  unfold Group.unlive
  cases here : g.name? n with
  | none => exact here
  | some e =>
    dsimp only
    rw [Group.freeName_name?_self, show Group.name? { g with names := g.names.set n { e with live := e.live &&& ~~~m } } n = _ from
      Tbl.get?_set_self ..]
    rfl

/-- An operand depends on the name it gives, the uniform registers and the bank only. -/
theorem Regs.x_congr_name {r t : Regs} {c : Nat} (handler : r.handler = t.handler) (name : r.g.name? c = t.g.name? c) (uniform : r.g.g = t.g.g)
    (bank : r.b = t.b) (l : Nat) : r.x c l = t.x c l := by
  rw [Regs.x, Regs.v, Regs.u, handler, name, uniform, bank, Regs.x, Regs.v, Regs.u]

/-- Settles O7: clearing LIVE bits touches one name alone, and no other register. -/
theorem vfreeFreesItsName : Obligations.VfreeFreesItsName := by
  intro i s x ready op
  obtain ⟨unlive, others⟩ := (s.group x.gid).unlive_spec x.ins.a x.exec
  obtain ⟨t, next, here, passes, group, bank, -⟩ := ready.changesGroup (eff := vfreeEff) (f := fun g => g.unlive x.ins.a x.exec)
    (by rw [op]; rfl) rfl (by rw [unlive]) (by rw [unlive]) (by rw [unlive]) (by rw [unlive])
  have names : (t.group x.gid).names = ((s.group x.gid).unlive x.ins.a x.exec).names := by rw [group]
  have rest : t.group x.gid = { s.group x.gid with
      lanes := (t.group x.gid).lanes, slots := (t.group x.gid).slots, names := (t.group x.gid).names } := by rw [group, unlive]
  refine ⟨t, next, here, ?_, passes, fun c l other => ?_, fun c l => ?_, by rw [rest], ?_⟩
  · unfold RegsOnly
    rw [rest]
  · have name : (t.group x.gid).name? c = (s.group x.gid).name? c := by rw [Group.name?, names, others c other, Group.name?]
    have uniform : (t.group x.gid).g = (s.group x.gid).g := by rw [rest]
    exact Regs.x_congr_name (r := t.regs x) (t := s.regs x) rfl name uniform bank l
  · have lane : (t.group x.gid).p = (s.group x.gid).p := by rw [rest]
    have uniform : (t.group x.gid).q = (s.group x.gid).q := by rw [rest]
    exact Regs.pred_congr (r := t.regs x) (t := s.regs x) rfl (fun _ => lane) (fun _ => uniform) (fun _ => bank) c l
  · rw [← Group.unlive_name?_self, Group.name?, names]
    rfl

/-! The system registers (R194, R197). -/

/-- What MTSR makes of the system registers: the bits of a word that may be written (R194). -/
theorem mtsrEff_eq (x : Iss) (s : State) : mtsrEff x s = .done (s.modGroup x.gid fun g => { g with sys :=
    if x.ins.d = 0 then { g.sys with tvec := putWord g.sys.tvec x.ins.opx ((s.regs x).x x.ins.a 0) 0xFFFFFFFFFFFFFE }
    else if x.ins.d = 1 then { g.sys with tpc := putWord g.sys.tpc x.ins.opx ((s.regs x).x x.ins.a 0) 0xFFFFFFFFFFFFFE }
    else if x.ins.d = 4 then { g.sys with tlanes := (s.regs x).x x.ins.a 0 }
    else if x.ins.d = 6 then { g.sys with tstat := putWord g.sys.tstat x.ins.opx ((s.regs x).x x.ins.a 0) 0x80000000 } else g.sys }) := by
  refine congrArg Eff.done (congrArg (s.modGroup x.gid) (funext fun g => ?_))
  split <;> simp_all

/-- Settles O33: MFSR is the write of one uniform register and MTSR a change of its group; TLBINV with nothing to wait for goes on. -/
theorem systemRegistersAreReadAndWritten : Obligations.SystemRegistersAreReadAndWritten := by
  intro f s x g v w
  refine ⟨fun ready => ?mfsr, fun ready => ?mtsr, fun ready unused => ?tlbinv⟩
  case mfsr =>
    have writes := (State.writeU_writes s x x.ins.d (BitVec.ofNat 32 (g.sys.get x.ins.a >>> (32 * w)))).mayFree x.lastOnes
    rw [oneUni_eq_toUniform, BitVec.toNat_ofNat] at writes
    exact ready.result (eff := mfsrEff) (by rw [ready.ins_eq rfl]; rfl) rfl writes
  case mtsr =>
    obtain ⟨t, next, here, passes, group, -, parts⟩ := ready.changesGroup (by rw [ready.ins_eq rfl]; rfl) (mtsrEff_eq x s) rfl rfl rfl rfl
    exact ⟨t, next, passes, group, by rw [here.rest], here.others, parts⟩
  case tlbinv =>
    rw [ready.exec_eq (eff := tlbinvEff) (by rw [ready.ins_eq rfl]; rfl), tlbinvEff]
    simp only [show s.tongsHolds (s.group x.gid).ctx (x.ins.m12 / 256 % 4) x.core = false from unused]
    rfl

end Sys2Proof.Machine
end

section
/-! Traps, handler entry and the return from a handler (R192 to R197, R351). -/

namespace Sys2Proof.Machine

/-! Whether a split of a group runs a handler, slot by slot. -/

/-- What holds of an unlisted slot holds of every listed one as it holds of every slot. -/
theorem Group.forall_mem_slots {g : Group} {p : Slot → Prop} (unlisted : p {}) : (∀ y ∈ g.slots, p y) ↔ ∀ k, p (g.slot k) := by
  unfold Group.slot
  constructor
  · intro all k
    rw [List.getD_eq_getElem?_getD]
    cases here : g.slots[k]? with
    | none => exact unlisted
    | some y => exact all y (List.mem_of_getElem? here)
  · intro all y mem
    obtain ⟨k, hk, rfl⟩ := List.mem_iff_getElem.1 mem
    simpa [hk] using all k

theorem Group.trapBusy_eq_false {g : Group} :
    g.trapBusy = false ↔ g.hparked = 0 ∧ ∀ k, (g.slot k).mode ≠ .handler ∧ (g.slot k).mode ≠ .suspended := by
  rw [← Group.forall_mem_slots (p := fun y => y.mode ≠ .handler ∧ y.mode ≠ .suspended) (by decide)]
  simp [Group.trapBusy]

theorem Group.inHandler_eq_false {g : Group} : g.inHandler = false ↔ g.hparked = 0 ∧ ∀ k, (g.slot k).mode ≠ .handler := by
  rw [← Group.forall_mem_slots (p := fun y => y.mode ≠ .handler) (by decide)]
  simp [Group.inHandler]

/-- A slot whose trap is pending runs no handler. -/
theorem Group.trapBusy_modSlot_pending {g : Group} (k : Nat) (idle : g.trapBusy = false) :
    (g.modSlot k fun y => { y with mode := .pending }).trapBusy = false := by
  obtain ⟨unparked, modes⟩ := Group.trapBusy_eq_false.1 idle
  refine Group.trapBusy_eq_false.2 ⟨unparked, fun j => ?_⟩
  rw [Group.modSlot_slot]
  split
  · exact ⟨SlotMode.noConfusion, SlotMode.noConfusion⟩
  · exact modes j

/-! A split that is sent elsewhere. -/

/-- Between two states only where a split stands, in what mode and in what run has changed: handler entry from either leaves the same
(R193). -/
structure Restands (s u : State) (gid slot : Nat) : Prop where
  mine : (u.group gid).slot slot = { (s.group gid).slot slot with
    mode := ((u.group gid).slot slot).mode, spc := ((u.group gid).slot slot).spc }
  theirs : ∀ k, k ≠ slot → (u.group gid).slot k = (s.group gid).slot k
  lanes : ∀ l, l < 32 → (u.group gid).lane l = if ((s.group gid).slot slot).amask.getLsbD l then
    { (s.group gid).lane l with lpc := ((u.group gid).lane l).lpc } else (s.group gid).lane l
  group : u.group gid = { s.group gid with lanes := (u.group gid).lanes, slots := (u.group gid).slots }
  part : u.part (s.group gid).core (s.group gid).part = { s.part (s.group gid).core (s.group gid).part with
    run := (u.part (s.group gid).core (s.group gid).part).run }
  mem : u.mem = s.mem
  others : ∀ g, g ≠ gid → u.group g = s.group g

theorem Restands.trans {s u v : State} {gid slot : Nat} (h₁ : Restands s u gid slot) (h₂ : Restands u v gid slot) : Restands s v gid slot where
  mine := by rw [h₂.mine, h₁.mine]
  theirs k hk := (h₂.theirs k hk).trans (h₁.theirs k hk)
  lanes l hl := by
    rw [h₂.lanes l hl, h₁.mine, h₁.lanes l hl]
    split <;> rfl
  group := by rw [h₂.group, h₁.group]
  part := by
    have part := h₂.part
    rw [h₁.group] at part
    exact part.trans (by rw [h₁.part])
  mem := h₂.mem.trans h₁.mem
  others g hg := (h₂.others g hg).trans (h₁.others g hg)

/-- The end of a run is no change of where the split stands. -/
theorem Restands.endRun (s : State) (gid slot : Nat) (cut : Bool) : Restands s (s.endRun gid slot cut) gid slot := by
  rw [State.endRun_eq]
  refine ⟨rfl, fun _ _ => rfl, fun _ _ => ?_, rfl, ?_, rfl, fun _ _ => rfl⟩
  · rw [State.modPart_group, ite_self]
  · rw [State.modPart_self]

/-- The split stands at another address with its lanes. -/
theorem Restands.moveSplit (s : State) (gid slot : Nat) (pc : CodeAddr) :
    Restands s (s.modGroup gid fun g => g.moveSplit slot ((s.group gid).slot slot).amask pc) gid slot := by
  have self := s.modGroup_self gid fun g => g.moveSplit slot ((s.group gid).slot slot).amask pc
  refine ⟨?_, fun k hk => ?_, fun l hl => ?_, ?_, rfl, rfl, fun g hg => s.modGroup_ne hg _⟩
  · rw [self, Group.moveSplit, Group.modSlot_slot, if_pos rfl]
    rfl
  · rw [self, Group.moveSplit, Group.modSlot_slot, if_neg hk]
    rfl
  · rw [self, Group.moveSplit, Group.modSlot_lane, Group.modLanes_lane _ _ _ hl]
    split <;> rfl
  · rw [self]
    rfl

/-- A handler that can be entered still can be once its split stands elsewhere outside a handler. -/
theorem State.handlerOpen.restands {s u : State} {gid slot : Nat} (h : s.handlerOpen gid slot) (moved : Restands s u gid slot)
    (ctxs : u.ctxs = s.ctxs) (mode : ((u.group gid).slot slot).mode ≠ .handler ∧ ((u.group gid).slot slot).mode ≠ .suspended) :
    u.handlerOpen gid slot := by
  obtain ⟨idle, -, pend, running, vec, free, quiet⟩ := h
  obtain ⟨unparked, modes⟩ := Group.trapBusy_eq_false.1 idle
  have hparked : (u.group gid).hparked = (s.group gid).hparked := by rw [moved.group]
  have here : (u.group gid).core = (s.group gid).core ∧ (u.group gid).part = (s.group gid).part := by rw [moved.group]; exact ⟨rfl, rfl⟩
  refine ⟨Group.trapBusy_eq_false.2 ⟨hparked.trans unparked, fun k => ?_⟩, mode.1, ?_, ?_, ?_, ?_, ?_⟩
  · by_cases own : k = slot
    · rw [own]
      exact mode
    · rw [moved.theirs k own]
      exact modes k
  · rw [moved.group]
    exact pend
  · rw [← running, State.groupClamped, State.groupClamped, State.ctx, State.ctx, ctxs, moved.group]
  · rw [moved.group]
    exact vec
  · rw [here.1, here.2, moved.part]
    exact free
  · rw [here.1, here.2, moved.part]
    exact quiet

/-! Handler entry (R193). -/

/-- Handler entry sets what R193 lists, whatever the state it is taken in. -/
theorem State.enterHandler_entered (s : State) (gid slot : Nat) (tr : Trap) : Entered s (s.enterHandler gid slot tr) gid slot tr := by
  have group : (s.enterHandler gid slot tr).group gid =
      (((s.setSys gid slot tr).group gid).moveSplit slot ((s.group gid).slot slot).amask ((s.group gid).sys.tvec.setWidth 56)).modSlot slot
        fun y => { y with mode := .handler, active := y.amask, replay := none } := by
    simp only [State.enterHandler, State.setSys, State.modPart_group, State.modGroup_self]
    rfl
  refine ⟨?_, ?_, fun k hk => ?_, fun l hl => ?_, ?_, ?_, rfl, fun g hg => ?_⟩
  · rw [group, State.setSys, State.modGroup_self]
    rfl
  · rw [group, Group.goOn_slot, if_pos rfl, State.setSys, State.modGroup_self]
    rfl
  · rw [group, Group.goOn_slot, if_neg hk, State.setSys, State.modGroup_self]
    rfl
  · rw [group, Group.goOn_lane _ _ _ _ _ _ hl, State.setSys, State.modGroup_self]
    rfl
  · rw [group, State.setSys, State.modGroup_self]
    rfl
  · simp only [State.enterHandler, State.setSys, State.modGroup_self, State.modPart_self]
    rfl
  · simp only [State.enterHandler, State.setSys, State.modPart_group, State.modGroup_ne _ hg]

/-- Where the split stood before it entered its handler makes no difference. -/
theorem Restands.entered {s u t : State} {gid slot : Nat} {tr : Trap} (h : Restands s u gid slot) (entry : Entered u t gid slot tr) :
    Entered s t gid slot tr where
  sys := by rw [entry.sys, h.group]
  mine := by rw [entry.mine, h.mine, h.group]
  theirs k hk := (entry.theirs k hk).trans (h.theirs k hk)
  lanes l hl := by
    rw [entry.lanes l hl, h.mine, h.lanes l hl, h.group]
    split <;> rfl
  group := by rw [entry.group, h.group]
  part := by
    have part := entry.part
    rw [h.group] at part
    exact part.trans (by rw [h.part])
  mem := entry.mem.trans h.mem
  others g hg := (entry.others g hg).trans (h.others g hg)

/-! A trap that waits for no other (R193). -/

/-- No trap has the bank to give back. -/
theorem State.yieldBank_of_free {s : State} {core part : Nat} (free : (s.part core part).owner = none) (tr : Trap) :
    s.yieldBank core part tr = s := by
  simp only [State.yieldBank, free]

/-- A bank with no trap waiting for it lets none enter. -/
theorem State.enterPending_of_quiet {s : State} {core part : Nat} (quiet : (s.part core part).trapq = []) : s.enterPending core part = s := by
  simp only [State.enterPending, quiet, List.find?_nil, ite_self]

/-- The first trap of a free bank enters its handler. -/
theorem State.enterPending_of_first {s : State} {core part gid slot : Nat} {tr : Trap} {q : List (Nat × Nat)} {ps : List (Nat × Trap)}
    (free : (s.part core part).owner = none) (first : (s.part core part).trapq = (gid, slot) :: q) (pend : (s.group gid).pend = (slot, tr) :: ps)
    (idle : (s.group gid).trapBusy = false) (running : s.groupClamped gid = false) :
    s.enterPending core part = ((s.modPart core part fun p => { p with trapq := p.trapq.erase (gid, slot) }).modGroup gid fun g =>
      { g with pend := g.pend.filter fun y => y.1 != slot }).enterHandler gid slot tr := by
  unfold State.enterPending
  simp only [free, first, pend, idle, running, Option.isSome_none, Bool.false_eq_true, if_false, List.find?_cons_of_pos, Bool.not_false,
    Bool.and_self, beq_self_eq_true]

/-- The state in which a trap that waits for no other enters its handler: it has been queued and taken from the queue again. -/
def State.taken (s : State) (gid slot : Nat) (tr : Trap) : State :=
  ((s.queueTrap gid slot tr).modPart (s.group gid).core (s.group gid).part fun p => { p with trapq := p.trapq.erase (gid, slot) }).modGroup gid
    fun g => { g with pend := g.pend.filter fun y => y.1 != slot }

section
variable {s : State} {gid slot : Nat} (tr : Trap) (h : s.handlerOpen gid slot)
include h

/-- A trap queued where none waits is the first of its group and of its partition. -/
theorem State.handlerOpen.queueTrap : (s.queueTrap gid slot tr).group gid = { (s.group gid).modSlot slot fun y => { y with mode := .pending } with
      pend := [(slot, { tr with bank := true })] } ∧
    (s.queueTrap gid slot tr).part (s.group gid).core (s.group gid).part = { s.part (s.group gid).core (s.group gid).part with
      trapq := [(gid, slot)] } := by
  obtain ⟨-, -, pend, -, -, -, quiet⟩ := h
  constructor
  · simp only [State.queueTrap, State.pendTrap, State.modPart_group, State.modGroup_self, pend, insertBy]
  · simp only [State.queueTrap, State.pendTrap, State.modPart_self, State.modGroup_part, quiet, insertBy]

/-- There its split stands as before, with its trap pending. -/
theorem State.handlerOpen.taken : Restands s (s.taken gid slot tr) gid slot := by
  obtain ⟨group, part⟩ := h.queueTrap tr
  obtain ⟨-, -, pend, -, -, -, quiet⟩ := h
  have own : (s.taken gid slot tr).group gid = (s.group gid).modSlot slot fun y => { y with mode := .pending } := by
    rw [State.taken, State.modGroup_self, State.modPart_group, group]
    simp [Group.modSlot, pend]
  refine ⟨?_, fun k hk => ?_, fun l hl => ?_, ?_, ?_, rfl, fun g hg => ?_⟩
  · rw [own, Group.modSlot_slot, if_pos rfl]
  · rw [own, Group.modSlot_slot, if_neg hk]
  · rw [own, Group.modSlot_lane, ite_self]
  · rw [own]
    rfl
  · rw [State.taken, State.modGroup_part, State.modPart_self, part]
    simp [quiet]
  · simp only [State.taken, State.queueTrap, State.pendTrap, State.modGroup_ne _ hg, State.modPart_group]

/-- A trap routed to a handler that can be entered enters it. -/
theorem State.handlerOpen.routeHandler :
    s.routeHandler gid slot tr = (s.taken gid slot tr).enterHandler gid slot { tr with bank := true } := by
  obtain ⟨group, part⟩ := h.queueTrap tr
  obtain ⟨idle, -, -, running, vec, free, -⟩ := h
  rw [State.routeHandler, if_neg vec, State.yieldBank_of_free free]
  refine State.enterPending_of_first (by rw [part]; exact free) (by rw [part]) (by rw [group]) ?_ ?_
  · rw [group]
    exact Group.trapBusy_modSlot_pending slot idle
  · rw [← running, State.groupClamped, group]
    rfl

end

/-! Where a trap goes (R192). -/

/-- A trap of a split that runs no handler goes by its cause; one that firmware and debugger leave goes to the handler. -/
theorem State.raise_eq_routeHandler {s : State} {gid slot : Nat} {tr : Trap} (outside : ((s.group gid).slot slot).mode ≠ .handler)
    (present : tr.cause ≠ .pageNotPresent) (undebugged : tr.cause = .bkpt → (s.ctx (s.group gid).ctx).debug = false) :
    s.raise gid slot tr = (s.endRun gid slot true).routeHandler gid slot { tr with no := s.trapNo gid slot } := by
  rw [State.raise, State.endRun_eq]
  dsimp only
  rw [State.modPart_group, State.modPart_ctx, if_neg outside, if_neg present, if_neg fun held => by simp [undebugged held.1] at held]

/-- A trap whose handler can be entered is entered as it is raised (R193). -/
theorem State.handlerOpen.raise {s : State} {gid slot : Nat} (h : s.handlerOpen gid slot) {tr : Trap} (present : tr.cause ≠ .pageNotPresent)
    (undebugged : tr.cause = .bkpt → (s.ctx (s.group gid).ctx).debug = false) : Entered s (s.raise gid slot tr) gid slot tr := by
  obtain ⟨idle, outside, -⟩ := id h
  obtain ⟨-, modes⟩ := Group.trapBusy_eq_false.1 idle
  have ended := Restands.endRun s gid slot true
  have still : (s.endRun gid slot true).handlerOpen gid slot := h.restands ended (by rw [State.endRun_eq]; rfl) (by rw [State.endRun_eq]; exact modes slot)
  rw [State.raise_eq_routeHandler outside present undebugged, still.routeHandler]
  -- Handler entry reads neither the number of a trap nor that it was queued, so that the entry of one is that of the other.
  obtain ⟨sys, mine, theirs, lanes, group, part, mem, others⟩ := (ended.trans (still.taken _)).entered (State.enterHandler_entered ..)
  exact ⟨sys, mine, theirs, lanes, group, part, mem, others⟩

/-! Clamps (R351). -/

theorem State.homeCells_rest (s : State) (cells : List Host.Cell) :
    s.homeCells cells = { s with mem := (s.homeCells cells).mem, dies := (s.homeCells cells).dies } := by
  unfold State.homeCells
  split
  · rfl
  · split
    · split <;> rfl
    · rfl

/-- A record that is written changes no group and of its context the queue alone (R298). -/
theorem State.putRecord_spec (s : State) (c : Nat) (r : FRec) :
    ((s.putRecord c r).ctx c).state = (s.ctx c).state ∧ ∀ g, (s.putRecord c r).group g = s.group g := by
  rw [State.putRecord, State.homeBytes, State.homeCells_rest, State.modCtx_self]
  exact ⟨rfl, fun _ => rfl⟩

/-- A record is written, or it waits or is counted in its context (R298). -/
theorem State.logRecord_eq (s : State) (c : Nat) (r : FRec) :
    s.logRecord c r = s.putRecord c r ∨ ∃ f : Ctx → Ctx, s.logRecord c r = s.modCtx c f ∧ ∀ k, (f k).state = k.state := by
  unfold State.logRecord
  dsimp only
  split_ifs
  · exact .inr ⟨_, rfl, fun _ => rfl⟩
  · exact .inl rfl
  · exact .inr ⟨_, rfl, fun _ => rfl⟩
  · exact .inl rfl

theorem State.logRecord_spec (s : State) (c : Nat) (r : FRec) :
    ((s.logRecord c r).ctx c).state = (s.ctx c).state ∧ ∀ g, (s.logRecord c r).group g = s.group g := by
  rcases s.logRecord_eq c r with put | ⟨f, counted, state⟩
  · rw [put]
    exact s.putRecord_spec c r
  · rw [counted, State.modCtx_self, state]
    exact ⟨rfl, fun _ => rfl⟩

/-- A context that is clamped stops, and its groups stand as they were. -/
theorem State.clampCtx_spec (s : State) (c trig cause : Nat) (addr : Dword) :
    ((s.clampCtx c trig cause addr).ctx c).state = .clamped ∧ ∀ g, (s.clampCtx c trig cause addr).group g = s.group g := by
  have clamped := s.modCtx_self c fun k => { k with out := k.out || k.state == .switchedOut, state := .clamped }
  unfold State.clampCtx
  exact ⟨(State.logRecord_spec ..).1.trans (congrArg Ctx.state clamped), fun g => (State.logRecord_spec ..).2 g⟩

/-- A trap that no handler takes clamps its context: one raised in a handler, and one that would go to TVEC = 0 (R192). -/
theorem State.raise_eq_clampCtx {s : State} {gid slot : Nat} {tr : Trap}
    (untaken : ((s.group gid).slot slot).mode = .handler ∨ (tr.cause ≠ .pageNotPresent ∧
      (tr.cause = .bkpt → (s.ctx (s.group gid).ctx).debug = false) ∧ (s.group gid).sys.tvec = 0)) :
    ∃ trig, s.raise gid slot tr = (s.endRun gid slot true).clampCtx (s.group gid).ctx trig tr.cause.code tr.faultPc := by
  by_cases inside : ((s.group gid).slot slot).mode = .handler
  · refine ⟨3, ?_⟩
    rw [State.raise, State.endRun_eq]
    exact if_pos inside
  · obtain ⟨present, undebugged, vec⟩ := untaken.resolve_left inside
    refine ⟨2, ?_⟩
    rw [State.raise_eq_routeHandler inside present undebugged, State.endRun_eq]
    exact if_pos vec

/-- Settles O29: a trap that waits for no other is queued and enters at once; one that no handler takes is a clamp. -/
theorem trapsEnterTheirHandlerOrClamp : Obligations.TrapsEnterTheirHandlerOrClamp := by
  refine ⟨fun s gid slot tr opened present undebugged => opened.raise present undebugged, fun s gid slot tr untaken => ?_⟩
  obtain ⟨trig, clamps⟩ := State.raise_eq_clampCtx untaken
  obtain ⟨state, groups⟩ := (s.endRun gid slot true).clampCtx_spec (s.group gid).ctx trig tr.cause.code tr.faultPc
  rw [clamps]
  exact ⟨state, (groups gid).trans (by rw [State.endRun_eq, State.modPart_group])⟩

/-! TRAP and BKPT (R195, R197). -/

/-- The split of an instruction issues with its slot's lanes. -/
theorem Ready.active {s : State} {i : Instr} {x : Iss} (h : Ready s i x) : x.active = ((s.group x.gid).slot x.slot).amask := by
  obtain ⟨r, -, -, -, -, issued⟩ := State.issuer_some h.issuer
  rw [issued]
  rfl

/-- A trap raised past its own instruction enters where the handler could be entered before it. -/
theorem State.handlerOpen.raise_past {s : State} {gid slot : Nat} (h : s.handlerOpen gid slot) {tr : Trap} (pc : CodeAddr)
    (present : tr.cause ≠ .pageNotPresent) (undebugged : tr.cause = .bkpt → (s.ctx (s.group gid).ctx).debug = false) :
    Entered s ((s.modGroup gid fun g => g.moveSplit slot ((s.group gid).slot slot).amask pc).raise gid slot tr) gid slot tr := by
  obtain ⟨idle, -⟩ := id h
  obtain ⟨-, modes⟩ := Group.trapBusy_eq_false.1 idle
  have moved := Restands.moveSplit s gid slot pc
  have same : ((s.modGroup gid fun g => g.moveSplit slot ((s.group gid).slot slot).amask pc).group gid).ctx = (s.group gid).ctx := by
    rw [moved.group]
  refine moved.entered ((h.restands moved rfl ?_).raise present fun bkpt => ?_)
  · rw [State.modGroup_self, Group.moveSplit, Group.modSlot_slot, if_pos rfl]
    exact modes slot
  · rw [same]
    exact undebugged bkpt

/-- Settles O30: each effect raises a trap once its split stands past it. -/
theorem softwareTrapsEnterTheHandler : Obligations.SoftwareTrapsEnterTheHandler := by
  intro f s x tr past
  refine ⟨fun ready => ⟨_, ready.exec_eq (eff := trapEff) (by rw [ready.ins_eq rfl]; rfl), rfl, fun opened => ?_⟩,
    fun ready => ⟨_, ready.exec_eq (eff := bkptEff) (by rw [ready.ins_eq rfl]; rfl), rfl, fun opened undebugged => ?_⟩⟩
  · have entered := opened.raise_past (tr := tr .software (x.ins.m12 % 256)) x.next nofun nofun
    rw [← ready.active] at entered
    exact entered
  · have entered := opened.raise_past (tr := tr .bkpt 0) x.next nofun fun _ => undebugged
    rw [← ready.active] at entered
    exact entered

/-! ERET (R196). -/

/-- A group whose split of a slot resumes at TPC (R196). -/
def Group.resumed (g : Group) (slot : Nat) : Group :=
  (g.moveSplit slot (g.slot slot).amask (g.sys.tpc.setWidth 56)).modSlot slot fun y => { y with
    mode := .running, active := 0, mark := none
    replay := if g.sys.tstat.getLsbD 31 then some (g.sys.tlanes &&& (g.slot slot).active &&& (g.slot slot).amask) else none }

theorem Group.resumed_slot (g : Group) (slot : Nat) : (g.resumed slot).slot slot = { g.slot slot with
    mode := .running, spc := g.sys.tpc.setWidth 56, active := 0, mark := none
    replay := if g.sys.tstat.getLsbD 31 then some (g.sys.tlanes &&& (g.slot slot).active &&& (g.slot slot).amask) else none } := by
  rw [Group.resumed, Group.goOn_slot, if_pos rfl]

theorem Group.resumed_slot_ne (g : Group) {slot k : Nat} (h : k ≠ slot) : (g.resumed slot).slot k = g.slot k := by
  rw [Group.resumed, Group.goOn_slot, if_neg h]

theorem Group.resumed_lane (g : Group) (slot : Nat) {l : Nat} (h : l < 32) : (g.resumed slot).lane l =
    if (g.slot slot).amask.getLsbD l then { g.lane l with lpc := g.sys.tpc.setWidth 56 } else g.lane l := by
  rw [Group.resumed, Group.goOn_lane _ _ _ _ _ _ h]

theorem State.resume_eq (s : State) (gid slot : Nat) : s.resume gid slot = s.modGroup gid fun g => g.resumed slot := by
  unfold State.resume
  exact State.modGroup_congr rfl

/-- Once no split of the group runs a handler, every load of the handler is dropped. -/
theorem Group.dropHandlerLoads_of_left {g : Group} (left : g.inHandler = false) (m : Mask) :
    g.dropHandlerLoads m = { g with loads := g.loads.filter fun l => !l.handler } := by
  unfold Group.dropHandlerLoads
  simp only [left, Bool.false_and, Bool.or_false]
  congr 1
  induction g.loads with
  | nil => rfl
  | cons l ls ih =>
    rw [List.map_cons, List.filter_cons, List.filter_cons, ih]
    cases own : l.handler with
    | true => cases l.uni <;> simp [own]
    | false => simp [own]

/-- With no trap waiting, none follows (R193, R302). -/
theorem State.afterTrap_of_quiet {s : State} {gid : Nat} (pend : (s.group gid).pend = [])
    (quiet : (s.part (s.group gid).core (s.group gid).part).trapq = []) : s.afterTrap gid = s := by
  simp only [State.afterTrap, pend, ite_self]
  exact State.enterPending_of_quiet quiet

/-- The group runs no handler once the one split that did resumes. -/
theorem Group.resumed_inHandler {g : Group} {slot : Nat} (unparked : g.hparked = 0) (alone : ∀ k, k ≠ slot → (g.slot k).mode ≠ .handler) :
    (g.resumed slot).inHandler = false := by
  refine Group.inHandler_eq_false.2 ⟨unparked, fun k => ?_⟩
  by_cases own : k = slot
  · rw [own, Group.resumed_slot]
    exact SlotMode.noConfusion
  · rw [Group.resumed_slot_ne g own]
    exact alone k own

/-- ERET of the one split that runs a handler resumes it, drops what the handler's loads would bring and frees the bank. -/
theorem eretEff_spec {s : State} {x : Iss} (place : (s.group x.gid).core = x.core ∧ (s.group x.gid).part = x.part)
    (quiet : (s.part x.core x.part).trapq = []) (pend : (s.group x.gid).pend = []) (unparked : (s.group x.gid).hparked = 0)
    (alone : ∀ k, k ≠ x.slot → ((s.group x.gid).slot k).mode ≠ .handler) :
    ∃ u, eretEff x s = .wait u ∧ u.mem = s.mem ∧
      u.group x.gid = { (s.group x.gid).resumed x.slot with loads := (s.group x.gid).loads.filter fun l => !l.handler } ∧
      (u.part x.core x.part).owner = none ∧ (u.part x.core x.part).bank = {} := by
  have left := Group.resumed_inHandler unparked alone
  have dropped := Group.dropHandlerLoads_of_left left x.active
  have out : (((s.group x.gid).resumed x.slot).dropHandlerLoads x.active).inHandler = false := by rw [dropped]; exact left
  obtain ⟨u, freed⟩ : ∃ u, (s.modGroup x.gid fun g => (g.resumed x.slot).dropHandlerLoads x.active).modPart x.core x.part
    (fun p => { p with owner := none, bank := {} }) = u := ⟨_, rfl⟩
  have group : u.group x.gid = { (s.group x.gid).resumed x.slot with loads := (s.group x.gid).loads.filter fun l => !l.handler } := by
    rw [← freed, State.modPart_group, State.modGroup_self, dropped]
    rfl
  have part : u.part x.core x.part = { s.part x.core x.part with owner := none, bank := {} } := by
    rw [← freed, State.modPart_self, State.modGroup_part]
  have after : u.afterTrap x.gid = u := by
    refine State.afterTrap_of_quiet (by rw [group]; exact pend) ?_
    rw [group]
    show (u.part (s.group x.gid).core (s.group x.gid).part).trapq = []
    rw [place.1, place.2, part]
    exact quiet
  refine ⟨u, ?_, by rw [← freed]; rfl, group, by rw [part], by rw [part]⟩
  unfold eretEff
  dsimp only
  rw [State.resume_eq, State.modGroup_modGroup, State.modGroup_self, out, freed, after]
  rfl

/-- Settles O32: the handler's split resumes, and with no trap waiting no other takes the bank. -/
theorem returnFromTrapResumes : Obligations.ReturnFromTrapResumes := by
  intro f s x ready quiet pend unparked alone g
  obtain ⟨u, resumed, mem, group, free, clear⟩ := eretEff_spec ready.place quiet pend unparked alone
  have next := ready.exec_eq (eff := eretEff) (by rw [ready.ins_eq rfl]; rfl)
  rw [resumed, Eff.settle] at next
  have place : (u.group x.gid).core = x.core ∧ (u.group x.gid).part = x.part := by rw [group]; exact ready.place
  have part := (Restands.endRun u x.gid x.slot true).part
  rw [place.1, place.2] at part
  refine ⟨_, next, ?mem, ?mine, fun l hl => ?lanes, ?rest, by rw [part]; exact free, by rw [part]; exact clear⟩
  all_goals rw [State.endRun_eq]
  case mem => exact mem
  all_goals rw [State.modPart_group, group]
  case mine => exact g.resumed_slot x.slot
  case lanes => exact g.resumed_lane x.slot hl
  case rest => rfl

end Sys2Proof.Machine
end

section
/-! BAR (R215 to R217). -/

namespace Sys2Proof.Machine

/-- A slot that frees keeps its scoreboard alone (R155). -/
theorem Group.freeSlot_slot (g : Group) (k j : Nat) : (g.freeSlot k).slot j = if j = k then { sb := (g.slot k).sb } else g.slot j :=
  g.modSlot_slot k j fun y => { sb := y.sb }

/-- Where the lanes of a BAR wait (R215, R216). -/
def Iss.barrierOf (x : Iss) (desc : Nat) : BarWait :=
  { lvl := x.ins.m12 / 512, id := x.ins.m12 % 16, desc := if 4 ≤ x.ins.m12 / 512 then desc else 0, pc := x.pc, mark := 0 }

/-- A group whose split has come to a barrier: its lanes wait there, at the address of the BAR, and its slot is free. -/
def Group.atBarrier (g : Group) (x : Iss) (desc : Nat) : Group :=
  (g.modLanes x.active fun _ l => { l with lst := .barrier, lpc := x.pc, bar := some (x.barrierOf desc) }).freeSlot x.slot

theorem Group.atBarrier_lane (g : Group) (x : Iss) (desc : Nat) {l : Nat} (hl : l < 32) : (g.atBarrier x desc).lane l =
    if x.active.getLsbD l then { g.lane l with lst := .barrier, lpc := x.pc, bar := some (x.barrierOf desc) } else g.lane l :=
  g.modLanes_lane x.active (fun _ y => { y with lst := .barrier, lpc := x.pc, bar := some (x.barrierOf desc) }) hl

/-- A BAR whose descriptor passes and whose release is performed brings its lanes to the barrier (R216, R217). -/
theorem barEff_eq {s : State} {x : Iss} {desc : Nat} (word : ((s.regs x).x x.ins.a 0).toNat = desc)
    (passes : 4 ≤ x.ins.m12 / 512 → desc % 2 ^ 20 ≠ 0 ∧ (x.ins.m12 / 512 = 4 → desc / 2 ^ 20 = 0))
    (released : s.releaseDone { x with exec := x.active } (x.ins.m12 / 512) = (true, s)) :
    barEff x s = .moved (s.modGroup x.gid fun g => g.atBarrier x desc) := by
  have sound : ¬ (4 ≤ x.ins.m12 / 512 ∧ (desc % 2 ^ 20 = 0 ∨ (x.ins.m12 / 512 = 4 ∧ desc / 2 ^ 20 ≠ 0))) := by
    rintro ⟨high, zero | ⟨four, above⟩⟩
    · exact (passes high).1 zero
    · exact above ((passes high).2 four)
  rw [barEff, word, if_neg sound, barScope, released]
  rfl

/-- Settles O26: the release once performed, BAR is a change of its group alone. -/
theorem barrierHoldsItsLanes : Obligations.BarrierHoldsItsLanes := by
  intro f s x lvl desc ready passes released
  obtain ⟨t, next, here, group, part⟩ := ready.moved (eff := barEff) (f := fun g => g.atBarrier x desc) (by rw [ready.ins_eq rfl]; rfl)
    (barEff_eq rfl passes released) rfl rfl
  have bank : (t.part x.core x.part).bank = (s.part x.core x.part).bank := by rw [part]
  have names : (t.group x.gid).names = (s.group x.gid).names := by rw [group]; rfl
  have uniform : (t.group x.gid).g = (s.group x.gid).g := by rw [group]; rfl
  have lanePreds : (t.group x.gid).p = (s.group x.gid).p := by rw [group]; rfl
  have uniPreds : (t.group x.gid).q = (s.group x.gid).q := by rw [group]; rfl
  refine ⟨t, next, by rw [here.rest], here.others, fun l hl => ?_, ?_, fun k other => ?_, fun c l _ => ?_, fun c l _ => ?_⟩
  · rw [group, Group.modSlot_lane, Group.atBarrier_lane _ _ _ hl]
    rfl
  · rw [group, Group.modSlot_slot, if_pos rfl, Group.atBarrier, Group.freeSlot_slot, if_pos rfl]
    rfl
  · rw [group, Group.modSlot_slot, if_neg other, Group.atBarrier, Group.freeSlot_slot, if_neg other, Group.modLanes_slot]
  · exact Regs.x_congr (r := t.regs x) (t := s.regs x) rfl (fun _ => names) (fun _ => uniform) (fun _ => bank) c l
  · exact Regs.pred_congr (r := t.regs x) (t := s.regs x) rfl (fun _ => lanePreds) (fun _ => uniPreds) (fun _ => bank) c l

end Sys2Proof.Machine
end

section
/-! DQPUSH, DQPOP and DQSTEAL (R219, R220). -/

namespace Sys2Proof.Machine

/-! The deque of a core. -/

/-- A core's deque holds these entries. -/
def State.setDeque (s : State) (core : Nat) (q : List Dword) : State := s.modCore core fun c => { c with deque := q }

theorem State.setDeque_core (s : State) (core : Nat) (q : List Dword) (c : Nat) :
    (s.setDeque core q).core c = { s.core c with deque := ((s.setDeque core q).core c).deque } := by
  rw [State.setDeque, State.modCore_get]
  split
  next here => rw [here]
  next => rfl

/-- Only cores have changed, none in its partitions, and the deque of the issuing core holds these entries. -/
structure DequeIs (s u : State) (x : Iss) (q : List Dword) : Prop where
  rest : u = { s with cores := u.cores }
  part : ∀ c p, u.part c p = s.part c p
  deque : (u.core x.core).deque = q

theorem DequeIs.refl (s : State) (x : Iss) : DequeIs s s x (s.core x.core).deque := ⟨rfl, fun _ _ => rfl, rfl⟩

theorem DequeIs.set (s : State) (x : Iss) (q : List Dword) : DequeIs s (s.setDeque x.core q) x q where
  rest := rfl
  part c p := by
    unfold State.part
    rw [State.setDeque_core]
    rfl
  deque := by rw [State.setDeque, State.modCore_self]

theorem DequeIs.acquire {s u : State} {x : Iss} {q : List Dword} (h : DequeIs s u x q) (sco sem : Nat) :
    DequeIs s (u.acquire x.core sco sem) x q where
  rest := by rw [State.acquire_rest, h.rest]
  part c p := ((Queues.acquire u x x.core sco sem).part c p).trans (h.part c p)
  deque := ((DequesKept.acquire u x.core sco sem).deque x.core).trans h.deque

section
variable {s u : State} {x : Iss} {q : List Dword} (h : DequeIs s u x q)
include h

theorem DequeIs.group (g : Nat) : u.group g = s.group g := by rw [h.rest]; rfl

theorem DequeIs.regs : u.regs x = s.regs x := by
  unfold State.regs
  rw [h.group, h.part]

/-- A split that goes on from there goes on from the state before. -/
theorem DequeIs.passes {t : State} (passes : Passes u t x) : Passes s t x :=
  passes.of_same (by rw [h.group]) (by rw [h.group]) (by rw [h.part])

end

/-! Words written to uniform registers. -/

/-- Words that are given to uniform registers alone, which read the same in every lane (R55). -/
structure Uniform (d : Nat → Nat → Option Word) : Prop where
  lanes : ∀ c l, d c l = d c 0
  range : ∀ c l, c < 128 → d c l = none

theorem Uniform.toUniform (d n v : Nat) : Uniform (toUniform d n v) := ⟨fun _ _ => rfl, fun _ _ low => if_neg (by omega)⟩

theorem Uniform.or {d₁ d₂ : Nat → Nat → Option Word} (h₁ : Uniform d₁) (h₂ : Uniform d₂) : Uniform fun c l => (d₁ c l).or (d₂ c l) where
  lanes c l := by rw [h₁.lanes, h₂.lanes]
  range c l low := by rw [h₁.range c l low, h₂.range c l low, Option.or_none]

theorem Regs.x_uniform (r : Regs) {c : Nat} (high : 128 ≤ c) (l : Nat) : r.x c l = r.x c 0 := by
  have notLane : ¬ c < 128 := by omega
  rw [Regs.x, Regs.x, if_neg notLane, if_neg notLane]

/-- Words that uniform registers hold in the lanes of a group are read there under every lane number. -/
theorem Uniform.written {r : Regs} {d : Nat → Nat → Option Word} (h : Uniform d) (written : ∀ c l w, l < 32 → d c l = some w → r.x c l = w)
    {c l : Nat} {w : Word} (given : d c l = some w) : r.x c l = w := by
  have high : 128 ≤ c := by
    by_contra low
    rw [h.range c l (by omega)] at given
    cases given
  rw [h.lanes] at given
  rw [r.x_uniform high]
  exact written c 0 w (by omega) given

/-- Which registers receive words does not depend on the words. -/
theorem toUniform_eq_none {d n v : Nat} (w : Nat) {c l : Nat} (h : toUniform d n v c l = none) : toUniform d n w c l = none := by
  unfold toUniform at *
  rw [if_neg (by simpa using h)]

/-- What a deque instruction that writes words to uniform registers leaves: its deque, its registers, and a split that has gone on. -/
structure DequeDone (s t : State) (x : Iss) (q : List Dword) (d : Nat → Nat → Option Word) : Prop where
  mem : t.mem = s.mem
  passes : Passes s t x
  deque : (t.core x.core).deque = q
  written : ∀ c l w, d c l = some w → (t.regs x).x c l = w
  kept : ∀ c l, l < 32 → d c l = none → (t.regs x).x c l = (s.regs x).x c l

/-- A deque that has changed, then writes to uniform registers, and the split goes on. -/
theorem DequeIs.done {s u v : State} {x : Iss} {q : List Dword} {d : Nat → Nat → Option Word} (h : DequeIs s u x q)
    (writes : Writes u v x [] d noPred 0) (uniform : Uniform d) (place : (s.group x.gid).core = x.core ∧ (s.group x.gid).part = x.part) :
    DequeDone s (v.advance x) x q d := by
  rw [← h.group] at place
  have kept := (Queues.refl v x).advance (by rw [writes.group]; exact place.1) (by rw [writes.group]; exact place.2)
  refine ⟨?_, h.passes (kept.passes.of_same ?_ ?_ ?_), ?_, fun c l w given => ?_, fun c l hl none => ?_⟩
  · rw [State.advance_mem, writes.rest, h.rest]
  · rw [writes.group]
  · rw [writes.group]
  · rw [writes.part]
  · rw [kept.cores, writes.core]
    exact h.deque
  · exact uniform.written (fun c l w hl given => (kept.regs c l hl).trans (writes.written c l w hl given)) given
  · rw [kept.regs c l hl, writes.kept c l hl none List.not_mem_nil, h.regs]

/-! DQPUSH and DQPOP. -/

/-- DQPUSH, its release once performed, enters at the bottom and answers 1, or 0 where the deque is full (R219, R220). -/
theorem dqpushEff_eq {s : State} {x : Iss} (released : s.releaseDone { x with exec := x.active } 3 = (true, s)) :
    dqpushEff x s = .done (if (s.core x.core).deque.length < 256
      then (s.setDeque x.core ((s.core x.core).deque ++ [BitVec.ofNat 64 ((s.regs x).xs x.ins.a 2 0)])).writeU x x.ins.c 1
      else s.writeU x x.ins.c 0) := by
  rw [dqpushEff, released]
  dsimp only
  by_cases room : (s.core x.core).deque.length < 256
  · rw [if_pos room, decide_eq_false (by omega)]
    rfl
  · rw [if_neg room, decide_eq_true (by omega)]
    rfl

/-- A ready DQPUSH completes. -/
theorem Ready.dqpush {i : Instr} {s : State} {x : Iss} (ready : Ready s i x) (op : x.ins.op = 0xC6)
    (released : s.releaseDone { x with exec := x.active } 3 = (true, s)) :
    let q := (s.core x.core).deque
    ∃ t, exec i s = .next t ∧ DequeDone s t x (if q.length < 256 then q ++ [BitVec.ofNat 64 ((s.regs x).xs x.ins.a 2 0)] else q)
      (toUniform x.ins.c 1 (if q.length < 256 then 1 else 0)) := by
  have next := ready.exec_eq (eff := dqpushEff) (by rw [op]; rfl)
  rw [dqpushEff_eq released] at next
  refine ⟨_, next, ?_⟩
  split
  · have writes := State.writeU_writes (s.setDeque x.core ((s.core x.core).deque ++ [BitVec.ofNat 64 ((s.regs x).xs x.ins.a 2 0)])) x x.ins.c 1
    rw [oneUni_eq_toUniform] at writes
    exact (DequeIs.set s x _).done writes (.toUniform ..) ready.place
  · have writes := State.writeU_writes s x x.ins.c 0
    rw [oneUni_eq_toUniform] at writes
    exact (DequeIs.refl s x).done writes (.toUniform ..) ready.place

/-- The state from which DQPOP writes its registers: an entry that it takes makes it an acquire (R220). -/
def State.popped (s : State) (x : Iss) : State :=
  if (s.core x.core).deque = [] then s else (s.setDeque x.core (s.core x.core).deque.dropLast).acquire x.core 3 1

theorem State.popped_deque (s : State) (x : Iss) : DequeIs s (s.popped x) x (s.core x.core).deque.dropLast := by
  unfold State.popped
  split
  next empty =>
    have own := DequeIs.refl s x
    rw [empty] at own ⊢
    exact own
  next => exact (DequeIs.set s x _).acquire 3 1

/-- DQPOP takes from the bottom and says whether there was an entry (R219, R220). -/
theorem dqpopEff_eq (s : State) (x : Iss) : dqpopEff x s = .done (((s.popped x).writeUs x x.ins.d 2 (((s.core x.core).deque.getLast?).getD 0).toNat).writeU
    x x.ins.c (if (s.core x.core).deque = [] then 0 else 1)) := by
  unfold dqpopEff State.popped
  cases bottom : (s.core x.core).deque.getLast? with
  | none =>
    rw [List.getLast?_eq_none_iff] at bottom
    rw [if_pos bottom, if_pos bottom]
    rfl
  | some e =>
    have some_ : (s.core x.core).deque ≠ [] := fun none => by
      rw [none] at bottom
      cases bottom
    rw [if_neg some_, if_neg some_]
    rfl

/-- A ready DQPOP completes; where both its destinations name a register, that of C stands. -/
theorem Ready.dqpop {i : Instr} {s : State} {x : Iss} (ready : Ready s i x) (op : x.ins.op = 0xC7) :
    let q := (s.core x.core).deque
    ∃ t, exec i s = .next t ∧ DequeDone s t x q.dropLast fun c l =>
      (toUniform x.ins.c 1 (if q = [] then 0 else 1) c l).or (toUniform x.ins.d 2 ((q.getLast?).getD 0).toNat c l) := by
  intro q
  have next := ready.exec_eq (eff := dqpopEff) (by rw [op]; rfl)
  rw [dqpopEff_eq] at next
  have writes := (State.writeUs_writes (s.popped x) x x.ins.d 2 ((q.getLast?).getD 0).toNat).then
    (State.writeU_writes _ x x.ins.c (if q = [] then 0 else 1))
  have word : (if q = [] then (0 : Word) else 1).toNat = if q = [] then 0 else 1 := by split <;> rfl
  rw [oneUni_eq_toUniform, word] at writes
  exact ⟨_, next, (s.popped_deque x).done (writes.as (fun _ _ => rfl) (fun _ _ => rfl) (by simp)) ((Uniform.toUniform ..).or (.toUniform ..)) ready.place⟩

/-! DQSTEAL. -/

/-- A load that is entered stands last (R160). -/
theorem State.newUniLoad_loads (s : State) (x : Iss) (d n a wd : Nat) : ((s.newUniLoad x d n a wd).2.group x.gid).loads =
    (s.group x.gid).loads ++ [x.uniLoad s.nextId d n a wd] := by
  rw [State.newUniLoad_eq, State.modGroup_self]
  rfl

/-- Which loads an instruction has entered is read from its group's loads alone. -/
theorem Loads.of_same {s t u : State} {x : Iss} {l : PLoad} (h : Loads s t x l) (same : (u.group x.gid).loads = (t.group x.gid).loads) :
    Loads s u x l := by
  unfold Loads
  rw [same]
  exact h

/-- What a steal returns to its registers: the entry or 0, and whether there was one (R219). -/
def stealWords (d c : Nat) (e : Option Dword) : List (Nat × List Word) :=
  [(d, [(e.getD 0).setWidth 32, (e.getD 0 >>> 32).setWidth 32]), (c, [if e.isSome then 1 else 0])]

theorem State.stealDone_eq (s : State) (gid core seq d c : Nat) (e : Option Dword) : s.stealDone gid core seq d c e =
    if e.isSome then (s.returnWords gid seq (stealWords d c e)).acquire core 3 1 else s.returnWords gid seq (stealWords d c e) := rfl

theorem State.stealDone_group (s : State) (gid core seq d c : Nat) (e : Option Dword) (g : Nat) : (s.stealDone gid core seq d c e).group g =
    (s.returnWords gid seq (stealWords d c e)).group g := by
  rw [State.stealDone_eq]
  split
  · exact State.acquire_group ..
  · rfl

theorem Queues.stealDone (s : State) (x : Iss) (core seq d c : Nat) (e : Option Dword) : Queues s (s.stealDone x.gid core seq d c e) x := by
  rw [State.stealDone_eq]
  split
  · exact (Queues.returnWords ..).trans (.acquire ..)
  · exact .returnWords ..

/-- The load of a DQSTEAL once its words have returned. -/
def Iss.stolen (x : Iss) (seq : Nat) (e : Option Dword) : PLoad :=
  { x.uniLoad seq x.ins.d 2 0 4 with got := 1, vals := (stealWords x.ins.d x.ins.c e).filter fun w => w.1 != 288 }

/-- Where there is no entry every word that returns is 0. -/
theorem Iss.stolen_none (x : Iss) (seq : Nat) : ∀ w ∈ (x.stolen seq none).vals, w.2 = [0, 0] ∨ w.2 = [0] := by
  intro w given
  have listed := (List.mem_filter.1 given).1
  simp only [stealWords, List.mem_cons, List.not_mem_nil, or_false] at listed
  rcases listed with rfl | rfl
  · exact .inl rfl
  · exact .inr rfl

/-- What an issue of DQSTEAL leaves: its load, its registers, and a split that has gone on. -/
structure StealIssued (s t : State) (x : Iss) (l : PLoad) : Prop where
  mem : t.mem = s.mem
  passes : Passes s t x
  loads : Loads s t x l
  regs : ∀ c k, k < 32 → (t.regs x).x c k = (s.regs x).x c k
  others : ∀ g, g ≠ x.gid → t.group g = s.group g

/-- A deque that has changed, then a load that is entered, and the split goes on. -/
theorem DequeIs.issued {s u v : State} {x : Iss} {q : List Dword} {l : PLoad} (h : DequeIs s u x q) (queues : Queues u v x)
    (loads : Loads s (v.advance x) x l) (place : (s.group x.gid).core = x.core ∧ (s.group x.gid).part = x.part) :
    StealIssued s (v.advance x) x l ∧ ((v.advance x).core x.core).deque = q := by
  rw [← h.group] at place
  have kept := queues.advance place.1 place.2
  refine ⟨⟨?_, h.passes kept.passes, loads, fun c k hk => ?_, fun g other => ?_⟩, ?_⟩
  · rw [kept.mem, h.rest]
  · rw [kept.regs c k hk, h.regs]
  · rw [kept.others g other, h.group]
  · rw [kept.cores]
    exact h.deque

/-- A deque that has changed, then a load that is answered at once. -/
theorem DequeIs.answered {s u : State} {x : Iss} {q : List Dword} (h : DequeIs s u x q) (e : Option Dword)
    (place : (s.group x.gid).core = x.core ∧ (s.group x.gid).part = x.part) :
    let t := ((u.newUniLoad x x.ins.d 2 0 4).2.stealDone x.gid x.core s.nextId x.ins.d x.ins.c e).advance x
    StealIssued s t x (x.stolen s.nextId e) ∧ (t.core x.core).deque = q ∧ t.steals = s.steals := by
  have next : u.nextId = s.nextId := by rw [h.rest]
  have entered := u.newUniLoad_loads x x.ins.d 2 0 4
  rw [next, h.group] at entered
  have loads := (Loads.answered (l := x.uniLoad s.nextId x.ins.d 2 0 4) entered rfl rfl (stealWords x.ins.d x.ins.c e)).of_same
    (u := ((u.newUniLoad x x.ins.d 2 0 4).2.stealDone x.gid x.core s.nextId x.ins.d x.ins.c e).advance x)
    (by rw [State.advance_group_loads, State.advance_group_loads, State.stealDone_group]; rfl)
  obtain ⟨issued, deque⟩ := h.issued ((Queues.newUniLoad ..).trans (.stealDone ..)) loads place
  refine ⟨issued, deque, ?_⟩
  rw [State.advance_steals, (DequesKept.stealDone ..).steals, State.newUniLoad_eq, State.modGroup_steals, h.rest]

/-- A steal finds the same entry once a load has been entered. -/
theorem State.newUniLoad_stealAt (s : State) (x : Iss) (d n a wd tgt ctx : Nat) : (s.newUniLoad x d n a wd).2.stealAt tgt ctx =
    ((s.stealAt tgt ctx).1, ((s.stealAt tgt ctx).2.newUniLoad x d n a wd).2) := by
  have same : (s.newUniLoad x d n a wd).2.core tgt = s.core tgt := rfl
  unfold State.stealAt
  rw [same]
  split
  · rfl
  · split <;> rfl

theorem State.stealAt_deque (s : State) (x : Iss) (ctx : Nat) :
    DequeIs s (s.stealAt x.core ctx).2 x (((s.stealAt x.core ctx).2.core x.core).deque) := by
  unfold State.stealAt
  split
  · exact .refl s x
  · split
    · exact .refl s x
    · next rest _ =>
      have taken := DequeIs.set s x rest
      exact ⟨taken.rest, taken.part, rfl⟩

/-- A steal is sent (R219). -/
def State.sendSteal (s : State) (m : Steal) : State := { s with steals := s.steals ++ [m] }

theorem Queues.sendSteal (s : State) (x : Iss) (m : Steal) : Queues s (s.sendSteal m) x := .outside x rfl rfl rfl

section
variable {s : State} {x : Iss} {tgt : Nat} (few : s.loadCount x < 32) (names : ((s.regs x).x x.ins.a 0).toNat = tgt)
include few names

/-- A core of another die or none answers at once that there is no entry (R219). -/
theorem dqstealEff_far (far : 511 < tgt ∨ dieOf tgt ≠ dieOf x.core) :
    dqstealEff x s = .done ((s.newUniLoad x x.ins.d 2 0 4).2.stealDone x.gid x.core s.nextId x.ins.d x.ins.c none) := by
  rw [dqstealEff, withLoadRoom_of_lt few, names]
  exact if_pos far

/-- The own deque answers at once (R219). -/
theorem dqstealEff_own (low : tgt ≤ 511) (own : tgt = x.core) :
    let taken := s.stealAt x.core (s.group x.gid).ctx
    dqstealEff x s = .done ((taken.2.newUniLoad x x.ins.d 2 0 4).2.stealDone x.gid x.core s.nextId x.ins.d x.ins.c taken.1) := by
  rw [dqstealEff, withLoadRoom_of_lt few, names]
  dsimp only
  rw [own] at low ⊢
  rw [if_neg (by simpa using low), if_pos rfl, State.newUniLoad_stealAt]
  rfl

/-- Another core of the die is sent a steal (R219). -/
theorem dqstealEff_sent (low : tgt ≤ 511) (near : dieOf tgt = dieOf x.core) (other : tgt ≠ x.core) :
    let loaded := (s.newUniLoad x x.ins.d 2 0 4).2
    dqstealEff x s = .done (loaded.newId.2.sendSteal {
      id := loaded.nextId, gid := x.gid, src := x.core, tgt := tgt, d := x.ins.d, c := x.ins.c, load := s.nextId
      ctx := (s.group x.gid).ctx }) := by
  rw [dqstealEff, withLoadRoom_of_lt few, names]
  dsimp only
  rw [if_neg (by simp [low, near]), if_neg other]
  rfl

end

/-- Settles O27: each deque instruction changes its core's deque, and then answers as a uniform write or a uniform load does. -/
theorem dequeOperationsComplete : Obligations.DequeOperationsComplete := by
  intro f s x r q v
  refine ⟨fun ready released => ?push, fun ready => ?pop, fun ready few => ?steal⟩
  case push =>
    obtain ⟨t, next, mem, passes, deque, written, kept⟩ := ready.dqpush (by rw [ready.ins_eq rfl]; rfl) released
    exact ⟨t, next, mem, passes, deque, written, fun c l hl none => kept c l hl (toUniform_eq_none _ none)⟩
  case pop =>
    obtain ⟨t, next, mem, passes, deque, written, kept⟩ := ready.dqpop (by rw [ready.ins_eq rfl]; rfl)
    refine ⟨t, next, mem, passes, deque, fun c l w other given => written c l w ?_, fun c l w given => written c l w ?_,
      fun c l hl none none' => kept c l hl ?_⟩
    · have free : toUniform x.ins.c 1 (if q = [] then 0 else 1) c l = none := if_neg (by omega)
      rw [free, Option.none_or]
      exact given
    · rw [given, Option.some_or]
    · rw [toUniform_eq_none _ none, toUniform_eq_none _ none', Option.or_none]
  case steal =>
    have known : effectOf x.ins.op = some dqstealEff := by rw [ready.ins_eq rfl]; rfl
    have next := ready.exec_eq known
    by_cases far : 511 < v ∨ dieOf v ≠ dieOf x.core
    · rw [dqstealEff_far few rfl far] at next
      obtain ⟨⟨mem, passes, loads, regs, others⟩, -, steals⟩ := (DequeIs.refl s x).answered none ready.place
      refine ⟨_, _, next, mem, passes, loads, regs, others, fun _ => ⟨rfl, steals, x.stolen_none _⟩, fun low near => ?_, fun own low => ?_⟩
      · exact absurd far (by simp [low, near])
      · exact absurd far (by simpa [own] using own ▸ low)
    · have low : v ≤ 511 := by omega
      have near : dieOf v = dieOf x.core := by_contra fun other => far (.inr other)
      by_cases own : v = x.core
      · rw [dqstealEff_own few rfl low own] at next
        obtain ⟨⟨mem, passes, loads, regs, others⟩, deque, steals⟩ := (s.stealAt_deque x (s.group x.gid).ctx).answered
          (s.stealAt x.core (s.group x.gid).ctx).1 ready.place
        refine ⟨_, _, next, mem, passes, loads, regs, others, fun beyond => absurd beyond far, fun _ _ other => absurd own other,
          fun _ _ => ⟨rfl, steals, fun ctx => ?_⟩⟩
        rw [own] at ctx ⊢
        exact deque.trans ((s.stealAt_spec x.core (s.group x.gid).ctx).2.2 ctx)
      · rw [dqstealEff_sent few rfl low near own] at next
        have entered := s.newUniLoad_loads x x.ins.d 2 0 4
        obtain ⟨⟨mem, passes, loads, regs, others⟩, -⟩ := (DequeIs.refl s x).issued
          (((Queues.newUniLoad ..).trans (.newId ..)).trans (.sendSteal ..)) (.last entered rfl rfl) ready.place
        exact ⟨_, _, next, mem, passes, loads, regs, others, fun beyond => absurd beyond far,
          fun _ _ _ => ⟨rfl, _, State.advance_steals ..⟩, fun same => absurd same own⟩

end Sys2Proof.Machine
end

section
/-! Tile and matrix operations without an executing lane (R209, R231, R250, R263). -/

namespace Sys2Proof.Machine

/-- A ready operation issues with the effect of its row. -/
theorem Ready.exec_of_issue {s : State} {i : Instr} {x : Iss} (h : Ready s i x) {w : Words} (hw : i.words = some w) {eff : Iss → State → Eff}
    (runs : exec i s = issue (insOfWords w) eff s) : exec i s = .next ((eff x s).settle x) := by
  rw [runs, ← h.ins_eq hw]
  exact issue_ready eff h.issuer h.settled h.checks h.sound

/-- The operation code of MMRG names its two forms. -/
theorem mmrg_of_op {i : Instr} {w : Words} (hw : i.words = some w) (op : (insOfWords w).op = 0xDA) : ∃ f, i = .mmrg f ∨ i = .mmrgPeer f := by
  cases i
  case mmrg f => exact ⟨f, .inl rfl⟩
  case mmrgPeer f => exact ⟨f, .inr rfl⟩
  all_goals cases hw <;> cases op

/-- The operation code of SCTADV names its three forms. -/
theorem sctadv_of_op {i : Instr} {w : Words} (hw : i.words = some w) (op : (insOfWords w).op = 0xDF) :
    ∃ f, i = .sctadv f ∨ i = .sctadvAmax f ∨ i = .sctadvOff f := by
  cases i
  case sctadv f => exact ⟨f, .inl rfl⟩
  case sctadvAmax f => exact ⟨f, .inr (.inl rfl)⟩
  case sctadvOff f => exact ⟨f, .inr (.inr rfl)⟩
  all_goals cases hw <;> cases op

/-- An effect that does nothing where no lane executes. -/
def Idles (eff : Iss → State → Eff) : Prop := ∀ x s, x.exec = 0 → eff x s = .done s

theorem Idles.of_guard {eff rest : Iss → State → Eff} (guard : ∀ x s, eff x s = if x.exec = 0 then .done s else rest x s) : Idles eff :=
  fun x s idle => (guard x s).trans (if_pos idle)

/-- Of an operation with one effect for its code, that effect idles where the code is one of the tile and matrix group. -/
theorem effectOf_idles {op : Nat} (low : 0xD0 ≤ op) (high : op ≤ 0xDF) (mmrg : op ≠ 0xDA) (sctadv : op ≠ 0xDF) :
    ∃ eff, effectOf op = some eff ∧ Idles eff := by
  obtain rfl | rfl | rfl | rfl | rfl | rfl | rfl | rfl | rfl | rfl | rfl | rfl | rfl | rfl : op = 0xD0 ∨ op = 0xD1 ∨ op = 0xD2 ∨ op = 0xD3 ∨
      op = 0xD4 ∨ op = 0xD5 ∨ op = 0xD6 ∨ op = 0xD7 ∨ op = 0xD8 ∨ op = 0xD9 ∨ op = 0xDB ∨ op = 0xDC ∨ op = 0xDD ∨ op = 0xDE := by omega
  all_goals exact ⟨_, rfl, .of_guard fun _ _ => rfl⟩

/-- A ready operation of the tile and matrix group that no lane executes only goes on. -/
theorem Ready.idles {i : Instr} {s : State} {x : Iss} (ready : Ready s i x) (idle : x.exec = 0) (low : 0xD0 ≤ x.ins.op) (high : x.ins.op ≤ 0xDF) :
    exec i s = .next (s.advance x) := by
  obtain ⟨w, words, ins⟩ := Option.map_eq_some_iff.1 ready.word
  have next {eff : Iss → State → Eff} (h : Idles eff) (runs : exec i s = issue (insOfWords w) eff s) : exec i s = .next (s.advance x) := by
    rw [ready.exec_of_issue words runs, h x s idle]
    rfl
  by_cases mmrg : x.ins.op = 0xDA
  · obtain ⟨f, rfl | rfl⟩ := mmrg_of_op words (ins ▸ mmrg) <;> cases words
    · exact next (.of_guard fun _ _ => rfl) rfl
    · exact next (.of_guard fun _ _ => rfl) rfl
  by_cases sctadv : x.ins.op = 0xDF
  · obtain ⟨f, rfl | rfl | rfl⟩ := sctadv_of_op words (ins ▸ sctadv) <;> cases words
    · exact next (.of_guard fun _ _ => rfl) rfl
    · exact next (.of_guard fun _ _ => rfl) rfl
    · exact next (.of_guard fun _ _ => rfl) rfl
  obtain ⟨eff, known, idles⟩ := effectOf_idles low high mmrg sctadv
  exact next idles (exec_op words (ins ▸ known) s)

/-- Settles O34: the split goes on, and going on changes lanes, slots and the run alone. -/
theorem tileOperationsNeedALane : Obligations.TileOperationsNeedALane := by
  intro i s x ready idle low high
  exact ⟨_, ready.idles idle low high, (Queues.refl s x).advance ready.place.1 ready.place.2, State.advance_quads .., State.advance_ctxs ..,
    State.advance_group_ops .., State.advance_group_tl .., State.advance_group_loads .., State.advance_group_issued ..,
    State.advance_group_names .., State.advance_blocks .., State.advance_dies ..⟩

end Sys2Proof.Machine
end

section
/-! MLD, MST, MMOV and MZERO (R209, R211 to R213). -/

namespace Sys2Proof.Machine

/-! An operation that is queued. -/

/-- A TL operation counted and queued behind those before it (R173, R213). -/
def State.queueTl (s : State) (gid : Nat) (o : TlOp) : State :=
  (s.countOp gid 1 id).2.modGroup gid fun g => { g with tl := g.tl ++ [o] }

theorem State.queueTl_queues (s : State) (x : Iss) (o : TlOp) : Queues s (s.queueTl x.gid o) x :=
  (Queues.countOp s x 1 id).trans (.ofGroup rfl rfl)

theorem State.queueTl_group (s : State) (gid : Nat) (o : TlOp) : (s.queueTl gid o).group gid =
    { (s.countOp gid 1 id).2.group gid with tl := (s.group gid).tl ++ [o] } := by
  rw [State.queueTl, State.modGroup_self, State.countOp, State.modGroup_self]

theorem State.queueTl_counts (s : State) (gid : Nat) (o : TlOp) : ((s.queueTl gid o).group gid).counter 1 = (s.group gid).counter 1 + 1 ∧
    ((s.queueTl gid o).group gid).issuedOf 1 = (s.group gid).issuedOf 1 + 1 := by
  rw [State.queueTl_group]
  exact s.countOp_counts gid 1 (mk := id) fun _ => ⟨rfl, rfl⟩

/-- A ready operation that queues a TL operation, behind a release or none, goes on with it counted and last in its group's queue. -/
theorem Ready.queuesTl {i : Instr} {s u : State} {x : Iss} (ready : Ready s i x) {eff : Iss → State → Eff} {o : TlOp}
    (known : effectOf x.ins.op = some eff) (queues : eff x s = .done (u.queueTl x.gid o)) (before : Queues s u x)
    (same : u.group x.gid = s.group x.gid) :
    ∃ t, exec i s = .next t ∧ Kept s t x ∧ Counts s t x 1 ∧ (t.group x.gid).tl = (s.group x.gid).tl ++ [o] := by
  obtain ⟨next, kept⟩ := ready.kept known queues (before.trans (u.queueTl_queues x o))
  have counts := u.queueTl_counts x.gid o
  refine ⟨_, next, kept, ?_, ?_⟩
  · unfold Counts Group.counter Group.issuedOf
    rw [State.advance_group_ops, State.advance_group_issued, ← same]
    exact counts
  · rw [State.advance_group_tl, State.queueTl_group, same]

/-! MLD and MST. -/

section
variable (s : State) (x : Iss)

/-- The format of the tile that an MLD or MST names, as a slot word (R208). -/
def State.tileWord : Word := s.fmtSlot x.gid ((s.group x.gid).tile x.ins.d).slot

/-- The bytes of a row of that tile (R208). -/
def State.tileRow : Nat := rowBytes ((s.group x.gid).tile x.ins.d).cols (slotFormat (s.tileWord x)).width

/-- The pitch of its rows in the scratchpad: that of C, or the bytes of a row where C holds 0 (R209). -/
def State.tilePitch : Nat := if ((s.regs x).x x.ins.c 0).toNat = 0 then s.tileRow x else ((s.regs x).x x.ins.c 0).toNat

/-- The address of its scale bytes (R209). -/
def State.tilePlane : Nat := ((s.regs x).x (x.ins.c + 1) 0).toNat

/-- The scratchpad addresses of its rows (R211). -/
def State.tileRows : List Nat := rowAddrs ((s.regs x).saddr x 0) (s.tilePitch x) ((s.group x.gid).tile x.ins.d).rows

/-- TILECHECK passes (R211). -/
structure TileSound : Prop where
  shaped : ((s.group x.gid).tile x.ins.d).shaped = true
  slot : slotOk (s.tileWord x) = true
  base : (s.regs x).saddr x 0 % 4 = 0
  pitch : s.tilePitch x % 4 = 0
  rows : ∀ a ∈ s.tileRows x, (s.blockOf x).extentAddr a (s.tileRow x) = none
  plane : slotScale (s.tileWord x) = 2 → (s.blockOf x).extentAddr (s.tilePlane x)
    (planeBytes ((s.group x.gid).tile x.ins.d).rows ((s.group x.gid).tile x.ins.d).cols) = none

/-- The scope of the release that the issue of an MLD or MST is (R213, R282). -/
def State.tileScope : Nat :=
  (s.blockOf x).tlScope x.core (s.tileRows x ++ if slotScale (s.tileWord x) = 2 then [s.tilePlane x] else [])

/-- That release (R213). -/
def State.tileRelease : List Nat × State := s.startRelease x.gid x.core x.active (s.tileScope x)

theorem State.tileRelease_group (g : Nat) : (s.tileRelease x).2.group g = s.group g := by
  rw [State.tileRelease, State.startRelease_rest]
  rfl

/-- The operation that an MLD or MST queues, with what it captures as it issues (R211, R213). -/
def State.tileOp (store : Bool) : TlOp :=
  let t := (s.group x.gid).tile x.ins.d
  { kind := if store then 1 else 0, n := ((s.tileRelease x).2.group x.gid).issuedOf 1, tile := x.ins.d, src := 0
    base := (s.regs x).saddr x 0, pitch := s.tilePitch x, plane := s.tilePlane x, rows := t.rows, cols := t.cols, fmt := s.tileWord x
    deps := (s.tileRelease x).1 ++ (s.spads.filter fun m => m.gid == x.gid && !m.done).map (·.id) ++
      (if store then [] else s.tileReaders x.gid x.ins.d)
    mx := s.tileWriters x.gid x.ins.d
    amx := if store && (s.group x.gid).amxEn && !x.handler then some (s.group x.gid).amxIdx else none }

end

/-- Where TILECHECK passes and the counter has room, the operation is queued behind its release (R211, R213). -/
theorem tileMoveEff_eq {s : State} {x : Iss} {store : Bool} (runs : x.exec ≠ 0) (sound : TileSound s x)
    (wide : store = true → s.tileRow x ≤ s.tilePitch x) (room : s.counterFull x.gid 1 = false) :
    tileMoveEff store x s = .done ((s.tileRelease x).2.queueTl x.gid (s.tileOp x store)) := by
  obtain ⟨shaped, slot, base, pitch, rows, plane⟩ := sound
  have whole : ¬ (store && decide (s.tilePitch x < s.tileRow x)) = true := by simpa using wide
  have inside : (s.tileRows x).findSome? (fun a => (s.blockOf x).extentAddr a (s.tileRow x)) = none := List.findSome?_eq_none_iff.2 rows
  have scales : (if slotScale (s.tileWord x) = 2 then (s.blockOf x).extentAddr (s.tilePlane x)
      (planeBytes ((s.group x.gid).tile x.ins.d).rows ((s.group x.gid).tile x.ins.d).cols) else none) = none := by
    split
    next scaled => exact plane scaled
    next => rfl
  unfold State.tileRows State.tilePlane State.tilePitch State.tileRow State.tileWord at *
  rw [tileMoveEff, if_neg runs]
  dsimp only
  rw [if_neg (by simp [shaped]), if_neg (by simp [slot]), if_neg whole, if_neg (by simp [base, pitch]), inside]
  dsimp only
  rw [scales]
  dsimp only
  rw [if_neg (by simp [room])]
  rfl

/-- A ready MLD or MST whose descriptor passes is queued with what it captured. -/
theorem Ready.movesTile {i : Instr} {s : State} {x : Iss} {store : Bool} (ready : Ready s i x) (known : effectOf x.ins.op = some (tileMoveEff store))
    (runs : x.exec ≠ 0) (sound : TileSound s x) (wide : store = true → s.tileRow x ≤ s.tilePitch x) (room : s.counterFull x.gid 1 = false) :
    ∃ t, exec i s = .next t ∧ Kept s t x ∧ Counts s t x 1 ∧ (t.group x.gid).tl = (s.group x.gid).tl ++ [s.tileOp x store] :=
  ready.queuesTl known (tileMoveEff_eq runs sound wide room) (.startRelease ..) (s.tileRelease_group x x.gid)

theorem State.tileOp_n (s : State) (x : Iss) (store : Bool) : (s.tileOp x store).n = (s.group x.gid).issuedOf 1 :=
  congrArg (Group.issuedOf · 1) (s.tileRelease_group x x.gid)

/-! MMOV and MZERO. -/

/-- The operation that an MMOV or MZERO queues; an MMOV takes the shape its source has (R212). -/
def State.fileOp (s : State) (x : Iss) (kind : Nat) : TlOp :=
  let t := (s.group x.gid).tile x.ins.a
  { kind := kind, n := (s.group x.gid).issuedOf 1, tile := x.ins.d, src := x.ins.a, base := 0, pitch := 0, plane := 0, rows := t.rows, cols := t.cols
    fmt := 0, slot := t.slot, shaped := t.shaped, deps := s.tileReaders x.gid x.ins.d
    mx := s.tileWriters x.gid x.ins.d ++ (if kind = 2 then s.tileWriters x.gid x.ins.a else []), amx := none }

theorem tileFileEff_eq {s : State} {x : Iss} {kind : Nat} (runs : x.exec ≠ 0) (room : s.counterFull x.gid 1 = false) :
    tileFileEff kind x s = .done (s.queueTl x.gid (s.fileOp x kind)) := by
  rw [tileFileEff, if_neg runs, if_neg (by simp [room])]
  rfl

/-- A ready MMOV or MZERO is queued. -/
theorem Ready.filesTile {i : Instr} {s : State} {x : Iss} {kind : Nat} (ready : Ready s i x) (known : effectOf x.ins.op = some (tileFileEff kind))
    (runs : x.exec ≠ 0) (room : s.counterFull x.gid 1 = false) :
    ∃ t, exec i s = .next t ∧ Kept s t x ∧ Counts s t x 1 ∧ (t.group x.gid).tl = (s.group x.gid).tl ++ [s.fileOp x kind] :=
  ready.queuesTl known (tileFileEff_eq runs room) (.refl s x) rfl

/-- Settles O35: each of the four queues one operation, which holds what its row names. -/
theorem tileOperationsAreQueued : Obligations.TileOperationsAreQueued := by
  intro f s x tile word rb base p0 pitch plane b sound queued room runs
  have passes : sound → TileSound s x := fun ⟨shaped, slot, ⟨base, pitch, rows, plane⟩⟩ => ⟨shaped, slot, base, pitch, rows, plane⟩
  refine ⟨fun ready ok => ?mld, fun ready ok wide => ?mst, fun ready => ?mmov, fun ready => ?mzero⟩
  case mld =>
    obtain ⟨t, next, kept, counts, last⟩ := ready.movesTile (store := false) (by rw [ready.ins_eq rfl]; rfl) runs (passes ok) (by simp) room
    exact ⟨t, next, kept, counts, _, last, rfl, rfl, s.tileOp_n x false, rfl, rfl, rfl, rfl, rfl, rfl⟩
  case mst =>
    obtain ⟨t, next, kept, counts, last⟩ := ready.movesTile (store := true) (by rw [ready.ins_eq rfl]; rfl) runs (passes ok) (fun _ => wide) room
    exact ⟨t, next, kept, counts, _, last, rfl, rfl, s.tileOp_n x true, rfl, rfl, rfl, rfl, rfl, rfl⟩
  case mmov =>
    obtain ⟨t, next, kept, counts, last⟩ := ready.filesTile (kind := 2) (by rw [ready.ins_eq rfl]; rfl) runs room
    exact ⟨t, next, kept, counts, _, last, rfl, rfl, rfl, rfl, rfl, rfl, rfl, rfl⟩
  case mzero =>
    obtain ⟨t, next, kept, counts, last⟩ := ready.filesTile (kind := 3) (by rw [ready.ins_eq rfl]; rfl) runs room
    exact ⟨t, next, kept, counts, _, last, rfl, rfl, rfl, trivial⟩

end Sys2Proof.Machine
end

section
/-! MSHP, EMSK, SCTADV and SCTRD (R210, R232, R262, R263). -/

namespace Sys2Proof.Machine

/-! What sets something of its group. -/

/-- The issuing group stands as `g` but for where its lanes stand, the split has gone on, and no byte of memory, no context and no other group
has changed. -/
structure Sets (s t : State) (x : Iss) (g : Group) : Prop where
  group : t.group x.gid = { g with lanes := (t.group x.gid).lanes, slots := (t.group x.gid).slots }
  passes : Passes s t x
  mem : t.mem = s.mem
  ctxs : t.ctxs = s.ctxs
  others : ∀ j, j ≠ x.gid → t.group j = s.group j

/-- A ready operation that changes of its group neither lanes and slots nor its place goes on with that change, whatever its code. -/
theorem Ready.sets {i : Instr} {s : State} {x : Iss} (ready : Ready s i x) {w : Words} (words : i.words = some w) {eff : Iss → State → Eff}
    {f : Group → Group} (runs : exec i s = issue (insOfWords w) eff s) (change : eff x s = .done (s.modGroup x.gid f))
    (lanes : (f (s.group x.gid)).lanes = (s.group x.gid).lanes) (slots : (f (s.group x.gid)).slots = (s.group x.gid).slots)
    (core : (f (s.group x.gid)).core = (s.group x.gid).core) (part : (f (s.group x.gid)).part = (s.group x.gid).part) :
    ∃ t, exec i s = .next t ∧ Sets s t x (f (s.group x.gid)) := by
  have next := ready.exec_of_issue words runs
  rw [change, Eff.settle] at next
  have self := s.modGroup_self x.gid f
  have kept := (Queues.refl (s.modGroup x.gid f) x).advance (by rw [self, core]; exact ready.place.1) (by rw [self, part]; exact ready.place.2)
  exact ⟨_, next, by rw [State.advance_group, self], kept.passes.of_same (by rw [self, lanes]) (by rw [self, slots]) rfl,
    State.advance_mem .., State.advance_ctxs .., fun j other => (kept.others j other).trans (s.modGroup_ne other f)⟩

/-- The word of an MSHP gives a shape that a tile of a slot's format has room for (R208, R210). -/
structure ShapeFits (slot : Word) (v : Nat) : Prop where
  ok : slotOk slot = true
  high : bitsOf v 31 27 = 0
  mid : bitsOf v 15 9 = 0
  someRows : v % 512 ≠ 0
  fewRows : v % 512 ≤ 256
  someCols : bitsOf v 26 16 ≠ 0
  fewCols : bitsOf v 26 16 ≤ 1024
  bytes : v % 512 * rowBytes (bitsOf v 26 16) (slotFormat slot).width ≤ 8192

/-- An MSHP whose shape fits a tile gives it that shape (R210). -/
theorem mshpEff_eq {s : State} {x : Iss} {v : Nat} (runs : x.exec ≠ 0) (word : ((s.regs x).x x.ins.a 0).toNat = v)
    (fits : ShapeFits (s.fmtSlot x.gid x.ins.c) v) : mshpEff x s = .done (s.modGroup x.gid fun g =>
      g.setTile x.ins.d { g.tile x.ins.d with rows := v % 512, cols := bitsOf v 26 16, slot := x.ins.c, shaped := true }) := by
  obtain ⟨ok, high, mid, someRows, fewRows, someCols, fewCols, bytes⟩ := fits
  rw [mshpEff, if_neg runs, word]
  dsimp only
  rw [if_neg (by simp [ok]), if_neg (by omega)]

/-! The scale table. -/

/-- SCTADV of OPX 0 with no recording to wait for advances the table of its context (R263). -/
theorem sctadvEff_eq {s : State} {x : Iss} (runs : x.exec ≠ 0) (still : s.recordsWait x = false) :
    sctadvEff x s = .done (s.modCtx (s.group x.gid).ctx fun c => { c with scale := c.scale.advance ((s.regs x).x x.ins.a 0) }) := by
  rw [sctadvEff, if_neg runs, if_neg (by simp [still])]

/-- SCTRD with no recording to wait for enters a load that the maximum of its entry answers at once (R263). -/
theorem sctrdEff_eq {s : State} {x : Iss} (runs : x.exec ≠ 0) (still : s.recordsWait x = false) (few : s.loadCount x < 32) :
    sctrdEff x s = .done ((s.newUniLoad x x.ins.d 1 0 4).2.returnWords x.gid s.nextId
      [(x.ins.d, [BitVec.ofNat 32 ((s.ctx (s.group x.gid).ctx).scale.top (((s.regs x).x x.ins.a 0).toNat % 256))])]) := by
  rw [sctrdEff, if_neg runs, if_neg (by simp [still]), withLoadRoom_of_lt few]
  rfl

/-- Settles O36: four of the operations change their group, SCTADV of OPX 0 its context, and SCTRD enters a load that is answered. -/
theorem shapesMasksAndScalesAreSet : Obligations.ShapesMasksAndScalesAreSet := by
  intro f s x r g v word m set runs
  have all {t : State} {h : Group} : Sets s t x h → set t h := fun ⟨group, passes, mem, ctxs, others⟩ => ⟨group, passes, mem, ctxs, others⟩
  refine ⟨fun ready slot high mid someRows fewRows someCols fewCols bytes => ?mshp, fun ready => ?emsk, fun ready => ?amax, fun ready => ?off,
    fun ready still => ?advance, fun ready still few => ?read⟩
  case mshp =>
    obtain ⟨t, next, sets⟩ := ready.sets rfl rfl (mshpEff_eq runs rfl ⟨slot, high, mid, someRows, fewRows, someCols, fewCols, bytes⟩) rfl rfl rfl rfl
    exact ⟨t, next, all sets⟩
  case emsk =>
    obtain ⟨t, next, sets⟩ := ready.sets (f := fun g => { g with edges := g.edges.set x.ins.d m }) rfl rfl (if_neg runs) rfl rfl rfl rfl
    exact ⟨t, next, all sets⟩
  case amax =>
    obtain ⟨t, next, sets⟩ := ready.sets (f := fun g => { g with amxEn := true, amxIdx := v % 256 }) rfl rfl (if_neg runs) rfl rfl rfl rfl
    exact ⟨t, next, all sets⟩
  case off =>
    obtain ⟨t, next, sets⟩ := ready.sets (f := fun g => { g with amxEn := false }) rfl rfl (if_neg runs) rfl rfl rfl rfl
    exact ⟨t, next, all sets⟩
  case advance =>
    have next := ready.exec_of_issue (eff := sctadvEff) rfl rfl
    rw [sctadvEff_eq runs still, Eff.settle] at next
    refine ⟨_, next, (Queues.modCtx ..).advance ready.place.1 ready.place.2, ?_, fun c other => ?_⟩
    · rw [State.advance_ctx, State.modCtx_self]
    · rw [State.advance_ctx, State.modCtx_ne _ other]
  case read =>
    obtain ⟨next, kept⟩ := ready.kept (eff := sctrdEff) (by rw [ready.ins_eq rfl]; rfl) (sctrdEff_eq runs still few)
      ((Queues.newUniLoad ..).trans (.returnWords ..))
    refine ⟨_, _, next, kept, .answered (l := x.uniLoad s.nextId x.ins.d 1 0 4) (s.newUniLoad_loads ..) rfl rfl _, rfl, ?_, fun asks => ?_⟩
    · rw [State.advance_ctxs, State.returnWords_rest]
      rfl
    · exact List.filter_eq_self.2 (by simpa using asks)

end Sys2Proof.Machine
end

section
/-! MX_COMPLETE (R172, R243). -/

namespace Sys2Proof.Machine

/-- An MX operation whose work has ended. -/
def endedMx : EngOp := { cls := 2, n := 0, work := true }

/-- The one group runs, and that operation is its only one. -/
def mxEnded : State := (State.reset.withFetchWord 16 0).modGroup 0 fun g => { g with ops := [endedMx], issued := [(2, 1)] }

/-- The operation once it is reported, which its core, whose clock runs, takes at its next cycle boundary (R172). -/
def reportedMx : EngOp := { endedMx with due := true }

/-- What MX_COMPLETE leaves. -/
def mxReported : State := mxEnded.reportMx 0 [endedMx]

theorem mxEnded_completes : exec (.mxComplete 0) mxEnded = .next mxReported := rfl

/-- The oldest outstanding operation is then one that is reported. -/
theorem mxReported_oldest : (mxReported.group 0).oldest 2 = some reportedMx := rfl

theorem mxReported_batch : (mxReported.group 0).mxBatch reportedMx = [] := rfl

/-- With no operation left to report MX_COMPLETE is refused. -/
theorem mxReported_refuses : exec (.mxComplete 0) mxReported = .refused (.notEnabled "MX_COMPLETE") := rfl

/-- Refutes O46: between MX_COMPLETE and the cycle boundary at which the core takes the report (R172), the oldest outstanding MX operation of a group
is one that is reported already. The statement asks for another MX_COMPLETE there, which the model refuses, as nothing is left to report. -/
theorem not_engineEventsComplete : ¬ Obligations.EngineEventsComplete := by
  intro h
  obtain ⟨-, -, -, -, -, -, -, -, -, -, complete, -⟩ := h mxReported mxReported 0 0 0 default
  have next := complete reportedMx mxReported_oldest (by simp [mxReported_batch])
  rw [mxReported_refuses] at next
  cases next

end Sys2Proof.Machine
end

section
/-! MDRNA into a slot of another group (R237). -/

namespace Sys2Proof.Machine

/-- Two groups of one block run; g0 of the first names slot 0 of the second. -/
def addsToPeer : State :=
  let s := State.reset.withFetchWord 16 0
  { s with
    groups := [(0, { s.group 0 with g := 1 :: List.replicate 159 0 }), (1, { s.group 0 with index := 1, part := 1 })]
    blocks := [(0, { s.block 0 with groups := [0, 1], ngroups := 2 })] }

/-- MDRNA of slot 0, its word in g0. -/
def addSlot : W64F := { m12 := 0, c := 0, b := 128, a := 0, d := 0, gn := 0, g := 7, st := 0, e := 0 }

/-- The issue of that MDRNA in slot 0 of the first group. -/
def addIssue : Iss := addsToPeer.issAt 0 0 (insW64 0xDC addSlot)

theorem addIssue_ready : Ready addsToPeer (.mdrna addSlot) addIssue where
  word := rfl
  issuer := by decide +kernel
  settled := by decide +kernel
  checks := by decide +kernel
  sound := by decide +kernel

/-- The state that this MDRNA leaves. -/
def addEntered : State := (mdrnaEff addIssue addsToPeer).settle addIssue

theorem addSlot_completes : exec (.mdrna addSlot) addsToPeer = .next addEntered := addIssue_ready.exec_eq rfl

/-- Its request stands alone in the table of the quad, and the C of that request is the code of no slot. -/
theorem addEntered_table : (addEntered.quad (quadOf addIssue.core)).table.map (·.c) = [288] := by decide +kernel

/-- Refutes O37: a request of MDRNA does not keep the C field of its instruction, which is 0. It holds there the slot of its own group that it adds
into, or 288 where it adds into another group's (R237, R240); the statement asks for the field in every request. -/
theorem not_matrixOperationsEnterTheTable : ¬ Obligations.MatrixOperationsEnterTheTable := by
  intro h
  obtain ⟨-, -, -, adds, -⟩ := h addSlot addsToPeer addIssue (by decide +kernel) (by decide +kernel)
  obtain ⟨t, next, -, -, e, stands, -, -, -, -, -, -, field, -⟩ :=
    adds addIssue_ready (by decide +kernel) (by decide +kernel) (by decide +kernel) fun own => absurd own (by decide +kernel)
  obtain rfl := Host.Outcome.next.inj (addSlot_completes.symm.trans next)
  have codes := List.mem_map_of_mem (f := Req.c) stands
  rw [addEntered_table, List.mem_singleton, field] at codes
  cases codes

end Sys2Proof.Machine
end

section
/-! MCNT, MQCH and MMRG (R248, R250, R251, R254 to R257). -/

namespace Sys2Proof.Machine

/-! The planes of a quad. -/

theorem State.modPlane_planes_length (s : State) (qd k j : Nat) (f : Plane → Plane) :
    ((s.modPlane qd k f).quad j).planes.length = (s.quad j).planes.length := by
  rw [State.modPlane, State.modQuad_get]
  split
  next same => rw [List.length_set, same]
  next => rfl

theorem State.modPlane_self (s : State) {qd k : Nat} (listed : k < (s.quad qd).planes.length) (f : Plane → Plane) :
    (s.modPlane qd k f).plane qd k = f (s.plane qd k) := by
  rw [State.plane, State.modPlane, State.modQuad_self, Quad.plane, List.getD_eq_getElem?_getD, List.getElem?_set_self listed]
  rfl

theorem State.modPlane_ne (s : State) {qd k j n : Nat} (other : ¬ (j = qd ∧ n = k)) (f : Plane → Plane) :
    (s.modPlane qd k f).plane j n = s.plane j n := by
  rw [State.plane, State.modPlane, State.modQuad_get]
  split
  next same =>
    subst same
    rw [Quad.plane, List.getD_eq_getElem?_getD, List.getElem?_set_ne fun k_n => other ⟨rfl, k_n.symm⟩, ← List.getD_eq_getElem?_getD]
    rfl
  next => rfl

/-- A plane without depth and XFER is released: its record is clear, its counters and FAIL stay (R248). -/
theorem Plane.tryRelease_eq (p : Plane) : p.tryRelease = if p.xfer = false ∧ p.depth.all (· == 0) = true then
    { p with owner := none, fmt := 0, mode := 0, tsa := false, tsb := false, depth := [0, 0, 0, 0] } else p := by
  have closed : p.opened = !p.depth.all (· == 0) := by simp [Plane.opened, List.not_all_eq_any_not, bne]
  rw [Plane.tryRelease, closed, Bool.not_not]
  by_cases idle : p.xfer = false ∧ p.depth.all (· == 0) = true
  · rw [if_pos idle, if_pos (by simp only [idle, Bool.not_false, Bool.and_self]), Plane.release, idle.1]
  · rw [if_neg idle, if_neg fun clear => idle ?_]
    simpa [and_comm] using clear

/-! A request that enters. -/

@[simp] theorem State.addReq_plane (s : State) (qd j k : Nat) (e : Req) : (s.addReq qd e).plane j k = s.plane j k := by
  rw [State.plane, State.addReq, State.modQuad_get]
  split
  next same => rw [same]; rfl
  next => rfl

/-- A request that enters a table stands there as it was but for what it waits for (R239, R240). -/
theorem State.addReq_mem (s : State) (qd : Nat) (e : Req) :
    ∃ before rd, { e with before := before, rd := rd } ∈ ((s.addReq qd e).quad qd).table := by
  rw [State.addReq, State.modQuad_self]
  exact ⟨_, _, List.mem_append_right _ (List.mem_singleton.2 rfl)⟩

/-- No request leaves a table as another enters one. -/
theorem State.addReq_keeps (s : State) {qd j : Nat} {e f : Req} (stands : f ∈ (s.quad j).table) : f ∈ ((s.addReq qd e).quad j).table := by
  rw [State.addReq, State.modQuad_get]
  split
  next same => exact List.mem_append_left _ (same ▸ stands)
  next => exact stands

/-- A request has what the issuing instruction names and captures, for its quarters at least (R239). -/
structure Req.Captures (e : Req) (s : State) (x : Iss) : Prop where
  gid : e.gid = x.gid
  op : e.op = x.ins.op
  d : e.d = x.ins.d
  a : e.a = x.ins.a
  b : e.b = x.ins.b
  c : e.c = x.ins.c
  m12 : e.m12 = x.ins.m12
  edges : (e.er, e.ec) = s.edges x
  quarters : ∀ q ∈ x.quarters, q ∈ e.q

theorem State.request_captures (s : State) (x : Iss) : (s.request x).Captures s x := ⟨rfl, rfl, rfl, rfl, rfl, rfl, rfl, rfl, fun _ h => h⟩

/-- What it names and captures stays as the rest of the request is filled in. -/
theorem Req.Captures.change {e f : Req} {s : State} {x : Iss} (captures : e.Captures s x) (same : f = { e with
    id := f.id, n := f.n, sa := f.sa, sb := f.sb, m := f.m, k := f.k, nn := f.nn, xa := f.xa, xb := f.xb, word := f.word, tl := f.tl
    before := f.before, rd := f.rd, d0 := f.d0, held := f.held, arrived := f.arrived, rel := f.rel }) : f.Captures s x := by
  obtain ⟨gid, op, d, a, b, c, m12, edges, quarters⟩ := captures
  rw [same]
  exact ⟨gid, op, d, a, b, c, m12, edges, quarters⟩

/-- A request that captures the instruction and counts its operation is the one that enters. -/
theorem Req.Captures.enters {e : Req} {s t : State} {x : Iss} (captures : e.Captures s x) (stands : e ∈ (t.quad (quadOf x.core)).table)
    (number : (s.group x.gid).issuedOf 2 ∈ e.n) : Enters s t x :=
  ⟨e, stands, captures.gid, captures.op, number, captures.d, captures.a, captures.b, captures.c, captures.m12, captures.edges, captures.quarters⟩

/-- A request that another fuses into has its fields, and the quarters of both (R241). -/
theorem Req.Captures.fused {e f : Req} {s : State} {x : Iss} (captures : e.Captures s x) (fuses : e.fuses f = true) (n : List Nat) (held : Bool) :
    Req.Captures { f with n := n, q := f.q ++ e.q, held := held } s x := by
  simp only [Req.fuses, Bool.and_eq_true, beq_iff_eq] at fuses
  obtain ⟨⟨⟨⟨⟨⟨⟨⟨⟨⟨⟨⟨-, gid⟩, op⟩, d⟩, a⟩, b⟩, c⟩, m12⟩, er⟩, ec⟩, -⟩, -⟩, -⟩ := fuses
  exact ⟨gid.trans captures.gid, op.trans captures.op, d.trans captures.d, a.trans captures.a, b.trans captures.b, c.trans captures.c,
    m12.trans captures.m12, (Prod.ext er ec).trans captures.edges, fun q mine => List.mem_append_right _ (captures.quarters q mine)⟩

theorem State.addReq_enters {s u : State} {x : Iss} {e : Req} (captures : e.Captures s x) (number : (s.group x.gid).issuedOf 2 ∈ e.n) :
    Enters s (u.addReq (quadOf x.core) e) x := by
  obtain ⟨before, rd, stands⟩ := u.addReq_mem (quadOf x.core) e
  exact (captures.change rfl).enters stands number

/-- What enterReq leaves: the operation counted, and its request in the table, alone or fused (R239, R241). -/
theorem State.enterReq_enters {s u : State} {x : Iss} {e : Req} (captures : e.Captures s x) (same : u.group x.gid = s.group x.gid) :
    Enters s (u.enterReq x e) x := by
  have number : (s.group x.gid).issuedOf 2 ∈ [(u.countOp x.gid 2 id).1] := List.mem_singleton.2 (congrArg (Group.issuedOf · 2) same.symm)
  rw [State.enterReq]
  dsimp only
  split
  next f found =>
    have joins := List.find?_some found
    simp only [State.joins, Bool.and_eq_true] at joins
    refine (captures.fused joins.1.1 (f.n ++ [(u.countOp x.gid 2 id).1]) (decide ((f.q ++ e.q).length < 4))).enters ?_
      (List.mem_append_right _ number)
    rw [State.modGroup_quad, State.modQuad_self]
    exact List.mem_map.2 ⟨f, List.mem_of_find?_eq_some found, if_pos rfl⟩
  next => exact State.addReq_enters (captures.change rfl) number

theorem State.enterReq_counts {s u : State} {x : Iss} (e : Req) (same : u.group x.gid = s.group x.gid) : Counts s (u.enterReq x e) x 2 := by
  have counts := u.countOp_counts x.gid 2 (mk := id) fun _ => ⟨rfl, rfl⟩
  rw [same] at counts
  rw [State.enterReq]
  dsimp only
  split
  next =>
    rw [Counts, State.modGroup_self, State.modQuad_group]
    refine ⟨?_, counts.2⟩
    rw [← counts.1, Group.counter, List.filter_map, List.length_map, Group.counter]
    congr 2
    funext o
    simp only [Function.comp]
    split <;> rfl
  next => exact counts

@[simp] theorem State.enterReq_plane (s : State) (x : Iss) (e : Req) (j k : Nat) : (s.enterReq x e).plane j k = s.plane j k := by
  rw [State.enterReq]
  dsimp only
  split
  next =>
    rw [State.plane, State.modGroup_quad, State.modQuad_get]
    split
    next same => rw [same]; rfl
    next => rfl
  next => exact State.addReq_plane ..

/-- A ready operation that is counted and whose request enters completes with both, and with the planes as its effect leaves them. -/
theorem Ready.counted {i : Instr} {s u : State} {x : Iss} (ready : Ready s i x) {w : Words} (words : i.words = some w) {eff : Iss → State → Eff}
    (runs : exec i s = issue (insOfWords w) eff s) (effect : eff x s = .done u) (queues : Queues s u x) (counts : Counts s u x 2)
    (enters : Enters s u x) :
    ∃ t, exec i s = .next t ∧ Kept s t x ∧ Counts s t x 2 ∧ Enters s t x ∧ ∀ j k, t.plane j k = u.plane j k := by
  have next := ready.exec_of_issue words runs
  rw [effect, Eff.settle] at next
  refine ⟨_, next, queues.advance ready.place.1 ready.place.2, ?_, ?_, State.advance_plane u x⟩
  · unfold Counts Group.counter Group.issuedOf
    rw [State.advance_group_ops, State.advance_group_issued]
    exact counts
  · rw [Enters, State.advance_quad]
    exact enters

/-- The case of a request that enters the quad of its issuing core, once planes have changed there. -/
theorem Ready.countedHere {i : Instr} {s u : State} {x : Iss} {e : Req} (ready : Ready s i x) {w : Words} (words : i.words = some w)
    {eff : Iss → State → Eff} (runs : exec i s = issue (insOfWords w) eff s) (effect : eff x s = .done (u.enterReq x e))
    (queues : Queues s u x) (same : u.group x.gid = s.group x.gid) (captures : e.Captures s x) :
    ∃ t, exec i s = .next t ∧ Kept s t x ∧ Counts s t x 2 ∧ Enters s t x ∧ ∀ j k, t.plane j k = u.plane j k := by
  obtain ⟨t, next, kept, counts, enters, planes⟩ := ready.counted words runs effect (queues.trans (.enterReq u x e))
    (State.enterReq_counts e same) (State.enterReq_enters captures same)
  exact ⟨t, next, kept, counts, enters, fun j k => (planes j k).trans (u.enterReq_plane x e j k)⟩

/-! MCNT. -/

section
variable (s : State) (x : Iss)

/-- The operands of an MCNT pass: its tiles are of one format, E2M1 or INT4, of shapes that multiply, and block-scaled both or neither (R251). -/
structure CountOperands (m k n : Nat) : Prop where
  shapedA : ((s.group x.gid).tile x.ins.a).shaped = true
  shapedB : ((s.group x.gid).tile x.ins.b).shaped = true
  okA : slotOk (s.fmtSlot x.gid x.ins.sa) = true
  okB : slotOk (s.fmtSlot x.gid x.ins.sb) = true
  slotA : x.ins.sa = ((s.group x.gid).tile x.ins.a).slot
  slotB : x.ins.sb = ((s.group x.gid).tile x.ins.b).slot
  shapes : opShapes x.ins.ta x.ins.tb ((s.group x.gid).tile x.ins.a) ((s.group x.gid).tile x.ins.b) = (m, k, k, n)
  rows : m ≤ 64
  cols : n ≤ 64
  formats : slotFormat (s.fmtSlot x.gid x.ins.sa) = slotFormat (s.fmtSlot x.gid x.ins.sb)
  counted : slotFormat (s.fmtSlot x.gid x.ins.sa) = .e2m1 ∨ slotFormat (s.fmtSlot x.gid x.ins.sa) = .int4
  blocked : slotScale (s.fmtSlot x.gid x.ins.sa) = 2 ↔ slotScale (s.fmtSlot x.gid x.ins.sb) = 2
  inside : slotScale (s.fmtSlot x.gid x.ins.sa) = 2 → x.ins.c < (s.group x.gid).budC
  unused : slotScale (s.fmtSlot x.gid x.ins.sa) ≠ 2 → x.ins.c = 0

/-- The record of its plane once an MCNT of depth `k` has issued (R251). -/
def State.countRecord (k : Nat) : Plane :=
  let p := s.plane (quadOf x.core) x.ins.d
  let sa := s.fmtSlot x.gid x.ins.sa
  { p with
    owner := some x.gid, fmt := (slotFormat sa == .int4).toNat, mode := (slotScale sa == 2).toNat, tsa := slotScale sa == 1
    tsb := slotScale (s.fmtSlot x.gid x.ins.sb) == 1
    depth := if slotScale sa == 2 then p.depth else p.depth.mapIdx fun j d => if x.quarters.contains j then d + k else d }

/-- Its plane takes an MCNT of depth `k`: it is free or the group's, an open window has the same fields, and no depth passes 127 (R248, R251). -/
structure CountPlane (k : Nat) : Prop where
  free : (s.plane (quadOf x.core) x.ins.d).blocks x.gid = false
  window : (s.plane (quadOf x.core) x.ins.d).opened = true →
    (s.plane (quadOf x.core) x.ins.d).fmt = (s.countRecord x k).fmt ∧ (s.plane (quadOf x.core) x.ins.d).mode = (s.countRecord x k).mode ∧
      (s.plane (quadOf x.core) x.ins.d).tsa = (s.countRecord x k).tsa ∧ (s.plane (quadOf x.core) x.ins.d).tsb = (s.countRecord x k).tsb
  depths : slotScale (s.fmtSlot x.gid x.ins.sa) ≠ 2 → ∀ j ∈ x.quarters, (s.plane (quadOf x.core) x.ins.d).dep j + k ≤ 127

end

/-- An MCNT whose operands and plane pass changes its plane's record and enters its request (R251). -/
theorem mcntEff_eq {s : State} {x : Iss} {m k n : Nat} (runs : x.exec ≠ 0) (room : s.mxFull x = false) (operands : CountOperands s x m k n)
    (plane : CountPlane s x k) : mcntEff x s = .done ((s.modPlane (quadOf x.core) x.ins.d fun _ => s.countRecord x k).enterReq x
      { s.request x with sa := s.fmtSlot x.gid x.ins.sa, sb := s.fmtSlot x.gid x.ins.sb, m := m, k := k, nn := n }) := by
  obtain ⟨shapedA, shapedB, okA, okB, slotA, slotB, shapes, rows, cols, formats, counted, blocked, inside, unused⟩ := operands
  obtain ⟨free, window, depths⟩ := plane
  have shallow : (if slotScale (s.fmtSlot x.gid x.ins.sa) == 2 then none
      else x.quarters.find? fun j => decide ((s.plane (quadOf x.core) x.ins.d).dep j + k > 127)) = none := by
    split
    next => rfl
    next unscaled =>
      refine List.find?_eq_none.2 fun j mine => ?_
      simpa using depths (by simpa using unscaled) j mine
  rw [mcntEff, if_neg runs]
  dsimp only
  rw [shapes]
  dsimp only
  rw [if_neg (by simp [shapedA, shapedB]), if_neg (by simp [slotA, slotB]), if_neg (by simp [okA, okB]), if_neg (by omega),
    if_neg ?formats, if_neg (by simpa using inside), if_neg (by simpa using unused), if_neg (by simp [free]), if_neg ?window, shallow]
  dsimp only
  rw [if_neg (by simp [room])]
  · rfl
  case formats =>
    have alike : (slotScale (s.fmtSlot x.gid x.ins.sa) == 2) = (slotScale (s.fmtSlot x.gid x.ins.sb) == 2) :=
      Bool.eq_iff_iff.2 (by simpa using blocked)
    rintro (differ | other | differ)
    · exact differ formats
    · exact counted.elim other.1 other.2
    · exact differ alike
  case window =>
    rw [Bool.and_eq_true]
    rintro ⟨opened, differs⟩
    obtain ⟨fmt, mode, tsa, tsb⟩ := window opened
    simp [fmt, mode, tsa, tsb, State.countRecord] at differs

/-! MQCH. -/

/-- A record with depth 0 in some bands (R254, R255). -/
def Plane.zeroed (p : Plane) (q : List Nat) : Plane := { p with depth := p.depth.mapIdx fun k d => if q.contains k then 0 else d }

/-- A merge leaves depth 0 in its bands of the source (R255). -/
theorem mergeRecords_snd (gid : Nat) (d a : Plane) (q : List Nat) : (mergeRecords gid d a q).2 = a.zeroed q := rfl

/-- The request of an MQCH, which has the scale bytes, the format and the depths that it found (R254). -/
def State.quenchRequest (s : State) (x : Iss) : Req :=
  let p := s.plane (quadOf x.core) x.ins.a
  { s.request x with
    xa := (s.scaleBytes x x.ins.b p.tsa p.tsb).1, xb := (s.scaleBytes x x.ins.b p.tsa p.tsb).2, k := p.fmt
    d0 := (List.range 4).map fun k => if x.quarters.contains k then p.dep k else 0, rel := releasing [(x.ins.a, p.zeroed x.quarters)] }

/-- An MQCH of a plane of its group whose scale registers pass leaves depth 0 in its bands and enters its request (R254). -/
theorem mqchEff_eq {s : State} {x : Iss} (runs : x.exec ≠ 0) (room : s.mxFull x = false)
    (mine : (s.plane (quadOf x.core) x.ins.a).owner = some x.gid)
    (unscaled : (s.plane (quadOf x.core) x.ins.a).tsa = false → (s.plane (quadOf x.core) x.ins.a).tsb = false → x.ins.b = 0)
    (scaled : (s.plane (quadOf x.core) x.ins.a).tsa = true ∨ (s.plane (quadOf x.core) x.ins.a).tsb = true →
      x.ins.operandOk (s.bounds x) kgp x.ins.b = true ∧ s.badAmong x [x.ins.b, x.ins.b + 1] = none) :
    mqchEff x s = .done ((s.modPlane (quadOf x.core) x.ins.a fun _ =>
      ((s.plane (quadOf x.core) x.ins.a).zeroed x.quarters).tryRelease).enterReq x (s.quenchRequest x)) := by
  have sound : (if ((s.plane (quadOf x.core) x.ins.a).tsa || (s.plane (quadOf x.core) x.ins.a).tsb) = true then
      s.badAmong x [x.ins.b, x.ins.b + 1] else none) = none := by
    split
    next per => exact (scaled (by simpa using per)).2
    next => rfl
  rw [mqchEff, if_neg runs]
  dsimp only
  rw [if_neg (by simpa using unscaled), if_neg (by simp [mine]), if_neg (by simpa using fun per => (scaled per).1), sound]
  dsimp only
  rw [if_neg (by simp [room])]
  rfl

/-! MMRG. -/

/-- The planes of a local merge (R255). -/
def State.mergeHere (s : State) (x : Iss) : State :=
  let r := mergeRecords x.gid (s.plane (quadOf x.core) x.ins.d) (s.plane (quadOf x.core) x.ins.a) x.quarters
  (s.modPlane (quadOf x.core) x.ins.d fun _ => r.1.tryRelease).modPlane (quadOf x.core) x.ins.a fun _ => r.2.tryRelease

theorem State.mergeHere_queues (s : State) (x : Iss) : Queues s (s.mergeHere x) x := by
  rw [State.mergeHere]
  exact (Queues.modPlane s x _ _ _).trans (.modPlane _ x _ _ _)

/-- The request of a local merge, with the planes that it releases (R248, R255). -/
def State.mergeRequest (s : State) (x : Iss) : Req :=
  let r := mergeRecords x.gid (s.plane (quadOf x.core) x.ins.d) (s.plane (quadOf x.core) x.ins.a) x.quarters
  { s.request x with rel := releasing [(x.ins.d, r.1), (x.ins.a, r.2)] }

/-- MMRG of OPX 0 whose planes pass changes both records and enters its request (R255). -/
theorem mmrgEff_eq {s : State} {x : Iss} (runs : x.exec ≠ 0) (room : s.mxFull x = false) (two : x.ins.a ≠ x.ins.d)
    (freeD : (s.plane (quadOf x.core) x.ins.d).blocks x.gid = false) (freeA : (s.plane (quadOf x.core) x.ins.a).blocks x.gid = false)
    (passes : mergeFault (s.plane (quadOf x.core) x.ins.d) (s.plane (quadOf x.core) x.ins.a) x.quarters = none) :
    mmrgEff x s = .done ((s.mergeHere x).enterReq x (s.mergeRequest x)) := by
  rw [mmrgEff, if_neg runs]
  dsimp only
  rw [if_neg two, if_neg (by simp [freeD, freeA]), passes]
  dsimp only
  rw [if_neg (by simp [room])]
  rfl

/-! MMRG.peer: a request at each end (R256, R257). -/

/-- A peer merge names `sg`, another resident group of its block, and its word has nothing where R256 reserves it. -/
structure Peer (s : State) (x : Iss) (sg : Nat) : Prop where
  high : bitsOf ((s.regs x).x x.ins.b 0).toNat 31 17 = 0
  mid : bitsOf ((s.regs x).x x.ins.b 0).toNat 15 11 = 0
  inside : ((s.regs x).x x.ins.b 0).toNat % 2 ^ 11 < (s.block (s.group x.gid).blk).ngroups
  other : ((s.regs x).x x.ins.b 0).toNat % 2 ^ 11 ≠ (s.group x.gid).index
  resident : s.memberGid (s.group x.gid).blk (((s.regs x).x x.ins.b 0).toNat % 2 ^ 11) = some sg

section
variable (s : State) (x : Iss) (sg : Nat)

/-- The quad of the source's core (R256). -/
def State.peerQuad : Nat := quadOf (s.group sg).core

/-- The plane that a peer merge reads there (R256). -/
def State.peerCode : Nat := bitsOf ((s.regs x).x x.ins.b 0).toNat 16 16

/-- The records of both planes as a peer merge issues (R255, R257). -/
def State.peerRecords : Plane × Plane :=
  mergeRecords x.gid (s.plane (quadOf x.core) x.ins.d) (s.plane (s.peerQuad sg) (s.peerCode x)) x.quarters

/-- The planes of a peer merge (R255, R257). -/
def State.mergePeer : State :=
  let r := s.peerRecords x sg
  (s.modPlane (quadOf x.core) x.ins.d fun _ => r.1.tryRelease).modPlane (s.peerQuad sg) (s.peerCode x) fun p =>
    if quadOf x.core = s.peerQuad sg ∧ x.ins.d = s.peerCode x then { r.1 with xfer := true } else { r.2 with owner := p.owner, xfer := true }

/-- The request at the issuing end, which waits for what the other end sends (R257). -/
def State.peerRequest : Req :=
  { s.request x with
    id := s.nextId, n := [(s.group x.gid).issuedOf 2], arrived := false, word := BitVec.ofNat 32 ((s.regs x).x x.ins.b 0).toNat
    rel := releasing [(x.ins.d, (s.peerRecords x sg).1)] }

/-- The peer merge counted, with its request at each end (R257). -/
def State.enterPeer : State :=
  let u := (((s.mergePeer x sg).newId.2.countOp x.gid 2 id).2.addReq (quadOf x.core) (s.peerRequest x sg)).newId
  u.2.addReq (s.peerQuad sg) { s.peerRequest x sg with
    id := u.1, op := 0x101, core := (s.group sg).core, a := s.peerCode x, opx := 1, n := [], arrived := true, peer := s.nextId, rel := [] }

end

/-- A peer merge whose planes pass, with an entry free at each end, changes both records and enters its two requests (R255 to R257). -/
theorem mmrgPeerEff_eq {s : State} {x : Iss} {sg : Nat} (runs : x.exec ≠ 0) (room : s.mxFull x = false) (peer : Peer s x sg)
    (entry : (s.quad (s.peerQuad sg)).table.length < 64) (freeD : (s.plane (quadOf x.core) x.ins.d).blocks x.gid = false)
    (freeA : (s.plane (s.peerQuad sg) (s.peerCode x)).blocks sg = false)
    (passes : mergeFault (s.plane (quadOf x.core) x.ins.d) (s.plane (s.peerQuad sg) (s.peerCode x)) x.quarters = none) :
    mmrgPeerEff x s = .done (s.enterPeer x sg) := by
  obtain ⟨high, mid, inside, other, resident⟩ := peer
  unfold State.peerQuad State.peerCode at *
  rw [mmrgPeerEff, if_neg runs]
  dsimp only
  rw [if_neg (by omega), resident]
  dsimp only
  rw [if_neg (by simp [freeD]), if_neg (by simp [freeA]), passes]
  dsimp only
  rw [if_neg (by simp [room, entry])]
  rfl

theorem State.mergePeer_queues (s : State) (x : Iss) (sg : Nat) : Queues s (s.mergePeer x sg) x := by
  rw [State.mergePeer]
  exact (Queues.modPlane s x _ _ _).trans (.modPlane _ x _ _ _)

theorem State.enterPeer_queues (s : State) (x : Iss) (sg : Nat) : Queues s (s.enterPeer x sg) x :=
  have first := ((s.mergePeer_queues x sg).trans (.newId _ x)).trans (.countOp _ x 2 id)
  ((first.trans (.addReq _ x _ _)).trans (.newId _ x)).trans (.addReq _ x _ _)

theorem State.enterPeer_counts (s : State) (x : Iss) (sg : Nat) : Counts s (s.enterPeer x sg) x 2 :=
  (s.mergePeer x sg).newId.2.countOp_counts x.gid 2 (mk := id) fun _ => ⟨rfl, rfl⟩

theorem State.enterPeer_enters (s : State) (x : Iss) (sg : Nat) : Enters s (s.enterPeer x sg) x := by
  have captures : (s.peerRequest x sg).Captures s x := (s.request_captures x).change rfl
  obtain ⟨e, stands, fields⟩ := State.addReq_enters (u := ((s.mergePeer x sg).newId.2.countOp x.gid 2 id).2) captures (List.mem_singleton.2 rfl)
  exact ⟨e, State.addReq_keeps _ stands, fields⟩

theorem State.enterPeer_plane (s : State) (x : Iss) (sg j k : Nat) : (s.enterPeer x sg).plane j k = (s.mergePeer x sg).plane j k := by
  rw [State.enterPeer, State.addReq_plane]
  exact State.addReq_plane ..

theorem State.peerCode_lt (s : State) (x : Iss) : s.peerCode x < 2 := Nat.mod_lt _ (by decide)

/-- Where the planes of a peer merge differ, each has its record (R255, R257). -/
theorem State.mergePeer_planes {s : State} {x : Iss} {sg : Nat} (code : x.ins.d < (s.quad (quadOf x.core)).planes.length)
    (source : s.peerCode x < (s.quad (s.peerQuad sg)).planes.length) (apart : ¬ (quadOf x.core = s.peerQuad sg ∧ x.ins.d = s.peerCode x)) :
    (s.mergePeer x sg).plane (quadOf x.core) x.ins.d = (s.peerRecords x sg).1.tryRelease ∧
      (s.mergePeer x sg).plane (s.peerQuad sg) (s.peerCode x) = { (s.peerRecords x sg).2 with xfer := true } := by
  constructor
  · rw [State.mergePeer, State.modPlane_ne _ apart, State.modPlane_self _ code]
  · rw [State.mergePeer, State.modPlane_self _ (by rwa [State.modPlane_planes_length]), if_neg apart,
      State.modPlane_ne _ fun same => apart ⟨same.1.symm, same.2.symm⟩]
    rfl

/-- Where they are one plane, it has the destination's record, with XFER (R255, R257). -/
theorem State.mergePeer_plane {s : State} {x : Iss} {sg : Nat} (source : s.peerCode x < (s.quad (s.peerQuad sg)).planes.length)
    (one : quadOf x.core = s.peerQuad sg ∧ x.ins.d = s.peerCode x) :
    (s.mergePeer x sg).plane (s.peerQuad sg) (s.peerCode x) = { (s.peerRecords x sg).1 with xfer := true } := by
  rw [State.mergePeer, State.modPlane_self _ (by rwa [State.modPlane_planes_length]), if_pos one]

theorem State.mergeHere_planes {s : State} {x : Iss} (two : x.ins.a ≠ x.ins.d) (codeD : x.ins.d < (s.quad (quadOf x.core)).planes.length)
    (codeA : x.ins.a < (s.quad (quadOf x.core)).planes.length) :
    (s.mergeHere x).plane (quadOf x.core) x.ins.d =
        (mergeRecords x.gid (s.plane (quadOf x.core) x.ins.d) (s.plane (quadOf x.core) x.ins.a) x.quarters).1.tryRelease ∧
      (s.mergeHere x).plane (quadOf x.core) x.ins.a = ((s.plane (quadOf x.core) x.ins.a).zeroed x.quarters).tryRelease := by
  constructor
  · rw [State.mergeHere, State.modPlane_ne _ fun same => two same.2.symm, State.modPlane_self _ codeD]
  · rw [State.mergeHere, State.modPlane_self _ (by rwa [State.modPlane_planes_length]), mergeRecords_snd]

/-- Settles O38: each of the four is counted, its request enters, and the planes have the records that its effect gives them. -/
theorem countedOperationsEnterTheTable : Obligations.CountedOperationsEnterTheTable := by
  intro f s x g X Y sa sb h qd p a int4 blk q v freed zeroed merged two runs room
  refine ⟨fun ready shapedA shapedB okA okB slotA slotB same rows cols formats counted blocked inside unused free window depths => ?count,
    fun ready mine unscaled scaled => ?quench, fun ready apart freeD freeA passes => ?merge,
    fun sg ready high mid inside other resident entry freeD freeA passes => ?peer⟩
  case count =>
    have shapes : opShapes x.ins.ta x.ins.tb X Y = (h.1, h.2.1, h.2.1, h.2.2.2) := Prod.ext rfl (Prod.ext rfl (Prod.ext same.symm rfl))
    obtain ⟨t, next, kept, counts, enters, planes⟩ := ready.countedHere rfl rfl
      (mcntEff_eq runs room ⟨shapedA, shapedB, okA, okB, slotA, slotB, shapes, rows, cols, formats, counted, blocked, inside, unused⟩
        ⟨free, window, depths⟩) (.modPlane ..) rfl ((s.request_captures x).change rfl)
    refine ⟨t, next, kept, counts, enters, fun code listed => ?_⟩
    rw [planes, State.modPlane_self s (listed ▸ code)]
    rfl
  case quench =>
    obtain ⟨t, next, kept, counts, enters, planes⟩ := ready.countedHere rfl rfl (mqchEff_eq runs room mine unscaled scaled) (.modPlane ..) rfl
      ((s.request_captures x).change rfl)
    refine ⟨t, next, kept, counts, enters, fun code listed => ⟨?_, fun k other => ?_⟩⟩
    · rw [planes, State.modPlane_self s (listed ▸ code), Plane.tryRelease_eq]
      rfl
    · rw [planes, State.modPlane_ne s fun same => other same.2]
  case merge =>
    obtain ⟨t, next, kept, counts, enters, planes⟩ := ready.countedHere rfl rfl (mmrgEff_eq runs room apart freeD freeA passes)
      (s.mergeHere_queues x) rfl ((s.request_captures x).change rfl)
    refine ⟨t, next, kept, counts, enters, fun codeA codeD listed => ?_⟩
    rw [planes, planes]
    obtain ⟨destination, source⟩ := State.mergeHere_planes apart (listed ▸ codeD) (listed ▸ codeA)
    exact ⟨destination.trans (Plane.tryRelease_eq _), source.trans (Plane.tryRelease_eq _)⟩
  case peer =>
    intro sq sp z
    obtain ⟨t, next, kept, counts, enters, planes⟩ := ready.counted rfl rfl
      (mmrgPeerEff_eq runs room ⟨high, mid, inside, other, resident⟩ entry freeD freeA passes) (s.enterPeer_queues x sg) (s.enterPeer_counts x sg)
      (s.enterPeer_enters x sg)
    refine ⟨t, next, kept, counts, enters, fun code here there => ?_⟩
    have source : sp < (s.quad sq).planes.length := there ▸ s.peerCode_lt x
    rw [planes, planes, State.enterPeer_plane, State.enterPeer_plane]
    refine ⟨fun differ => ?_, fun quad plane => State.mergePeer_plane source ⟨quad, plane⟩⟩
    obtain ⟨destination, taken⟩ := State.mergePeer_planes (here ▸ code) source differ
    exact ⟨destination.trans (Plane.tryRelease_eq _), taken⟩

end Sys2Proof.Machine
end

section
/-! Reset memory (R265). -/

namespace Sys2Proof.Machine

/-- Settles O57: reset lists no byte, and the empty list is canonical and reads as 0. -/
theorem resetMemoryIsCanonical : Obligations.ResetMemoryIsCanonical := by
  unfold Obligations.ResetMemoryIsCanonical
  exact ⟨rfl, rfl, fun _ => rfl⟩

end Sys2Proof.Machine
end

section
/-! What leaves memory alone. The functions of the model that store nothing, in the order in which they call one another: memory after each is as it
was. -/

namespace Sys2Proof.Machine

@[simp] theorem State.ite_mem (c : Prop) [Decidable c] (a b : State) : (if c then a else b).mem = if c then a.mem else b.mem :=
  apply_ite State.mem c a b

/-- A fold of steps that leave memory leaves it. -/
theorem State.foldl_mem {α : Type} {f : State → α → State} (h : ∀ s a, (f s a).mem = s.mem) (l : List α) (s : State) :
    (l.foldl f s).mem = s.mem := by
  induction l generalizing s with
  | nil => rfl
  | cons a r ih => exact (ih _).trans (h s a)

/-! Turns, runs and traps. -/

@[simp] theorem State.newId_mem (s : State) : s.newId.2.mem = s.mem := by rfl
@[simp] theorem State.close_mem (s : State) : s.close.mem = s.mem := by rfl
@[simp] theorem State.atTurn_mem (s : State) (core part : Nat) : (s.atTurn core part).mem = s.mem := by rfl
@[simp] theorem State.shutCore_mem (s : State) (core : Nat) : (s.shutCore core).mem = s.mem := by rfl

@[simp] theorem State.readied_mem (s : State) (core : Nat) (m : Move) : (s.readied core m).mem = s.mem := by
  unfold State.readied
  split <;> simp

@[simp] theorem State.endRun_mem (s : State) (gid slot : Nat) (cut : Bool) : (s.endRun gid slot cut).mem = s.mem := by rfl
@[simp] theorem State.pendTrap_mem (s : State) (gid slot : Nat) (t : Trap) : (s.pendTrap gid slot t).mem = s.mem := by rfl
@[simp] theorem State.suspend_mem (s : State) (gid slot : Nat) (t : Trap) : (s.suspend gid slot t).mem = s.mem := by rfl
@[simp] theorem State.enterHandler_mem (s : State) (gid slot : Nat) (t : Trap) : (s.enterHandler gid slot t).mem = s.mem := by rfl

@[simp] theorem State.enterPending_mem (s : State) (core part : Nat) : (s.enterPending core part).mem = s.mem := by
  unfold State.enterPending
  dsimp only
  repeat' split
  all_goals simp

@[simp] theorem State.queueTrap_mem (s : State) (gid slot : Nat) (t : Trap) : (s.queueTrap gid slot t).mem = s.mem := by rfl

@[simp] theorem State.yieldBank_mem (s : State) (core part : Nat) (t : Trap) : (s.yieldBank core part t).mem = s.mem := by
  unfold State.yieldBank
  dsimp only
  repeat' split
  all_goals simp

@[simp] theorem State.transferred_mem (s : State) (i : Iss) : (s.transferred i).mem = s.mem := by rfl

/-! Registers, loads and flags. -/

@[simp] theorem State.cleanReg_mem (s : State) (i : Iss) (code : Nat) (lanes : Mask) :
    (s.cleanReg i code lanes).mem = s.mem := by simp [State.cleanReg]

@[simp] theorem State.writeU_mem (s : State) (i : Iss) (code : Nat) (w : Word) : (s.writeU i code w).mem = s.mem := by simp [State.writeU]

@[simp] theorem State.mapName_mem (s : State) (i : Iss) (n : Nat) : (s.mapName i n).mem = s.mem := by
  unfold State.mapName
  split <;> simp

@[simp] theorem State.writeV_mem (s : State) (i : Iss) (n : Nat) (val : Nat → Word) :
    (s.writeV i n val).mem = s.mem := by simp [State.writeV]

@[simp] theorem State.commitLoad_mem (s : State) (i : Iss) (l : PLoad) :
    (s.commitLoad i l).mem = s.mem := by simp [State.commitLoad, State.foldl_mem]

@[simp] theorem State.settle_mem (s : State) (i : Iss) : (s.settle i).1.mem = s.mem := by simp [State.settle, State.foldl_mem]
@[simp] theorem State.orFlags_mem (s : State) (gid : Nat) (f : Flags) : (s.orFlags gid f).mem = s.mem := by rfl
@[simp] theorem State.flags_mem (s : State) (i : Iss) (f : Flags) : (s.flags i f).mem = s.mem := by simp [State.flags]

@[simp] theorem State.writeLanes_mem (s : State) (i : Iss) (d n : Nat) (t : List (Nat × Nat)) :
    (s.writeLanes i d n t).mem = s.mem := by simp [State.writeLanes, State.foldl_mem]

@[simp] theorem State.lastReads_mem (s : State) (i : Iss) : (s.lastReads i).mem = s.mem := by simp [State.lastReads]

@[simp] theorem State.writeP_mem (s : State) (i : Iss) (n : Nat) (val : Nat → Bool) :
    (s.writeP i n val).mem = s.mem := by simp [State.writeP]

@[simp] theorem State.sendLanes_mem (s : State) (i : Iss) (dest : Nat → CodeAddr) : (s.sendLanes i dest).mem = s.mem := by rfl

@[simp] theorem State.afterTrap_mem (s : State) (gid : Nat) : (s.afterTrap gid).mem = s.mem := by
  unfold State.afterTrap
  dsimp only
  repeat' split
  all_goals simp

@[simp] theorem State.afterExit_mem (s : State) (i : Iss) : (s.afterExit i).mem = s.mem := by simp [State.afterExit]
@[simp] theorem State.mapDest_mem (s : State) (i : Iss) : (s.mapDest i).mem = s.mem := by simp [State.mapDest, State.foldl_mem]

@[simp] theorem State.newLoad_mem (s : State) (i : Iss) (lanes : Mask) (addrs : List (Nat × Nat)) (wd : Nat) :
    (s.newLoad i lanes addrs wd).2.mem = s.mem := by rfl

/-! Accesses, releases and lines of an L1. -/

@[simp] theorem State.startAccess_mem (s : State) (a : Access) (more : List Nat) : (s.startAccess a more).mem = s.mem := by rfl

@[simp] theorem State.startRelease_mem (s : State) (gid core : Nat) (lanes : Mask) (sco : Nat) :
    (s.startRelease gid core lanes sco).2.mem = s.mem := by
  unfold State.startRelease
  dsimp only
  repeat' split
  all_goals simp

@[simp] theorem State.releaseFor_mem (s : State) (i : Iss) : (s.releaseFor i).2.mem = s.mem := by
  unfold State.releaseFor
  split <;> simp

@[simp] theorem State.recordScale_mem (s : State) (ctx idx v : Nat) : (s.recordScale ctx idx v).mem = s.mem := by rfl

@[simp] theorem State.recordStore_mem (s : State) (i : Iss) (vals : List Nat) :
    (s.recordStore i vals).mem = s.mem := by simp [State.recordStore]

@[simp] theorem State.returnLoad_mem (s : State) (gid seq : Nat) (res : List (Nat × List Byte)) (bad : Bool) :
    (s.returnLoad gid seq res bad).mem = s.mem := by simp [State.returnLoad]

@[simp] theorem State.setL1_mem (s : State) (l1 line : Nat) (x : L1Line) : (s.setL1 l1 line x).mem = s.mem := by rfl
@[simp] theorem State.invalidate_mem (s : State) (l1 : Nat) : (s.invalidate l1).mem = s.mem := by simp [State.invalidate, State.foldl_mem]
@[simp] theorem State.acquire_mem (s : State) (core sco sem : Nat) : (s.acquire core sco sem).mem = s.mem := by simp [State.acquire]

/-! Scratchpad messages and front-end rows. -/

@[simp] theorem State.spadPerform_mem (s : State) (m : SpadMsg) (core : Nat) : (s.spadPerform m core).mem = s.mem := by
  unfold State.spadPerform
  repeat' split
  all_goals simp

@[simp] theorem State.spadIssue_mem (s : State) (i : Iss) (m : SpadMsg) (rel : List Nat) :
    (s.spadIssue i m rel).mem = s.mem := by simp [State.spadIssue]

@[simp] theorem State.feIssued_mem (s : State) (i : Iss) : (s.feIssued i).mem = s.mem := by rfl
@[simp] theorem State.feSend_mem (s : State) (i : Iss) (la : List (Nat × Nat)) : (s.feSend i la).mem = s.mem := by simp [State.feSend]

@[simp] theorem State.releaseDone_mem (s : State) (i : Iss) (sco : Nat) : (s.releaseDone i sco).2.mem = s.mem := by
  unfold State.releaseDone
  dsimp only
  repeat' split
  all_goals simp

@[simp] theorem State.startAtoms_mem (s : State) (i : Iss) (r : Regs) (kind : AccKind) (load : Option Nat) (rel : List Nat)
    (ok : List (Nat × Nat × Nat)) : (s.startAtoms i r kind load rel ok).mem = s.mem := by simp [State.startAtoms, State.foldl_mem]

@[simp] theorem State.newUniLoad_mem (s : State) (i : Iss) (dst n addr wd : Nat) : (s.newUniLoad i dst n addr wd).2.mem = s.mem := by rfl

@[simp] theorem State.writeUs_mem (s : State) (i : Iss) (code n v : Nat) :
    (s.writeUs i code n v).mem = s.mem := by simp [State.writeUs, State.foldl_mem]

@[simp] theorem State.writeQ_mem (s : State) (i : Iss) (code : Nat) (v : Bool) : (s.writeQ i code v).mem = s.mem := by simp [State.writeQ]

/-! Levels, claims, steals and kept lines. -/

@[simp] theorem State.relevel_mem (s : State) (dom : Nat) : (s.relevel dom).mem = s.mem := by simp [State.relevel]
@[simp] theorem State.enqueueClaim_mem (s : State) (i : Iss) : (s.enqueueClaim i).mem = s.mem := by simp [State.enqueueClaim]

@[simp] theorem State.returnWords_mem (s : State) (gid seq : Nat) (ws : List (Nat × List Word)) :
    (s.returnWords gid seq ws).mem = s.mem := by simp [State.returnWords]

@[simp] theorem State.stealDone_mem (s : State) (gid core seq d c : Nat) (e : Option Dword) :
    (s.stealDone gid core seq d c e).mem = s.mem := by simp [State.stealDone]

@[simp] theorem State.stealAt_mem (s : State) (tgt ctx : Nat) : (s.stealAt tgt ctx).2.mem = s.mem := by
  unfold State.stealAt
  split
  · rfl
  · split <;> simp

@[simp] theorem State.dropKept_mem (s : State) (o : Origin) : (s.dropKept o).mem = s.mem := by rfl
@[simp] theorem State.dropClean_mem (s : State) (l1 pa : Nat) : (s.dropClean l1 pa).mem = s.mem := by rfl

@[simp] theorem State.linesRead_mem (s : State) (o : Origin) (core : Nat) (pas : List Nat) :
    (s.linesRead o core pas).mem = s.mem := by simp [State.linesRead, State.foldl_mem]

@[simp] theorem State.resume_mem (s : State) (gid slot : Nat) : (s.resume gid slot).mem = s.mem := by rfl
@[simp] theorem State.tlbDrop_mem (s : State) (kind asid va reach core : Nat) : (s.tlbDrop kind asid va reach core).mem = s.mem := by rfl

/-! Counted operations, flits and pages that seal. -/

@[simp] theorem State.countOp_mem (s : State) (gid : Nat) (cls : Cls) (mk : EngOp → EngOp) : (s.countOp gid cls mk).2.mem = s.mem := by rfl

@[simp] theorem State.enterReq_mem (s : State) (i : Iss) (e : Req) : (s.enterReq i e).mem = s.mem := by
  unfold State.enterReq
  dsimp only
  split <;> rfl

@[simp] theorem State.modPlane_mem (s : State) (qd k : Nat) (f : Plane → Plane) : (s.modPlane qd k f).mem = s.mem := by rfl
@[simp] theorem State.emitOn_mem (s : State) (k : Nat) (f : Flit) : (s.emitOn k f).mem = s.mem := by rfl

@[simp] theorem State.emitFlit_mem (s : State) (f : Flit) : (s.emitFlit f).mem = s.mem := by
  unfold State.emitFlit
  dsimp only
  repeat' split
  all_goals simp

@[simp] theorem State.sendFlit_mem (s : State) (f : Flit) : (s.sendFlit f).mem = s.mem := by simp [State.sendFlit]

@[simp] theorem State.tellPackages_mem (s : State) (page : Nat) (gather : Bool) (ps : List Nat) :
    (s.tellPackages page gather ps).mem = s.mem := by simp [State.tellPackages, State.foldl_mem]

@[simp] theorem State.setDir_mem (s : State) (page : Nat) (e : Option DirEnt) : (s.setDir page e).mem = s.mem := by
  unfold State.setDir
  split <;> simp

@[simp] theorem State.startGather_mem (s : State) (page : Nat) (e : DirEnt) :
    (s.startGather page e).mem = s.mem := by simp [State.startGather]

@[simp] theorem State.thawStep_mem (s : State) (page : Nat) : (s.thawStep page).mem = s.mem := by
  unfold State.thawStep
  split <;> simp

@[simp] theorem State.startSealing_mem (s : State) (page : Nat) : (s.startSealing page).mem = s.mem := by simp [State.startSealing]

@[simp] theorem State.frzStep_mem (s : State) (page : Nat) : (s.frzStep page).mem = s.mem := by
  unfold State.frzStep
  split <;> simp

@[simp] theorem State.endOp_mem (s : State) (gid : Nat) (cls : Cls) (n : Nat) (fail : Option Fail) :
    (s.endOp gid cls n fail).mem = s.mem := by simp [State.endOp]

@[simp] theorem State.draw_mem (s : State) : s.draw.2.mem = s.mem := by rfl

@[simp] theorem State.sendBack_mem (s : State) (l1 line batch : Nat) (x : L1Line) (p : List Mark × BitVec 64) :
    (s.sendBack l1 line batch x p).mem = s.mem := by rfl

/-! Persistence operations and collectives. -/

@[simp] theorem State.queuePs_mem (s : State) (i : Iss) (kind st sco : Nat) :
    (s.queuePs i kind st sco).mem = s.mem := by simp [State.queuePs]

@[simp] theorem State.tellColl_mem (s : State) (c : Coll) (kind off : Nat) :
    (s.tellColl c kind off).mem = s.mem := by simp [State.tellColl, State.foldl_mem]

@[simp] theorem State.modColl_mem (s : State) (c : Coll) (f : Coll → Coll) : (s.modColl c f).mem = s.mem := by rfl

/-! Runs that begin, and groups that leave. -/

@[simp] theorem State.beginRun_mem (s : State) (core part gid slot : Nat) : (s.beginRun core part gid slot).mem = s.mem := by rfl
@[simp] theorem State.purgeClaims_mem (s : State) (blk : Nat) : (s.purgeClaims blk).mem = s.mem := by rfl
@[simp] theorem State.sendLong_mem (s : State) (f : Flit) : (s.sendLong f).mem = s.mem := by simp [State.sendLong, State.foldl_mem]
@[simp] theorem State.dropBytes_mem (s : State) (l1 line : Nat) (m : BitVec 64) : (s.dropBytes l1 line m).mem = s.mem := by rfl
@[simp] theorem State.dropLine_mem (s : State) (l1 pa : Nat) : (s.dropLine l1 pa).mem = s.mem := by rfl
@[simp] theorem State.failed_mem (s : State) (a : Access) : (s.failed a).mem = s.mem := by simp [State.failed, State.performed_mem]
@[simp] theorem State.fillCode_mem (s : State) (core : Nat) (l : ILine) : (s.fillCode core l).mem = s.mem := by rfl
@[simp] theorem State.preloaded_mem (s : State) (core ctx line : Nat) : (s.preloaded core ctx line).mem = s.mem := by rfl

@[simp] theorem State.dropExited_mem (s : State) (gid : Nat) (load : Option Nat) : (s.dropExited gid load).mem = s.mem := by
  unfold State.dropExited
  split <;> simp

@[simp] theorem State.wake_mem (s : State) (gid slot : Nat) : (s.wake gid slot).mem = s.mem := by rfl
@[simp] theorem State.passTime_mem (s : State) (core n : Nat) : (s.passTime core n).mem = s.mem := by rfl
@[simp] theorem State.freePlanes_mem (s : State) (gid : Nat) : (s.freePlanes gid).mem = s.mem := by rfl
@[simp] theorem State.orphanArrivals_mem (s : State) (gid : Nat) : (s.orphanArrivals gid).mem = s.mem := by rfl
@[simp] theorem State.markIdle_mem (s : State) (qd : Nat) : (s.markIdle qd).mem = s.mem := by simp [State.markIdle]
@[simp] theorem State.removeGroup_mem (s : State) (gid : Nat) : (s.removeGroup gid).mem = s.mem := by simp [State.removeGroup]
@[simp] theorem State.dropReturns_mem (s : State) (gid : Nat) : (s.dropReturns gid).mem = s.mem := by rfl
@[simp] theorem State.renameOps_mem (s : State) (old new : Nat) : (s.renameOps old new).mem = s.mem := by rfl
@[simp] theorem State.arrived_mem (s : State) (tgt src : Nat) : (s.arrived tgt src).mem = s.mem := by rfl

/-! Tile and matrix operations. -/

@[simp] theorem State.runTl_mem (s : State) (gid : Nat) : (s.runTl gid).mem = s.mem := by
  unfold State.runTl
  dsimp only
  repeat' split
  all_goals simp [State.foldl_mem]

@[simp] theorem State.modReq_mem (s : State) (qd id : Nat) (f : Req → Req) : (s.modReq qd id f).mem = s.mem := by rfl
@[simp] theorem State.runArray_mem (s : State) (quad : Nat) (e : Req) : (s.runArray quad e).mem = s.mem := by simp [State.runArray]
@[simp] theorem State.endReq_mem (s : State) (e : Req) (fail : Option Fail) (fl : Flags) : (s.endReq e fail fl).mem = s.mem := by rfl
@[simp] theorem State.passDone_mem (s : State) (e : Req) : (s.passDone e).mem = s.mem := by simp [State.passDone]
@[simp] theorem State.runMdrn_mem (s : State) (e : Req) : (s.runMdrn e).mem = s.mem := by rfl

@[simp] theorem State.sendMdrna_mem (s : State) (e : Req) : (s.sendMdrna e).mem = s.mem := by
  unfold State.sendMdrna
  dsimp only
  split <;> rfl

@[simp] theorem State.runMacz_mem (s : State) (e : Req) : (s.runMacz e).mem = s.mem := by rfl
@[simp] theorem State.runMqch_mem (s : State) (e : Req) : (s.runMqch e).mem = s.mem := by rfl
@[simp] theorem State.runMmrg_mem (s : State) (e : Req) : (s.runMmrg e).mem = s.mem := by simp [State.runMmrg]
@[simp] theorem State.dropReq_mem (s : State) (quad id : Nat) : (s.dropReq quad id).mem = s.mem := by rfl

@[simp] theorem State.runArrival_mem (s : State) (e : Req) : (s.runArrival e).mem = s.mem := by
  unfold State.runArrival
  repeat' split
  all_goals simp

@[simp] theorem State.runPort_mem (s : State) (quad : Nat) (e : Req) : (s.runPort quad e).mem = s.mem := by
  unfold State.runPort
  split <;> simp

@[simp] theorem State.transfer_mem (s : State) (sq : Nat) (e : Req) : (s.transfer sq e).mem = s.mem := by
  unfold State.transfer
  split <;> simp

@[simp] theorem State.reportMx_mem (s : State) (gid : Nat) (os : List EngOp) : (s.reportMx gid os).mem = s.mem := by simp [State.reportMx]

/-! TLBs, near buffers and copies. -/

@[simp] theorem State.fillTlbs_mem (s : State) (core ctx va : Nat) : (s.fillTlbs core ctx va).mem = s.mem := by
  unfold State.fillTlbs
  split <;> simp

@[simp] theorem State.afterRead_mem (s : State) (a : Access) : (s.afterRead a).mem = s.mem := by simp [State.afterRead]
@[simp] theorem State.putNear_mem (s : State) (die line : Nat) (data : List Byte) : (s.putNear die line data).mem = s.mem := by rfl

@[simp] theorem State.holdDie_mem (s : State) (page die : Nat) : (s.holdDie page die).mem = s.mem := by
  unfold State.holdDie
  split <;> simp

@[simp] theorem State.updateCopy_mem (s : State) (l1 pa : Nat) (bs : List Byte) (later : Bool) :
    (s.updateCopy l1 pa bs later).mem = s.mem := by simp [State.updateCopy]

@[simp] theorem State.waitAtHome_mem (s : State) (id : Nat) : (s.waitAtHome id).mem = s.mem := by rfl

/-! Tongs, snapshots and notices. -/

@[simp] theorem State.endTongs_mem (s : State) (die key id : Nat) (fail : Option Fail) : (s.endTongs die key id fail).mem = s.mem := by
  unfold State.endTongs
  split <;> simp

@[simp] theorem State.modTongs_mem (s : State) (die key id : Nat) (f : TongsOp → TongsOp) : (s.modTongs die key id f).mem = s.mem := by rfl
@[simp] theorem State.engineAt_mem (s : State) (core : Nat) : (s.engineAt core).mem = s.mem := by rfl

@[simp] theorem State.tongsDone_mem (s : State) (die key : Nat) (o : TongsOp) (ids : List Nat) :
    (s.tongsDone die key o ids).mem = s.mem := by simp [State.tongsDone]

@[simp] theorem State.clearError_mem (s : State) (pa n : Nat) : (s.clearError pa n).mem = s.mem := by
  unfold State.clearError
  split
  · split <;> simp
  · rfl

@[simp] theorem State.engineSend_mem (s : State) (die ctx gid epoch va pa st type : Nat) (aux : BitVec 32) (payload : List Byte) :
    (s.engineSend die ctx gid epoch va pa st type aux payload).2.mem = s.mem := by simp [State.engineSend]

@[simp] theorem State.setStep_mem (s : State) (ctx v : Nat) : (s.setStep ctx v).mem = s.mem := by rfl
@[simp] theorem State.modSnap_mem (s : State) (die id : Nat) (f : Snap → Snap) : (s.modSnap die id f).mem = s.mem := by rfl
@[simp] theorem State.addFilter_mem (s : State) (die page : Nat) : (s.addFilter die page).mem = s.mem := by rfl
@[simp] theorem State.setNotice_mem (s : State) (n : Notice) : (s.setNotice n).mem = s.mem := by simp [State.setNotice]

@[simp] theorem State.pageDone_mem (s : State) (page : Nat) (thaws : Bool) (cut : List (Nat × Nat)) :
    (s.pageDone page thaws cut).mem = s.mem := by rfl

@[simp] theorem State.sealEnd_mem (s : State) (page : Nat) (e : DirEnt) : (s.sealEnd page e).mem = s.mem := by simp [State.sealEnd]
@[simp] theorem State.dropFrozen_mem (s : State) (die page : Nat) : (s.dropFrozen die page).mem = s.mem := by rfl
@[simp] theorem State.dropFilter_mem (s : State) (page : Nat) : (s.dropFilter page).mem = s.mem := by rfl
@[simp] theorem State.thawEnd_mem (s : State) (page : Nat) (e : DirEnt) : (s.thawEnd page e).mem = s.mem := by simp [State.thawEnd]

/-! Launch, placement, contexts and hand-overs. -/

@[simp] theorem State.alert_mem (s : State) (bit : Nat) : (s.alert bit).mem = s.mem := by simp [State.alert]
@[simp] theorem State.clampLink_mem (s : State) : s.clampLink.mem = s.mem := by simp [State.clampLink]

@[simp] theorem State.startRecord_mem (s : State) (q : Nat) : (s.startRecord q).mem = s.mem := by
  unfold State.startRecord
  dsimp only
  repeat' split
  all_goals simp

@[simp] theorem State.countPass_mem (s : State) (w : Waiting) :
    (s.countPass w).mem = s.mem :=
  State.foldl_mem (fun _ _ => by rfl) _ _

@[simp] theorem State.emptyL1s_mem (s : State) (l1s : List Nat) (keepFrozen : Bool) :
    (s.emptyL1s l1s keepFrozen).mem = s.mem :=
  State.foldl_mem (fun _ _ => by rfl) _ _

@[simp] theorem State.takeCore_mem (s : State) (core ctx : Nat) : (s.takeCore core ctx).mem = s.mem := by
  unfold State.takeCore
  dsimp only
  repeat' split
  all_goals simp

@[simp] theorem State.powerOff_mem (s : State) (q : Nat) :
    (s.powerOff q).mem = s.mem := by exact (State.foldl_mem (fun _ _ => by rfl) _ _).trans (by simp)

@[simp] theorem State.setKernel_mem (s : State) (ctx n : Nat) (v : Bool) : (s.setKernel ctx n v).mem = s.mem := by
  unfold State.setKernel
  repeat' split
  all_goals simp

@[simp] theorem State.setState_mem (s : State) (ctx : Nat) (x : CtxState) : (s.setState ctx x).mem = s.mem := by rfl
@[simp] theorem State.saveGroup_mem (s : State) (ctx : Nat) (gid : Nat) : (s.saveGroup ctx gid).mem = s.mem := by simp [State.saveGroup]
@[simp] theorem State.awaitRoom_mem (s : State) (ctx : Nat) : (s.awaitRoom ctx).mem = s.mem := by rfl

@[simp] theorem State.wakeFor_mem (s : State) (qs : List Nat) :
    (s.wakeFor qs).mem = s.mem :=
  State.foldl_mem (fun _ _ => by rfl) _ _

@[simp] theorem State.rephys_mem (s : State) (gid : Nat) : (s.rephys gid).mem = s.mem :=
  State.foldl_mem (fun _ _ => by rfl) _ _
@[simp] theorem State.dropWork_mem (s : State) (ctx : Nat) : (s.dropWork ctx).mem = s.mem := by rfl
@[simp] theorem State.dropJob_mem (s : State) (job : Nat) : (s.dropJob job).mem = s.mem := by simp [State.dropJob]
@[simp] theorem State.toDevice_mem (s : State) : s.toDevice.mem = s.mem := by simp [State.toDevice, State.foldl_mem]
@[simp] theorem State.setRegion_mem (s : State) (ctx r : Nat) (x : Region) : (s.setRegion ctx r x).mem = s.mem := by rfl

/-! Power. -/

@[simp] theorem State.setGrant_mem (s : State) (dom g : Nat) : (s.setGrant dom g).mem = s.mem := by rfl

@[simp] theorem State.narrow_mem (s : State) (cur : Tbl Nat) (dom : Nat) : (s.narrow cur dom).mem = s.mem := by
  unfold State.narrow
  split <;> simp

@[simp] theorem State.widen_mem (s : State) (cur : Tbl Nat) (dom : Nat) : (s.widen cur dom).mem = s.mem := by
  unfold State.widen
  split
  · rfl
  · split <;> simp

@[simp] theorem State.bellows_mem (s : State) (power : Nat) (cur : Tbl Nat) :
    (s.bellows power cur).mem = s.mem := by simp [State.bellows, State.foldl_mem]

@[simp] theorem State.setTmax_mem (s : State) (t : Nat) : (s.setTmax t).mem = s.mem := by rfl
@[simp] theorem State.modPower_mem (s : State) (f : Power → Power) : (s.modPower f).mem = s.mem := by rfl
@[simp] theorem State.checkFirmware_mem (s : State) (img : FwImage) : (s.checkFirmware img).mem = s.mem := by simp [State.checkFirmware]

/-! Links. -/

@[simp] theorem State.modPort_mem (s : State) (k : Nat) (f : Port → Port) : (s.modPort k f).mem = s.mem := by rfl
@[simp] theorem State.flushHeld_mem (s : State) : s.flushHeld.mem = s.mem := by simp [State.flushHeld, State.foldl_mem]

@[simp] theorem State.ackTo_mem (s : State) (port ack : Nat) : (s.ackTo port ack).mem = s.mem := by
  unfold State.ackTo
  dsimp only
  repeat' split
  all_goals simp

@[simp] theorem State.ackBack_mem (s : State) (port : Nat) (f : Flit) (before : Nat) :
    (s.ackBack port f before).mem = s.mem := by simp [State.ackBack]

@[simp] theorem State.reply_mem (s : State) (f : Flit) (type cause low : Nat) (payload : List Byte) :
    (s.reply f type cause low payload).mem = s.mem := by simp [State.reply]

@[simp] theorem State.endFill_mem (s : State) (a : Access) : (s.endFill a).mem = s.mem := by rfl

@[simp] theorem State.assemble_mem (s : State) (f : Flit) : (s.assemble f).2.mem = s.mem := by
  unfold State.assemble
  split <;> simp

@[simp] theorem State.ackPkg_mem (s : State) (page p : Nat) : (s.ackPkg page p).mem = s.mem := by
  unfold State.ackPkg
  split <;> simp

/-! Units of a stripe, partial results and errors. -/

@[simp] theorem State.takeFack_mem (s : State) (f : Flit) : (s.takeFack f).mem = s.mem := by
  unfold State.takeFack
  split <;> simp

@[simp] theorem State.sendUnit_mem (s : State) (f : Flit) : (s.sendUnit f).mem = s.mem := by simp [State.sendUnit, State.foldl_mem]
@[simp] theorem State.takeUnit_mem (s : State) (f : Flit) : (s.takeUnit f).mem = s.mem := by simp [State.takeUnit]
@[simp] theorem State.dropRebuild_mem (s : State) : s.dropRebuild.mem = s.mem := by rfl
@[simp] theorem State.stopRebuild_mem (s : State) (p : Nat) : (s.stopRebuild p).mem = s.mem := by simp [State.stopRebuild]
@[simp] theorem State.askStripe_mem (s : State) : s.askStripe.mem = s.mem := by simp [State.askStripe, State.foldl_mem]
@[simp] theorem State.modMember_mem (s : State) (c : Coll) (idx : Nat) (f : Member → Member) : (s.modMember c idx f).mem = s.mem := by rfl
@[simp] theorem State.sendPartial_mem (s : State) (c : Coll) : (s.sendPartial c).mem = s.mem := by simp [State.sendPartial, State.foldl_mem]
@[simp] theorem State.sample_mem (s : State) (core : Nat) : (s.sample core).mem = s.mem :=
  State.foldl_mem (fun _ _ => by rfl) _ _

@[simp] theorem State.strike_mem (s : State) (e : SoftError) : (s.strike e).mem = s.mem := by
  unfold State.strike
  repeat' split
  all_goals simp

@[simp] theorem State.accountIssue_mem (s : State) (i : Iss) : (s.accountIssue i).mem = s.mem := by
  unfold State.accountIssue
  split <;> simp

end Sys2Proof.Machine
end

section
/-! The effects of the instructions that store nothing when they issue, and the functions that answer a state or none. -/

namespace Sys2Proof.Machine

/-- The state that an effect leaves before its split is settled. -/
def Eff.state : Eff → State
  | .done s => s
  | .moved s => s
  | .trap _ s => s
  | .wait s => s

@[simp] theorem Eff.done_state (s : State) : (Eff.done s).state = s := rfl
@[simp] theorem Eff.moved_state (s : State) : (Eff.moved s).state = s := rfl
@[simp] theorem Eff.trap_state (t : Trap) (s : State) : (Eff.trap t s).state = s := rfl
@[simp] theorem Eff.wait_state (s : State) : (Eff.wait s).state = s := rfl

@[simp] theorem Eff.ite_state (c : Prop) [Decidable c] (a b : Eff) : (if c then a else b).state = if c then a.state else b.state :=
  apply_ite Eff.state c a b

theorem capped_mem {names : Ins → List Nat} {eff : Iss → State → Eff} {i : Iss} {s : State} (h : (eff i s).state.mem = s.mem) :
    (capped names eff i s).state.mem = s.mem := by
  unfold capped
  split
  · rfl
  · exact h

theorem withLoadRoom_mem {eff : Iss → State → Eff} {i : Iss} (h : ∀ s, (eff i s).state.mem = s.mem) (s : State) :
    (withLoadRoom eff i s).state.mem = s.mem := by
  have settled := State.settle_mem s i
  unfold withLoadRoom
  split
  · exact h s
  · split
    · rfl
    · split
      next s1 t e => rw [e] at settled; exact settled
      next s1 e =>
        rw [e] at settled
        split
        · exact (h s1).trans settled
        · exact settled

/-! Lanes (R110 to R137). -/

@[simp] theorem laneValN_mem (n : Nat) (f : Args → Nat × Flags) (i : Iss) (s : State) :
    (laneValN n f i s).state.mem = s.mem := by simp [laneValN]

@[simp] theorem laneVal_mem (f : Args → Nat × Flags) (i : Iss) (s : State) : (laneVal f i s).state.mem = s.mem := by simp [laneVal, capped]
@[simp] theorem lanePure_mem (f : Args → Nat) (i : Iss) (s : State) : (lanePure f i s).state.mem = s.mem := by simp [lanePure]

@[simp] theorem laneCarry_mem (f : Args → Nat × Bool) (i : Iss) (s : State) :
    (laneCarry f i s).state.mem = s.mem := by simp [laneCarry, capped]

@[simp] theorem lanePred_mem (f : Args → Bool × Flags) (i : Iss) (s : State) : (lanePred f i s).state.mem = s.mem := by simp [lanePred]
@[simp] theorem cvtnEff_mem (i : Iss) (s : State) : (cvtnEff i s).state.mem = s.mem := by simp [cvtnEff, capped]
@[simp] theorem cvtwEff_mem (i : Iss) (s : State) : (cvtwEff i s).state.mem = s.mem := by simp [cvtwEff, capped]
@[simp] theorem sprsEff_mem (i : Iss) (s : State) : (sprsEff i s).state.mem = s.mem := by simp [sprsEff, capped]
@[simp] theorem psetEff_mem (i : Iss) (s : State) : (psetEff i s).state.mem = s.mem := by simp [psetEff]

@[simp] theorem pmovEff_mem (i : Iss) (s : State) : (pmovEff i s).state.mem = s.mem := by
  unfold pmovEff capped
  dsimp only
  repeat' split
  all_goals simp [State.foldl_mem]

@[simp] theorem sregEff_mem (i : Iss) (s : State) : (sregEff i s).state.mem = s.mem := by simp [sregEff, capped]
@[simp] theorem movEff_mem (i : Iss) (s : State) : (movEff i s).state.mem = s.mem := by simp [movEff]
@[simp] theorem readlEff_mem (i : Iss) (s : State) : (readlEff i s).state.mem = s.mem := by simp [readlEff]
@[simp] theorem vfreeEff_mem (i : Iss) (s : State) : (vfreeEff i s).state.mem = s.mem := by rfl
@[simp] theorem shflEff_mem (i : Iss) (s : State) : (shflEff i s).state.mem = s.mem := by simp [shflEff, capped]
@[simp] theorem vredEff_mem (i : Iss) (s : State) : (vredEff i s).state.mem = s.mem := by simp [vredEff, capped]
@[simp] theorem vscanEff_mem (i : Iss) (s : State) : (vscanEff i s).state.mem = s.mem := by simp [vscanEff, capped]
@[simp] theorem voteEff_mem (i : Iss) (s : State) : (voteEff i s).state.mem = s.mem := by simp [voteEff]
@[simp] theorem ballotEff_mem (i : Iss) (s : State) : (ballotEff i s).state.mem = s.mem := by simp [ballotEff, capped]
@[simp] theorem matchEff_mem (i : Iss) (s : State) : (matchEff i s).state.mem = s.mem := by simp [matchEff, capped]

/-! Control (R87 to R99). -/

@[simp] theorem brdEff_mem (i : Iss) (s : State) : (brdEff i s).state.mem = s.mem := by simp [brdEff]
@[simp] theorem voteEffBr_mem (taken : Nat → Nat → Bool) (i : Iss) (s : State) : (voteEffBr taken i s).state.mem = s.mem := by rfl
@[simp] theorem jmpEff_mem (i : Iss) (s : State) : (jmpEff i s).state.mem = s.mem := by rfl

@[simp] theorem jmpiEff_mem (i : Iss) (s : State) : (jmpiEff i s).state.mem = s.mem := by
  unfold jmpiEff
  dsimp only
  repeat' split
  all_goals simp

@[simp] theorem pushCall_mem (t : Nat → CodeAddr) (i : Iss) (s : State) : (pushCall t i s).state.mem = s.mem := by simp [pushCall]

@[simp] theorem calliEff_mem (i : Iss) (s : State) : (calliEff i s).state.mem = s.mem := by
  unfold calliEff
  grind [pushCall_mem, State.modGroup_mem, Eff.state]

@[simp] theorem retEff_mem (i : Iss) (s : State) : (retEff i s).state.mem = s.mem := by simp [retEff]
@[simp] theorem exitEff_mem (i : Iss) (s : State) : (exitEff i s).state.mem = s.mem := by simp [exitEff]
@[simp] theorem yieldEff_mem (i : Iss) (s : State) : (yieldEff i s).state.mem = s.mem := by simp [yieldEff]
@[simp] theorem loopgEff_mem (i : Iss) (s : State) : (loopgEff i s).state.mem = s.mem := by simp [loopgEff]
@[simp] theorem nopEff_mem (i : Iss) (s : State) : (nopEff i s).state.mem = s.mem := by rfl

/-! Scratchpad, FENCE, PREF and DROP (R143 to R147, R268). -/

@[simp] theorem ldsEff_mem (i : Iss) (s : State) : (ldsEff i s).state.mem = s.mem := by
  refine withLoadRoom_mem (fun s => capped_mem ?_) s
  dsimp only
  repeat' split
  all_goals simp [State.foldl_mem]

@[simp] theorem stsEff_mem (i : Iss) (s : State) : (stsEff i s).state.mem = s.mem := by
  unfold stsEff
  grind [State.releaseFor_mem, State.spadIssue_mem, State.recordStore_mem, Eff.state, State.foldl_mem]

@[simp] theorem ldfeAt_mem (here : Bool) (i : Iss) (s : State) : (ldfeAt here i s).state.mem = s.mem := by
  refine withLoadRoom_mem (fun s => capped_mem ?_) s
  dsimp only
  repeat' split
  all_goals simp [State.foldl_mem]

@[simp] theorem ldfeEff_mem (i : Iss) (s : State) : (ldfeEff i s).state.mem = s.mem := by simp [ldfeEff]

@[simp] theorem stfeAt_mem (here : Bool) (i : Iss) (s : State) : (stfeAt here i s).state.mem = s.mem := by
  unfold stfeAt
  grind [State.feSend_mem, State.modBlock_mem, State.releaseDone_mem, Eff.state]

@[simp] theorem stfeEff_mem (i : Iss) (s : State) : (stfeEff i s).state.mem = s.mem := by simp [stfeEff]
@[simp] theorem fesetEff_mem (i : Iss) (s : State) : (fesetEff i s).state.mem = s.mem := by simp [fesetEff]

@[simp] theorem atomsIssue_mem (i : Iss) (s : State) : (atomsIssue i s).state.mem = s.mem := by
  unfold atomsIssue capped
  dsimp only
  repeat' split
  all_goals simp [State.foldl_mem]

@[simp] theorem atomsEff_mem (i : Iss) (s : State) : (atomsEff i s).state.mem = s.mem := by
  unfold atomsEff
  split
  · exact atomsIssue_mem i s
  · exact withLoadRoom_mem (atomsIssue_mem i) s

@[simp] theorem fenceEff_mem (i : Iss) (s : State) : (fenceEff i s).state.mem = s.mem := by
  unfold fenceEff
  grind [State.acquire_mem, State.releaseDone_mem, Eff.state]

@[simp] theorem prefEff_mem (i : Iss) (s : State) : (prefEff i s).state.mem = s.mem := by
  unfold prefEff
  dsimp only [Eff.done_state]
  split
  · rfl
  · exact State.foldl_mem (fun _ _ => by simp) _ _

@[simp] theorem dropEff_mem (i : Iss) (s : State) : (dropEff i s).state.mem = s.mem :=
  State.foldl_mem (fun _ _ => by simp) _ _

/-! Uniform operations (R190, R191). -/

@[simp] theorem uniVal_mem (f : Args → Nat × Flags) (i : Iss) (s : State) : (uniVal f i s).state.mem = s.mem := by simp [uniVal]
@[simp] theorem uniPure_mem (f : Args → Nat) (i : Iss) (s : State) : (uniPure f i s).state.mem = s.mem := by simp [uniPure]
@[simp] theorem gcmpEff_mem (i : Iss) (s : State) : (gcmpEff i s).state.mem = s.mem := by simp [gcmpEff]

/-! Core, barriers, deques and traps (R170 to R220). -/

@[simp] theorem waitEff_mem (i : Iss) (s : State) : (waitEff i s).state.mem = s.mem := by
  unfold waitEff
  dsimp only
  repeat' split
  all_goals simp

@[simp] theorem sleeptEff_mem (i : Iss) (s : State) : (sleeptEff i s).state.mem = s.mem := by simp [sleeptEff]

@[simp] theorem sleeptPromEff_mem (i : Iss) (s : State) : (sleeptPromEff i s).state.mem = s.mem := by
  unfold sleeptPromEff
  split
  · simp
  · split <;> simp

@[simp] theorem plvlEff_mem (i : Iss) (s : State) : (plvlEff i s).state.mem = s.mem := by simp [plvlEff]

@[simp] theorem regclmEff_mem (i : Iss) (s : State) : (regclmEff i s).state.mem = s.mem := by
  unfold regclmEff
  split <;> simp

@[simp] theorem regrelEff_mem (i : Iss) (s : State) : (regrelEff i s).state.mem = s.mem := by simp [regrelEff]

@[simp] theorem barEff_mem (i : Iss) (s : State) : (barEff i s).state.mem = s.mem := by
  unfold barEff
  grind [State.releaseDone_mem, State.modGroup_mem, Eff.state]

@[simp] theorem dqpushEff_mem (i : Iss) (s : State) : (dqpushEff i s).state.mem = s.mem := by
  unfold dqpushEff
  grind [State.releaseDone_mem, State.modCore_mem, State.writeU_mem, Eff.state]

@[simp] theorem dqpopEff_mem (i : Iss) (s : State) : (dqpopEff i s).state.mem = s.mem := by
  unfold dqpopEff
  split <;> simp

@[simp] theorem dqstealEff_mem (i : Iss) (s : State) : (dqstealEff i s).state.mem = s.mem := by exact withLoadRoom_mem (fun s => by simp) s
@[simp] theorem trapEff_mem (i : Iss) (s : State) : (trapEff i s).state.mem = s.mem := by rfl
@[simp] theorem eretEff_mem (i : Iss) (s : State) : (eretEff i s).state.mem = s.mem := by simp [eretEff]
@[simp] theorem mfsrEff_mem (i : Iss) (s : State) : (mfsrEff i s).state.mem = s.mem := by simp [mfsrEff]
@[simp] theorem mtsrEff_mem (i : Iss) (s : State) : (mtsrEff i s).state.mem = s.mem := by rfl
@[simp] theorem tlbinvEff_mem (i : Iss) (s : State) : (tlbinvEff i s).state.mem = s.mem := by simp [tlbinvEff]
@[simp] theorem bkptEff_mem (i : Iss) (s : State) : (bkptEff i s).state.mem = s.mem := by rfl

/-! Tiles and requests (R209 to R263). -/

@[simp] theorem tileMoveEff_mem (store : Bool) (i : Iss) (s : State) : (tileMoveEff store i s).state.mem = s.mem := by
  unfold tileMoveEff
  dsimp only
  repeat' split
  all_goals simp

@[simp] theorem mshpEff_mem (i : Iss) (s : State) : (mshpEff i s).state.mem = s.mem := by simp [mshpEff]
@[simp] theorem tileFileEff_mem (kind : Nat) (i : Iss) (s : State) : (tileFileEff kind i s).state.mem = s.mem := by simp [tileFileEff]
@[simp] theorem emskEff_mem (i : Iss) (s : State) : (emskEff i s).state.mem = s.mem := by simp [emskEff]
@[simp] theorem mmasEff_mem (i : Iss) (s : State) : (mmasEff i s).state.mem = s.mem := by simp [mmasEff]

@[simp] theorem mqchEff_mem (i : Iss) (s : State) : (mqchEff i s).state.mem = s.mem := by
  unfold mqchEff
  dsimp only
  repeat' split
  all_goals simp

@[simp] theorem mmrgEff_mem (i : Iss) (s : State) : (mmrgEff i s).state.mem = s.mem := by
  unfold mmrgEff
  dsimp only
  repeat' split
  all_goals simp

@[simp] theorem mdrnEff_mem (i : Iss) (s : State) : (mdrnEff i s).state.mem = s.mem := by simp [mdrnEff]
@[simp] theorem mdrnaEff_mem (i : Iss) (s : State) : (mdrnaEff i s).state.mem = s.mem := by simp [mdrnaEff]
@[simp] theorem maczEff_mem (i : Iss) (s : State) : (maczEff i s).state.mem = s.mem := by simp [maczEff]

@[simp] theorem sctrdEff_mem (i : Iss) (s : State) : (sctrdEff i s).state.mem = s.mem := by
  unfold sctrdEff
  split
  · rfl
  · split
    · rfl
    · exact withLoadRoom_mem (fun s => by simp) s

@[simp] theorem sctadvEff_mem (i : Iss) (s : State) : (sctadvEff i s).state.mem = s.mem := by simp [sctadvEff]
@[simp] theorem sctadvAmaxEff_mem (i : Iss) (s : State) : (sctadvAmaxEff i s).state.mem = s.mem := by simp [sctadvAmaxEff]
@[simp] theorem sctadvOffEff_mem (i : Iss) (s : State) : (sctadvOffEff i s).state.mem = s.mem := by simp [sctadvOffEff]

/-! Engines and immediates. -/

@[simp] theorem tongsIssue_mem (fill : Bool) (i : Iss) (s : State) : (tongsIssue fill i s).state.mem = s.mem := by
  unfold tongsIssue
  dsimp only
  repeat' split
  all_goals simp

@[simp] theorem tongsEff_mem (fill : Bool) (i : Iss) (s : State) : (tongsEff fill i s).state.mem = s.mem := by
  unfold tongsEff
  split
  · exact tongsIssue_mem fill i s
  · exact withLoadRoom_mem (tongsIssue_mem fill i) s

@[simp] theorem pflushEff_mem (i : Iss) (s : State) : (pflushEff i s).state.mem = s.mem := by simp [pflushEff]
@[simp] theorem steptagEff_mem (i : Iss) (s : State) : (steptagEff i s).state.mem = s.mem := by simp [steptagEff]
@[simp] theorem stepcmEff_mem (i : Iss) (s : State) : (stepcmEff i s).state.mem = s.mem := by simp [stepcmEff]
@[simp] theorem stepabEff_mem (i : Iss) (s : State) : (stepabEff i s).state.mem = s.mem := by simp [stepabEff]
@[simp] theorem snapreqEff_mem (i : Iss) (s : State) : (snapreqEff i s).state.mem = s.mem := by simp [snapreqEff]
@[simp] theorem gmoviEff_mem (i : Iss) (s : State) : (gmoviEff i s).state.mem = s.mem := by simp [gmoviEff]
@[simp] theorem gaddiEff_mem (i : Iss) (s : State) : (gaddiEff i s).state.mem = s.mem := by simp [gaddiEff]
@[simp] theorem gcmpiEff_mem (i : Iss) (s : State) : (gcmpiEff i s).state.mem = s.mem := by simp [gcmpiEff]

/-! The front end. -/

@[simp] theorem State.fePerform_mem (s : State) (gid slot : Nat) : (s.fePerform gid slot).mem = s.mem := by
  unfold State.fePerform
  grind [State.modGroup_mem, ldfeAt_mem, stfeAt_mem, Eff.state]

@[simp] theorem State.feArrive_mem (s : State) (m : SpadMsg) : (s.feArrive m).mem = s.mem := by simp [State.feArrive]

@[simp] theorem State.feSettle_mem (blk core : Nat) (n : Nat) (x : List (Nat × Nat)) (s : State) :
    (State.feSettle blk core n x s).mem = s.mem := by
  induction n generalizing x s with
  | zero => rfl
  | succ n ih =>
    unfold State.feSettle
    split
    · rfl
    · rw [ih, State.fePerform_mem]

@[simp] theorem State.feCycle_mem (s : State) (core : Nat) :
    (s.feCycle core).mem = s.mem :=
  State.foldl_mem (fun _ _ => by simp) _ _

/-! Functions that may answer none. -/

theorem State.tellDie_mem {s : State} {die page : Nat} {t : State} (he : s.tellDie die page = some t) : t.mem = s.mem := by
  unfold State.tellDie at he
  repeat' split at he
  all_goals cases he
  all_goals simp

theorem State.ackDie_mem {s : State} {die page : Nat} {t : State} (he : s.ackDie die page = some t) : t.mem = s.mem := by
  unfold State.ackDie at he
  repeat' split at he
  all_goals cases he
  all_goals simp

theorem State.gatherDie_mem {s : State} {die page : Nat} {t : State} (he : s.gatherDie die page = some t) : t.mem = s.mem := by
  unfold State.gatherDie at he
  repeat' split at he
  all_goals cases he
  all_goals simp

theorem State.fuseQuad_mem {s : State} {q : Nat} {fuse : Bool} {t : State} (he : s.fuseQuad q fuse = some t) : t.mem = s.mem := by
  unfold State.fuseQuad at he
  split at he
  · cases he; simp
  · split at he <;> cases he
    simp

theorem State.seatOne_mem {s : State} {n : BlockNeed} {g : Group} {p : Place} {r : Nat × State} (he : s.seatOne n g p = some r) :
    r.2.mem = s.mem := by
  unfold State.seatOne at he
  repeat' split at he
  all_goals cases he
  all_goals simp

/-! MMA, MCNT and MMRG.peer. -/

@[simp] theorem State.addReq_keeps_mem (s : State) (qd : Nat) (e : Req) : (s.addReq qd e).mem = s.mem := by rfl

theorem Eff.ite_mem {c : Prop} [Decidable c] {a b : Eff} {m : Mem} (ha : a.state.mem = m) (hb : b.state.mem = m) :
    (if c then a else b).state.mem = m := by
  split
  · exact ha
  · exact hb

@[simp] theorem mmaEff_mem (i : Iss) (s : State) : (mmaEff i s).state.mem = s.mem := by
  unfold mmaEff
  repeat refine Eff.ite_mem rfl ?_
  split
  · rfl
  · exact Eff.ite_mem rfl (by simp)

@[simp] theorem mcntEff_mem (i : Iss) (s : State) : (mcntEff i s).state.mem = s.mem := by
  unfold mcntEff
  repeat refine Eff.ite_mem rfl ?_
  split
  · rfl
  · exact Eff.ite_mem rfl (by simp)

@[simp] theorem mmrgPeerEff_mem (i : Iss) (s : State) : (mmrgPeerEff i s).state.mem = s.mem := by
  unfold mmrgPeerEff
  repeat refine Eff.ite_mem rfl ?_
  split
  · split <;> rfl
  · repeat refine Eff.ite_mem rfl ?_
    split
    · rfl
    · exact Eff.ite_mem rfl (by simp)

/-! Arrivals and seats. -/

theorem State.acceptMdrna_mem {s : State} {e : Req} {t : State} (he : s.acceptMdrna e = some t) : t.mem = s.mem := by
  unfold State.acceptMdrna at he
  dsimp only at he
  split at he
  · cases he; rfl
  · split at he
    · cases he; rfl
    · split at he <;> cases he
      simp

theorem State.accept_mem {s : State} {port : Nat} {f : Flit} {r : Bool × State} (he : s.accept port f = some r) : r.2.mem = s.mem := by
  unfold State.accept at he
  dsimp only at he
  split at he
  · cases he
  · split at he
    · cases he; simp
    · split at he <;> cases he
      simp

theorem foldl_bind_keeps {α β : Type} {p : β → Prop} {f : β → α → Option β} (h : ∀ b a c, p b → f b a = some c → p c) (l : List α) :
    ∀ {o : Option β}, (∀ b, o = some b → p b) → ∀ {c}, l.foldl (fun acc a => acc.bind fun b => f b a) o = some c → p c := by
  induction l with
  | nil => exact fun start _ e => start _ e
  | cons a r ih =>
    refine fun start _ e => ih (fun c step => ?_) e
    obtain ⟨b, he, hf⟩ := Option.bind_eq_some_iff.1 step
    exact h b a c (start b he) hf

theorem State.restoreGroup_mem {s : State} {ctx gid ghost : Nat} {t : State} (he : s.restoreGroup ctx gid ghost = some t) :
    t.mem = s.mem := by
  unfold State.restoreGroup at he
  dsimp only at he
  split at he
  · cases he
  · cases he
    simp only [State.modCtx_mem, State.renameOps_mem, State.modPart_mem]
    refine (State.foldl_mem (fun _ _ => by rfl) _ _).trans ?_
    rw [State.rephys_mem, State.modGroup_mem]
    exact State.foldl_mem (fun _ _ => by rfl) _ _

theorem State.seat_mem {s : State} {n : BlockNeed} {gs : List Group} {at_ : List Place} {r : List Nat × State}
    (he : s.seat n gs at_ = some r) : r.2.mem = s.mem := by
  unfold State.seat at he
  dsimp only at he
  split at he
  · cases he
  · split at he
    next => cases he
    next s0 moded =>
      have start : s0.mem = s.mem := foldl_bind_keeps (p := fun t => t.mem = s.mem) (fun t q u ht hu => (State.fuseQuad_mem hu).trans ht) _
        (fun t e => by cases e; rfl) moded
      refine foldl_bind_keeps (p := fun r : List Nat × State => r.2.mem = s.mem) (fun r x u hr hu => ?_) _ (fun r e => ?_) he
      · obtain ⟨q, seated, rfl⟩ := Option.map_eq_some_iff.1 hu
        exact (State.seatOne_mem seated).trans hr
      · cases e
        exact (State.foldl_mem (fun _ _ => by simp) _ _).trans start

end Sys2Proof.Machine
end

section
/-! What stores. Each function of the model that may change memory leaves it in its canonical form (R265, R266), because what it stores it stores by
`Mem.write`; in the order in which they call one another. -/

namespace Sys2Proof.Machine

/-- A fold of steps that each keep memory canonical keeps it canonical. -/
theorem State.foldl_wf {α : Type} {f : State → α → State} (h : ∀ s a, Mem.wf s.mem = true → Mem.wf (f s a).mem = true) (l : List α)
    {s : State} (hs : Mem.wf s.mem = true) : Mem.wf (l.foldl f s).mem = true := by
  induction l generalizing s with
  | nil => exact hs
  | cons a r ih => exact ih (h s a hs)

@[simp] theorem Mem.ite_wf (c : Prop) [Decidable c] (a b : Mem) : Mem.wf (if c then a else b) = if c then Mem.wf a else Mem.wf b :=
  apply_ite Mem.wf c a b

theorem capped_wf {names : Ins → List Nat} {eff : Iss → State → Eff} {i : Iss} {s : State} (h : Mem.wf s.mem = true)
    (he : Mem.wf (eff i s).state.mem = true) : Mem.wf (capped names eff i s).state.mem = true := by
  unfold capped
  split
  · exact h
  · exact he

theorem withLoadRoom_wf {eff : Iss → State → Eff} {i : Iss} {s : State} (he : ∀ s, Mem.wf s.mem = true → Mem.wf (eff i s).state.mem = true)
    (h : Mem.wf s.mem = true) : Mem.wf (withLoadRoom eff i s).state.mem = true := by
  have settled : Mem.wf (s.settle i).1.mem = true := by simp [h]
  unfold withLoadRoom
  split
  · exact he s h
  · split
    · exact h
    · split
      next s1 t e => rw [e] at settled; exact settled
      next s1 e =>
        rw [e] at settled
        split
        · exact he s1 settled
        · exact settled

theorem State.getD_wf {o : Option State} {s : State} (h : Mem.wf s.mem = true) (ho : ∀ t, o = some t → Mem.wf t.mem = true) :
    Mem.wf (o.getD s).mem = true := by
  cases o with
  | none => exact h
  | some t => exact ho t rfl

/-- An effect keeps canonical memory canonical. -/
def KeepsCanonical (eff : Iss → State → Eff) : Prop := ∀ i s, Mem.wf s.mem = true → Mem.wf (eff i s).state.mem = true

theorem Mem.foldl_write_nil_wf (m : Mem) (f : Nat → Nat) : Mem.wf (m.foldl (fun m c => Mem.write m (f c.1) c.2) []) = true :=
  List.foldlRecOn (motive := fun m => Mem.wf m = true) _ _ rfl fun _ hm c _ => Mem.write_wf hm (f c.1) c.2

theorem RegWrite.of_ite {c p : Prop} [Decidable c] {a b : RegWrite} {t : State} (ha : a = .plain t → p) (hb : b = .plain t → p)
    (he : (if c then a else b) = .plain t) : p := by
  split at he
  · exact ha he
  · exact hb he

theorem State.foldl_memOk {α : Type} {f : State → α → State} (h : ∀ s a, s.memOk → (f s a).memOk) (l : List α) {s : State} (hs : s.memOk) :
    (l.foldl f s).memOk := State.foldl_wf h l hs

theorem State.unless_modDie_memOk {s : State} (h : s.memOk) (c : Prop) [Decidable c] (d : Nat) (f : Die → Die) :
    (if c then s else s.modDie d f).memOk := by
  split
  · exact h
  · rw [State.memOk, State.modDie_mem]; exact h

theorem State.homeBytes_memOk {s : State} (h : s.memOk) (pa : Nat) (bs : List Byte) :
    (s.homeBytes pa bs).memOk := State.homeBytes_wf h pa bs

theorem State.withErasure_memOk {s : State} (h : s.memOk) (e : Erasure) : ({ s with erasure := e } : State).memOk := h
theorem State.askStripe_memOk {s : State} (h : s.memOk) : s.askStripe.memOk := by rw [State.memOk, State.askStripe_mem]; exact h

/-! Fault records, clamps and traps (R312, R351). -/

@[simp] theorem State.putRecord_wf {s : State} {ctx : Nat} {r : FRec} (h : Mem.wf s.mem = true) :
    Mem.wf (s.putRecord ctx r).mem = true := by
  unfold State.putRecord
  grind [State.homeBytes_wf, State.modCtx_mem]

@[simp] theorem State.logRecord_wf {s : State} {ctx : Nat} {r : FRec} (h : Mem.wf s.mem = true) :
    Mem.wf (s.logRecord ctx r).mem = true := by
  simp [State.logRecord, h]

@[simp] theorem State.clampCtx_wf {s : State} {ctx trig cause : Nat} {addr : Dword} (h : Mem.wf s.mem = true) :
    Mem.wf (s.clampCtx ctx trig cause addr).mem = true := by
  simp [State.clampCtx, h]

@[simp] theorem State.clampGroup_wf {s : State} {gid trig cause : Nat} {addr : Dword} (h : Mem.wf s.mem = true) :
    Mem.wf (s.clampGroup gid trig cause addr).mem = true := by
  simp [State.clampGroup, h]

@[simp] theorem State.routeHandler_wf {s : State} {gid slot : Nat} {t : Trap} (h : Mem.wf s.mem = true) :
    Mem.wf (s.routeHandler gid slot t).mem = true := by
  simp [State.routeHandler, h]

@[simp] theorem State.raise_wf {s : State} {gid slot : Nat} {t : Trap} (h : Mem.wf s.mem = true) :
    Mem.wf (s.raise gid slot t).mem = true := by
  simp [State.raise, h]

theorem Eff.settle_wf {i : Iss} {e : Eff} (h : Mem.wf e.state.mem = true) : Mem.wf (e.settle i).mem = true := by
  cases e with
  | done s => simpa [Eff.settle] using h
  | moved s => simpa [Eff.settle] using h
  | trap t s => exact State.raise_wf h
  | wait s => simpa [Eff.settle] using h

/-! The issue of an instruction. -/

@[simp] theorem State.reservedTrap_wf {s : State} {gid slot : Nat} {w : Words} (h : Mem.wf s.mem = true) :
    Mem.wf (s.reservedTrap gid slot w).mem = true := by
  simp [State.reservedTrap, h]

theorem State.checked_wf {s : State} {i : Iss} {eff : Iss → State → Eff} (h : Mem.wf s.mem = true) (he : KeepsCanonical eff) :
    Mem.wf (s.checked i eff).mem = true := by
  unfold State.checked
  split
  · exact State.raise_wf h
  · split
    · exact State.raise_wf h
    · exact Eff.settle_wf (he i s h)

theorem State.committed_wf {s : State} {i : Iss} {eff : Iss → State → Eff} (h : Mem.wf s.mem = true) (he : KeepsCanonical eff) :
    Mem.wf (s.committed i eff).mem = true := by
  have settled : Mem.wf (s.settle i).1.mem = true := by simp [h]
  unfold State.committed
  split
  next s1 t e =>
    rw [e] at settled
    exact State.raise_wf settled
  next s1 e =>
    rw [e] at settled
    exact State.checked_wf settled he

theorem State.issued_wf {s : State} {i : Iss} {eff : Iss → State → Eff} (h : Mem.wf s.mem = true) (he : KeepsCanonical eff) :
    Mem.wf (s.issued i eff).mem = true := by
  unfold State.issued
  split
  · exact State.checked_wf h he
  · split
    · exact State.committed_wf h he
    · simpa using h

/-! Lanes that fail, and the global instructions. -/

@[simp] theorem State.recordPages_wf {s : State} {i : Iss} {acc : Nat} {await : Bool} {absent : List (Nat × Nat)}
    (h : Mem.wf s.mem = true) : Mem.wf (s.recordPages i acc await absent).mem = true :=
  State.foldl_wf (fun s a hs => by simp [hs]) _ h

@[simp] theorem State.found_wf {s : State} {ctx pa : Nat} (h : Mem.wf s.mem = true) : Mem.wf (s.found ctx pa).mem = true := by
  unfold State.found
  split <;> simp [h]

@[simp] theorem State.foundAll_wf {s : State} {ctx : Nat} {pas : List Nat} (h : Mem.wf s.mem = true) :
    Mem.wf (s.foundAll ctx pas).mem = true :=
  State.foldl_wf (fun s a hs => by simp [hs]) _ h

@[simp] theorem State.walkFound_wf {s : State} {ctx va : Nat} (h : Mem.wf s.mem = true) : Mem.wf (s.walkFound ctx va).mem = true := by
  unfold State.walkFound
  split <;> simp [h]

@[simp] theorem State.foundLanes_wf {s : State} {i : Iss} {n : Need} {bad : List (Nat × Nat × Cause)} (h : Mem.wf s.mem = true) :
    Mem.wf (s.foundLanes i n bad).mem = true := by
  unfold State.foundLanes
  grind [State.foundAll_wf, State.walkFound_wf, State.foldl_wf]

@[simp] theorem State.unfinished_wf {s : State} {i : Iss} {n : Need} {uni some_ : Bool} {bad : List (Nat × Nat × Cause)}
    (h : Mem.wf s.mem = true) : Mem.wf (s.unfinished i n uni some_ bad).state.mem = true := by
  unfold State.unfinished
  split <;> simp [h]

theorem globalEff_wf {n : Need} {uni : Bool} {w : Nat} {la : List (Nat × Nat)} {perform : State → List (Nat × Nat × Nat) → State} {i : Iss}
    {s : State} (hp : ∀ s ok, (perform s ok).mem = s.mem) (h : Mem.wf s.mem = true) :
    Mem.wf (globalEff n uni w la perform i s).state.mem = true := by
  have performed : ∀ ok b, Mem.wf (if b = true then s else perform s ok).mem = true := fun ok b => by split <;> simp [hp, h]
  unfold globalEff
  split
  · exact h
  · dsimp only
    split
    · exact performed _ _
    · exact State.unfinished_wf (performed _ _)

@[simp] theorem ldEff_wf {i : Iss} {s : State} (h : Mem.wf s.mem = true) : Mem.wf (ldEff i s).state.mem = true := by
  unfold ldEff
  refine withLoadRoom_wf (fun s hs => capped_wf hs (globalEff_wf (fun s ok => ?_) hs)) h
  dsimp only
  split <;> simp [State.foldl_mem]

@[simp] theorem stEff_wf {i : Iss} {s : State} (h : Mem.wf s.mem = true) : Mem.wf (stEff i s).state.mem = true := by
  unfold stEff
  refine globalEff_wf (fun s ok => ?_) h
  simp [State.foldl_mem]

@[simp] theorem atomIssue_wf {i : Iss} {s : State} (h : Mem.wf s.mem = true) : Mem.wf (atomIssue i s).state.mem = true := by
  unfold atomIssue
  refine capped_wf h (globalEff_wf (fun s ok => ?_) h)
  dsimp only
  split
  · simp
  · split <;> simp

@[simp] theorem atomEff_wf {i : Iss} {s : State} (h : Mem.wf s.mem = true) : Mem.wf (atomEff i s).state.mem = true := by
  unfold atomEff
  split
  · exact atomIssue_wf h
  · exact withLoadRoom_wf (fun s hs => atomIssue_wf hs) h

@[simp] theorem redEff_wf {i : Iss} {s : State} (h : Mem.wf s.mem = true) : Mem.wf (redEff i s).state.mem = true := by
  unfold redEff
  exact globalEff_wf (fun s ok => by simp) h

@[simp] theorem redoEff_wf {i : Iss} {s : State} (h : Mem.wf s.mem = true) : Mem.wf (redoEff i s).state.mem = true := by
  unfold redoEff
  grind [State.releaseFor_mem, State.modGroup_mem, State.newId_mem, State.unfinished_wf, Eff.state, State.foldl_wf]

@[simp] theorem gldEff_wf {i : Iss} {s : State} (h : Mem.wf s.mem = true) : Mem.wf (gldEff i s).state.mem = true := by
  unfold gldEff
  dsimp only
  split
  · exact h
  · exact withLoadRoom_wf (fun s hs => globalEff_wf (fun s ok => by simp [State.foldl_mem]) hs) h

@[simp] theorem gstEff_wf {i : Iss} {s : State} (h : Mem.wf s.mem = true) : Mem.wf (gstEff i s).state.mem = true := by
  unfold gstEff
  refine globalEff_wf (fun s ok => ?_) h
  dsimp only
  repeat' split
  all_goals simp [State.foldl_mem]

@[simp] theorem State.recordFault_wf {s : State} {i : Iss} {va : Nat} {c : Cause} (h : Mem.wf s.mem = true) :
    Mem.wf (s.recordFault i va c).state.mem = true := by
  unfold State.recordFault
  dsimp only
  repeat' split
  all_goals simp [h]

/-! Lines that leave an L1, and lines asked of another package. -/

@[simp] theorem State.addError_wf {s : State} {line ctx : Nat} (h : Mem.wf s.mem = true) : Mem.wf (s.addError line ctx).mem = true := by
  unfold State.addError
  split <;> simp [h]

@[simp] theorem State.wbLine_wf {s : State} {l1 line : Nat} (h : Mem.wf s.mem = true) : Mem.wf (s.wbLine l1 line).mem = true := by
  unfold State.wbLine
  grind [State.setL1_mem, State.addError_wf, State.newId_mem, State.sendBack_mem, State.foldl_wf]

@[simp] theorem State.frozenLost_wf {s : State} {ctx src pa : Nat} (h : Mem.wf s.mem = true) :
    Mem.wf (s.frozenLost ctx src pa).mem = true := by
  simp [State.frozenLost, h]

@[simp] theorem State.goneLost_wf {s : State} {ctx pa : Nat} (h : Mem.wf s.mem = true) : Mem.wf (s.goneLost ctx pa).mem = true := by
  simp [State.goneLost, h]

@[simp] theorem State.wbDone_wf {s : State} {a : Access} {cold gone : BitVec 64} {bad : Bool} (h : Mem.wf s.mem = true) :
    Mem.wf (s.wbDone a cold gone bad).mem = true := by
  unfold State.wbDone
  grind [State.performed_mem, State.frozenLost_wf, State.goneLost_wf]

theorem State.remote_wf {s : State} {a : Access} {type : Nat} {payload : List Byte} (h : Mem.wf s.mem = true) {t : State}
    (he : s.remote a type payload = some t) : Mem.wf t.mem = true := by
  unfold State.remote at he
  repeat' split at he
  all_goals cases he
  all_goals simp [h]

@[simp] theorem State.askFor_wf {s : State} {o : Origin} {core ctx pa st : Nat} (h : Mem.wf s.mem = true) :
    Mem.wf (s.askFor o core ctx pa st).mem = true := by
  unfold State.askFor
  exact State.getD_wf (by simp [h]) fun t e => State.remote_wf (by simp [h]) e

theorem State.needLines_wf {s : State} {o : Origin} {core ctx st : Nat} {pas : List Nat} (h : Mem.wf s.mem = true) {t : State}
    (he : s.needLines o core ctx st pas = some t) : Mem.wf t.mem = true := by
  unfold State.needLines at he
  grind [State.askFor_wf, State.foldl_wf]

theorem State.linesReady_wf {s : State} {o : Origin} {core ctx st : Nat} {pas : List Nat} (h : Mem.wf s.mem = true) {t : State}
    (he : s.linesReady o core ctx st pas = some t) : Mem.wf t.mem = true := by
  unfold State.linesReady at he
  grind [State.wbLine_wf, State.needLines_wf, State.foldl_wf]

/-! Instructions that read records or freeze pages. -/

theorem State.fetchRecord_wf {s : State} {i : Iss} {va n : Nat} (h : Mem.wf s.mem = true) {t : State}
    (he : s.fetchRecord i va n = .wait t) : Mem.wf t.mem = true := by
  unfold State.fetchRecord at he
  dsimp only at he
  split at he
  · cases he
  · split at he
    next s1 e => cases he; exact State.linesReady_wf h e
    next => split at he <;> cases he

@[simp] theorem lnchEff_wf {i : Iss} {s : State} (h : Mem.wf s.mem = true) : Mem.wf (lnchEff i s).state.mem = true := by
  have released : Mem.wf (s.releaseDone { i with exec := i.active } 4).2.mem = true := by simp [h]
  unfold lnchEff
  dsimp only
  split
  · exact h
  · split
    · exact h
    · split
      next s1 e => rw [e] at released; exact released
      next s1 e =>
        rw [e] at released
        split
        · exact released
        · split
          · exact State.recordFault_wf released
          next s2 ready => exact State.fetchRecord_wf released ready
          next pas bs ready =>
            split
            · simpa using released
            · split
              · simpa using released
              · simp [State.homeBytes_wf, released]

@[simp] theorem freezeEff_wf {thaw : Bool} {i : Iss} {s : State} (h : Mem.wf s.mem = true) :
    Mem.wf (freezeEff thaw i s).state.mem = true := by
  unfold freezeEff
  grind [State.unfinished_wf, State.releaseDone_mem, State.thawStep_mem, State.frzStep_mem, State.countOp_mem, State.endOp_mem, Eff.state,
    State.foldl_wf]

@[simp] theorem frzqEff_wf {i : Iss} {s : State} (h : Mem.wf s.mem = true) : Mem.wf (frzqEff i s).state.mem = true := by
  unfold frzqEff
  refine withLoadRoom_wf (fun s hs => ?_) h
  dsimp only
  split
  · exact State.unfinished_wf hs
  · split
    · exact hs
    · simp [hs]

@[simp] theorem State.wbAll_wf {s : State} {l1 : Nat} (h : Mem.wf s.mem = true) : Mem.wf (s.wbAll l1).mem = true :=
  State.foldl_wf (fun s a hs => by simp [hs]) _ h

@[simp] theorem pbarEff_wf {i : Iss} {s : State} (h : Mem.wf s.mem = true) : Mem.wf (pbarEff i s).state.mem = true := by
  simp [pbarEff, h]

/-! Operations that end, and collectives. -/

@[simp] theorem State.endGhost_wf {s : State} {ctx gid : Nat} {cls : Cls} {n : Nat} {fail : Option Fail} (h : Mem.wf s.mem = true) :
    Mem.wf (s.endGhost ctx gid cls n fail).mem = true := by
  unfold State.endGhost
  grind [State.modCtx_mem, State.logRecord_wf, State.foldl_wf]

@[simp] theorem State.finishOp_wf {s : State} {ctx gid : Nat} {cls : Cls} {n : Nat} {fail : Option Fail} (h : Mem.wf s.mem = true) :
    Mem.wf (s.finishOp ctx gid cls n fail).mem = true := by
  simp [State.finishOp, h]

@[simp] theorem State.failMembers_wf {s : State} {ms : List Member} {idx : Nat} {f : Fail} (h : Mem.wf s.mem = true) :
    Mem.wf (s.failMembers ms idx f).mem = true :=
  State.foldl_wf (fun s a hs => by simp [hs]) _ h

@[simp] theorem State.failHere_wf {s : State} {c : Coll} {idx : Nat} {f : Fail} (h : Mem.wf s.mem = true) :
    Mem.wf (s.failHere c idx f).mem = true := by
  simp [State.failHere, h]

@[simp] theorem State.failColl_wf {s : State} {c : Coll} {idx : Nat} {f : Fail} (h : Mem.wf s.mem = true) :
    Mem.wf (s.failColl c idx f).mem = true := by
  simp [State.failColl, h]

@[simp] theorem State.contribute_wf {s : State} {c0 : Coll} {m : Member} (h : Mem.wf s.mem = true) :
    Mem.wf (s.contribute c0 m).mem = true := by
  unfold State.contribute
  split <;> simp [h]

@[simp] theorem collEff_wf {i : Iss} {s : State} (h : Mem.wf s.mem = true) : Mem.wf (collEff i s).state.mem = true := by
  unfold collEff
  dsimp only
  split
  · exact h
  · split
    · exact h
    · split
      · exact State.recordFault_wf h
      next s1 ready => exact State.fetchRecord_wf h ready
      next pas head ready =>
        split
        · simpa using h
        · split
          · exact State.recordFault_wf h
          next s1 ready2 => exact State.fetchRecord_wf h ready2
          next pas2 bs ready2 =>
            split
            · simpa using h
            · split
              · simpa using h
              · exact State.contribute_wf (by simpa using h)

@[simp] theorem sigaddEff_wf {i : Iss} {s : State} (h : Mem.wf s.mem = true) : Mem.wf (sigaddEff i s).state.mem = true := by
  unfold sigaddEff
  dsimp only
  repeat' split
  all_goals simp [h]

theorem State.sigTest_wf {s : State} {i : Iss} (h : Mem.wf s.mem = true) {t : State} (he : s.sigTest i = .wait t) :
    Mem.wf t.mem = true := by
  unfold State.sigTest at he
  dsimp only at he
  split at he
  · cases he
  · split at he
    · cases he
    · split at he
      next s1 e => cases he; exact State.linesReady_wf h e
      next => grind [State.linesRead_mem]

@[simp] theorem sigwaitIssue_wf {i : Iss} {s : State} (h : Mem.wf s.mem = true) : Mem.wf (sigwaitIssue i s).state.mem = true := by
  unfold sigwaitIssue
  grind [State.recordFault_wf, State.acquire_mem, State.linesRead_mem, State.newUniLoad_mem, State.returnWords_mem, State.sigTest_wf,
    Eff.state]

@[simp] theorem sigwaitEff_wf {i : Iss} {s : State} (h : Mem.wf s.mem = true) : Mem.wf (sigwaitEff i s).state.mem = true := by
  unfold sigwaitEff
  split
  · exact sigwaitIssue_wf h
  · exact withLoadRoom_wf (fun s hs => sigwaitIssue_wf hs) h

/-! Tests for being ready, barriers and the ends of runs. -/

theorem State.refuseSplit_wf {s : State} {gid slot : Nat} (h : Mem.wf s.mem = true) {t : State} (he : s.refuseSplit gid slot = some t) :
    Mem.wf t.mem = true := by
  unfold State.refuseSplit at he
  dsimp only at he
  repeat' split at he
  all_goals cases he
  all_goals simp [h]

theorem waitingEff_keeps {op m12 : Nat} {eff : Iss → State → Eff} (he : waitingEff op m12 = some eff) : KeepsCanonical eff := by
  unfold waitingEff at he
  split at he
  all_goals cases he
  any_goals split
  all_goals
    intro i s h
    simp [h]

@[simp] theorem State.readyTest_wf {s : State} {i : Iss} (h : Mem.wf s.mem = true) : Mem.wf (s.readyTest i).2.mem = true := by
  unfold State.readyTest
  split
  · exact h
  · split
    · exact h
    · split
      · exact h
      next eff known =>
        have kept := waitingEff_keeps known i s h
        split
        next s1 waits =>
          rw [waits] at kept
          exact kept
        next => exact h

@[simp] theorem State.firstTest_wf {s : State} {i : Iss} (h : Mem.wf s.mem = true) : Mem.wf (s.firstTest i).2.mem = true := by
  unfold State.firstTest
  grind [State.readyTest_wf, State.settle_mem]

@[simp] theorem State.testReady_wf {s : State} {gid slot : Nat} (h : Mem.wf s.mem = true) : Mem.wf (s.testReady gid slot).mem = true := by
  unfold State.testReady
  dsimp only
  repeat' split
  all_goals grind [State.modGroup_mem, State.refuseSplit_wf, State.firstTest_wf]

@[simp] theorem State.testGroup_wf {s : State} {gid : Nat} (h : Mem.wf s.mem = true) : Mem.wf (s.testGroup gid).mem = true :=
  State.foldl_wf (fun s a hs => by simp [hs]) _ h

@[simp] theorem State.releaseGroup_wf {s : State} {gid lvl : Nat} {m : Mask} (h : Mem.wf s.mem = true) :
    Mem.wf (s.releaseGroup gid lvl m).mem = true := by
  simp [State.releaseGroup, h]

@[simp] theorem State.refuseGroup_wf {s : State} {gid cnt : Nat} {m : Mask} (h : Mem.wf s.mem = true) :
    Mem.wf (s.refuseGroup gid cnt m).mem = true := by
  simp [State.refuseGroup, h]

@[simp] theorem State.barHere_wf {s : State} {lvl cnt kind who : Nat} (h : Mem.wf s.mem = true) :
    Mem.wf (s.barHere lvl cnt kind who).mem = true := by
  unfold State.barHere
  split <;> simp [h]

@[simp] theorem State.barAnswer_wf {s : State} {lvl job id cnt kind : Nat} {who : Nat × Nat} (h : Mem.wf s.mem = true) :
    Mem.wf (s.barAnswer lvl job id cnt kind who).mem = true := by
  simp [State.barAnswer, h]

@[simp] theorem State.barCount_wf {s : State} {lvl owner id cnt : Nat} {who : Nat × Nat} (h : Mem.wf s.mem = true) :
    Mem.wf (s.barCount lvl owner id cnt who).mem = true := by
  unfold State.barCount
  split <;> simp [h]

@[simp] theorem State.barJoin_wf {s : State} {job id cnt : Nat} {who : Nat × Nat} (h : Mem.wf s.mem = true) :
    Mem.wf (s.barJoin job id cnt who).mem = true := by
  simp [State.barJoin, h]

@[simp] theorem State.barPod_wf {s : State} {job id cnt : Nat} {who : Nat × Nat} (h : Mem.wf s.mem = true) :
    Mem.wf (s.barPod job id cnt who).mem = true := by
  unfold State.barPod
  grind [State.barCount_wf, State.barJoin_wf, State.foldl_wf]

@[simp] theorem State.barArrive_wf {s : State} {gid : Nat} (h : Mem.wf s.mem = true) : Mem.wf (s.barArrive gid).mem = true := by
  unfold State.barArrive
  dsimp only
  repeat' split
  all_goals simp [h]

@[simp] theorem State.endOfRun_wf {s : State} {core part : Nat} {r : Run} (h : Mem.wf s.mem = true) :
    Mem.wf (s.endOfRun core part r).mem = true := by
  simp [State.endOfRun, h]

@[simp] theorem State.rotate_wf {s : State} {gid slot : Nat} (h : Mem.wf s.mem = true) : Mem.wf (s.rotate gid slot).mem = true := by
  simp [State.rotate, h]

@[simp] theorem State.testCore_wf {s : State} {core : Nat} (h : Mem.wf s.mem = true) : Mem.wf (s.testCore core).mem = true :=
  State.foldl_wf (fun s a hs => by simp [hs]) _ h

@[simp] theorem State.fetchLine_wf {s : State} {core ctx line : Nat} (h : Mem.wf s.mem = true) :
    Mem.wf (s.fetchLine core ctx line).mem = true := by
  unfold State.fetchLine
  grind [State.needLines_wf, State.fillCode_mem, State.walkFound_wf, State.foundAll_wf, State.testCore_wf, State.preloaded_mem,
    State.dropKept_mem]

@[simp] theorem State.commitAt_wf {s : State} {gid slot : Nat} {w : Words} (h : Mem.wf s.mem = true) :
    Mem.wf (s.commitAt gid slot w).mem = true := by
  unfold State.commitAt
  grind [State.settle_mem, State.testReady_wf, State.raise_wf]

@[simp] theorem State.serveClaim_wf {s : State} {blk : Nat} {c : Claim} (h : Mem.wf s.mem = true) :
    Mem.wf (s.serveClaim blk c).mem = true := by
  simp [State.serveClaim, h]

@[simp] theorem State.breakPool_wf {s : State} {blk : Nat} (h : Mem.wf s.mem = true) : Mem.wf (s.breakPool blk).mem = true :=
  State.foldl_wf (fun s a hs => by simp [hs]) _ h

@[simp] theorem State.orphanTrap_wf {s : State} {gid slot : Nat} (h : Mem.wf s.mem = true) : Mem.wf (s.orphanTrap gid slot).mem = true := by
  unfold State.orphanTrap
  split <;> simp [h]

@[simp] theorem State.breakOrphans_wf {s : State} {blk : Nat} (h : Mem.wf s.mem = true) : Mem.wf (s.breakOrphans blk).mem = true :=
  State.foldl_wf (fun s a hs => by simp [hs]) _ h

@[simp] theorem State.barFinish_wf {s : State} {lvl owner id : Nat} (h : Mem.wf s.mem = true) :
    Mem.wf (s.barFinish lvl owner id).mem = true := by
  unfold State.barFinish
  grind [State.barAnswer_wf, State.foldl_wf]

@[simp] theorem State.leaveGhost_wf {s : State} {gid : Nat} {g : Group} (h : Mem.wf s.mem = true) :
    Mem.wf (s.leaveGhost gid g).mem = true := by
  simp [State.leaveGhost, h]

@[simp] theorem State.retire_wf {s : State} {gid : Nat} (h : Mem.wf s.mem = true) : Mem.wf (s.retire gid).mem = true := by
  unfold State.retire
  grind [State.modGroup_mem, State.logRecord_wf, State.enterPending_mem, State.removeGroup_mem, State.leaveGhost_wf, State.foldl_wf]

/-! Accesses whose turn it is (R266, R267). -/

theorem State.flushFirst_wf {s : State} {a : Access} {k : State → Option State} (h : Mem.wf s.mem = true)
    (hk : ∀ s t, Mem.wf s.mem = true → k s = some t → Mem.wf t.mem = true) {t : State} (he : s.flushFirst a k = some t) :
    Mem.wf t.mem = true := by
  unfold State.flushFirst at he
  dsimp only at he
  split at he
  · cases he
  · split at he
    · cases he; exact State.wbLine_wf h
    · split at he
      · cases he
      · exact hk _ t (by simp [h]) he

theorem State.readHome_wf {s : State} {a : Access} (h : Mem.wf s.mem = true) {t : State} (he : s.readHome a = some t) :
    Mem.wf t.mem = true := by
  unfold State.readHome at he
  grind [State.remote_wf, State.failed_mem, State.foundAll_wf, State.afterRead_mem, State.performed_mem]

@[simp] theorem State.makeRoom_wf {s : State} {l1 line : Nat} (h : Mem.wf s.mem = true) : Mem.wf (s.makeRoom l1 line).mem = true := by
  unfold State.makeRoom
  split
  · simp [h]
  · split <;> simp [h]

@[simp] theorem State.fillL1_wf {s : State} {l1 line ctx : Nat} {fresh : Bool} {data : List Byte} {frozen : Bool}
    (h : Mem.wf s.mem = true) : Mem.wf (s.fillL1 l1 line ctx fresh data frozen).mem = true := by
  simp [State.fillL1, h]

theorem State.remoteFill_wf {s : State} {a : Access} (h : Mem.wf s.mem = true) {t : State} (he : s.remoteFill a = some t) :
    Mem.wf t.mem = true := by
  unfold State.remoteFill at he
  grind [State.remote_wf, State.makeRoom_wf, State.setL1_mem]

theorem State.readL1_wf {s : State} {a : Access} (h : Mem.wf s.mem = true) {t : State} (he : s.readL1 a = some t) :
    Mem.wf t.mem = true := by
  unfold State.readL1 at he
  dsimp only at he
  repeat' split at he
  all_goals grind [State.afterRead_mem, State.performed_mem, State.failed_mem, State.setL1_mem, State.addError_wf, State.wbLine_wf,
    State.fillL1_wf, State.remoteFill_wf, State.found_wf, State.putNear_mem, State.holdDie_mem]

theorem State.writeHome_wf {s : State} {a : Access} (h : Mem.wf s.mem = true) {t : State} (he : s.writeHome a = some t) :
    Mem.wf t.mem = true := by
  unfold State.writeHome at he
  grind [State.remote_wf, State.failed_mem, State.foundAll_wf, State.performed_mem, State.updateCopy_mem, State.homeCells_wf]

theorem State.storeHome_wf {s : State} {a : Access} (h : Mem.wf s.mem = true) {t : State} (he : s.storeHome a = some t) :
    Mem.wf t.mem = true := by
  unfold State.storeHome at he
  grind [State.wbLine_wf, State.writeHome_wf]

@[simp] theorem State.sendLate_wf {s : State} {l1 line : Nat} {m : BitVec 64} (h : Mem.wf s.mem = true) :
    Mem.wf (s.sendLate l1 line m).mem = true := by
  simp [State.sendLate, h]

@[simp] theorem State.writeL1_wf {s : State} {a : Access} (h : Mem.wf s.mem = true) : Mem.wf (s.writeL1 a).mem = true := by
  unfold State.writeL1
  grind [State.makeRoom_wf, State.setL1_mem, State.performed_mem, State.sendLate_wf]

@[simp] theorem State.logRed_wf {s : State} {a : Access} {kind acc : Nat} (h : Mem.wf s.mem = true) :
    Mem.wf (s.logRed a kind acc).mem = true := by
  unfold State.logRed
  split <;> simp [h]

theorem State.atomHome_wf {s : State} {a : Access} {aop aty : Nat} (h : Mem.wf s.mem = true) {t : State}
    (he : s.atomHome a aop aty = some t) : Mem.wf t.mem = true := by
  unfold State.atomHome at he
  grind [State.remote_wf, State.performed_mem, State.logRed_wf, State.foundAll_wf, State.afterRead_mem, State.updateCopy_mem,
    State.homeCells_wf]

theorem State.wbHome_wf {s : State} {a : Access} (h : Mem.wf s.mem = true) {t : State} (he : s.wbHome a = some t) :
    Mem.wf t.mem = true := by
  unfold State.wbHome at he
  grind [State.remote_wf, State.wbDone_wf, State.found_wf, State.homeCells_wf]

@[simp] theorem State.relPart_wf {s : State} {a : Access} (h : Mem.wf s.mem = true) : Mem.wf (s.relPart a).mem = true := by
  unfold State.relPart
  grind [State.performed_mem, State.wbAll_wf]

theorem State.performNow_wf {s : State} {a : Access} (h : Mem.wf s.mem = true) {t : State} (he : s.performNow a = some t) :
    Mem.wf t.mem = true := by
  unfold State.performNow at he
  grind [State.flushFirst_wf, State.readHome_wf, State.readL1_wf, State.storeHome_wf, State.writeL1_wf, State.atomHome_wf,
    State.performed_mem, State.dropLine_mem, State.wbHome_wf, State.relPart_wf]

/-! Ordered reductions (R285, R286). -/

@[simp] theorem State.redoAnswered_wf {s : State} {gid slot : Nat} (h : Mem.wf s.mem = true) :
    Mem.wf (s.redoAnswered gid slot).mem = true := by
  unfold State.redoAnswered
  dsimp only
  repeat' split
  all_goals simp [h]

@[simp] theorem State.redoAnswer_wf {s : State} {m : RedoMsg} {r : RedoReply} (h : Mem.wf s.mem = true) :
    Mem.wf (s.redoAnswer m r).mem = true := by
  simp [State.redoAnswer, h]

theorem State.redoApply_wf {s : State} {r : RedoSlot} (h : Mem.wf s.mem = true) {t : State} (he : s.redoApply r = some t) :
    Mem.wf t.mem = true := by
  unfold State.redoApply at he
  extract_lets rec_ st w pas at he
  split at he
  · cases he; exact State.logRecord_wf h
  · split at he
    · cases he
    · split at he
      · cases he; exact State.logRecord_wf (State.foundAll_wf h)
      · split at he
        · cases he
        · obtain ⟨cells, -, rfl⟩ := Option.map_eq_some_iff.1 he
          exact State.homeCells_wf h cells

theorem State.redoTake_wf {s : State} {ctx pa aop aty n idx val sco rslot : Nat} (h : Mem.wf s.mem = true) {r : RedoReply × State}
    (he : s.redoTake ctx pa aop aty n idx val sco rslot = some r) : Mem.wf r.2.mem = true := by
  unfold State.redoTake at he
  split at he
  · cases he; exact h
  · split at he
    · cases he; exact h
    · dsimp only at he
      split at he
      · cases he; exact h
      · split at he
        · cases he; simpa using h
        · obtain ⟨s1, applied, rfl⟩ := Option.map_eq_some_iff.1 he
          simpa using State.redoApply_wf h applied

theorem State.redoArrive_wf {s : State} {m : RedoMsg} (h : Mem.wf s.mem = true) {t : State} (he : s.redoArrive m = some t) :
    Mem.wf t.mem = true := by
  unfold State.redoArrive at he
  dsimp only at he
  split at he
  · cases he
  · split at he
    · cases he; exact State.wbLine_wf h
    · split at he
      · cases he
      · split at he
        · split at he
          · cases he; simpa using h
          · cases he; exact State.redoAnswer_wf (by simpa using h)
        · obtain ⟨r, taken, rfl⟩ := Option.map_eq_some_iff.1 he
          exact State.redoAnswer_wf (State.redoTake_wf (by simpa using h) taken)

/-! Answers (R312). -/

@[simp] theorem State.deliver_wf {s : State} {w : Await} {r : Nat} (h : Mem.wf s.mem = true) : Mem.wf (s.deliver w r).mem = true := by
  unfold State.deliver
  dsimp only
  repeat' split
  all_goals simp [h]

@[simp] theorem State.answer_wf {s : State} {v : Dword} (h : Mem.wf s.mem = true) : Mem.wf (s.answer v).mem = true := by
  unfold State.answer
  repeat' split
  all_goals simp [h]

@[simp] theorem State.firmwareDone_wf {s : State} {gid slot : Nat} (h : Mem.wf s.mem = true) :
    Mem.wf (s.firmwareDone gid slot).mem = true := by
  unfold State.firmwareDone
  dsimp only
  repeat' split
  all_goals simp [h]

/-! Tongs. -/

@[simp] theorem State.engineFound_wf {s : State} {die ctx step va : Nat} {n : Need} (h : Mem.wf s.mem = true) :
    Mem.wf (s.engineFound die ctx step va n).mem = true := by
  unfold State.engineFound
  split <;> simp [h]

@[simp] theorem State.tongsStop_wf {s : State} {die engine ctx : Nat} {o : TongsOp} {side : Nat} {e : Stop} (h : Mem.wf s.mem = true) :
    Mem.wf (s.tongsStop die engine ctx o side e).mem = true := by
  simp [State.tongsStop, h]

theorem State.enginePut_wf {s : State} {gid step epoch pa : Nat} {bs : List Byte} (h : Mem.wf s.mem = true) {t : State}
    (he : s.enginePut gid step epoch pa bs = some t) : Mem.wf t.mem = true := by
  unfold State.enginePut at he
  split at he
  · cases he
  · obtain ⟨cells, -, rfl⟩ := Option.map_eq_some_iff.1 he
    simp [State.homeCells_wf h]

theorem State.enginePuts_wf {s : State} {die ctx gid step epoch va : Nat} {bs : List Byte} {ps : List (Nat × Nat × Nat)}
    (h : Mem.wf s.mem = true) {r : List Nat × State} (he : s.enginePuts die ctx gid step epoch va bs ps = some r) :
    Mem.wf r.2.mem = true := by
  unfold State.enginePuts at he
  split at he
  · cases he; exact h
  · split at he
    · obtain ⟨u, folded, rfl⟩ := Option.map_eq_some_iff.1 he
      exact foldl_bind_keeps (p :=
        fun s => Mem.wf s.mem = true) (fun s p t hs e => State.enginePut_wf hs e) _ (fun b e => by cases e; exact h) folded
    · split at he
      · cases he
      · cases he; simpa using h

theorem State.tongsStep_wf {s : State} {die engine ctx : Nat} {o : TongsOp} (h : Mem.wf s.mem = true) {t : State}
    (he : s.tongsStep die engine ctx o = some t) : Mem.wf t.mem = true := by
  unfold State.tongsStep at he
  dsimp only at he
  generalize (if (o.fill || o.ssp) = true then ([] : List Nat) else _) = far at he
  split at he
  · cases he; simpa using h
  · split at he
    · cases he
    · split at he
      · cases he
      · split at he
        next s1 asked =>
          split at he
          · cases he
          · cases he; exact State.needLines_wf h asked
        next =>
          split at he
          · cases he; exact State.tongsStop_wf h
          next bs _ =>
            have held : Mem.wf ((s.chunkCores o).foldl State.engineAt s).mem = true := State.foldl_wf (fun s a hs => by simpa using hs) _ h
            split at he
            · cases he; simpa using held
            · split at he
              · cases he; exact State.tongsStop_wf held
              · obtain ⟨r, put, rfl⟩ := Option.map_eq_some_iff.1 he
                simpa using State.enginePuts_wf held put

theorem State.tongsNext_wf {s : State} {die engine ctx : Nat} (h : Mem.wf s.mem = true) {t : State}
    (he : s.tongsNext die engine ctx = some t) : Mem.wf t.mem = true := by
  unfold State.tongsNext at he
  split at he
  · cases he
  · exact State.tongsStep_wf h he
  · obtain ⟨o, -, step⟩ := List.mem_filterMap.1 (List.mem_of_getElem? he)
    exact State.tongsStep_wf (by simpa using h) step

/-! Steps and snapshots. -/

@[simp] theorem State.endPs_wf {s : State} {ctx : Nat} {p : PsOp} (h : Mem.wf s.mem = true) : Mem.wf (s.endPs ctx p).mem = true := by
  simp [State.endPs, h]

theorem State.writeRec_wf {s : State} {ctx v : Nat} (h : Mem.wf s.mem = true) {t : State} (he : s.writeRec ctx v = some t) :
    Mem.wf t.mem = true := by
  unfold State.writeRec at he
  grind [State.homeBytes_wf]

theorem State.commitStep_wf {s : State} {ctx : Nat} {p : PsOp} (h : Mem.wf s.mem = true) {t : State} (he : s.commitStep ctx p = some t) :
    Mem.wf t.mem = true := by
  unfold State.commitStep at he
  split at he
  · cases he
  · split at he
    · cases he; exact State.endPs_wf h
    · obtain ⟨s1, written, rfl⟩ := Option.map_eq_some_iff.1 he
      exact State.endPs_wf (by simpa using State.writeRec_wf h written)

theorem State.abortStep_wf {s : State} {ctx : Nat} {p : PsOp} (h : Mem.wf s.mem = true) {t : State} (he : s.abortStep ctx p = some t) :
    Mem.wf t.mem = true := by
  unfold State.abortStep at he
  grind [State.endPs_wf, State.modCtx_mem, State.homeCells_wf]

@[simp] theorem State.endSnap_wf {s : State} {die : Nat} {n : Snap} {fail : Option Fail} (h : Mem.wf s.mem = true) :
    Mem.wf (s.endSnap die n fail).mem = true := by
  simp [State.endSnap, h]

theorem State.codedPut_wf {s : State} {die ctx gid va pa : Nat} {bs : List Byte} (h : Mem.wf s.mem = true) {r : List Nat × State}
    (he : s.codedPut die ctx gid va pa bs = some r) : Mem.wf r.2.mem = true := by
  unfold State.codedPut at he
  dsimp only at he
  split at he
  · cases he
  · cases he
    refine List.foldlRecOn (motive := fun r : List Nat × State => Mem.wf r.2.mem = true) _ _ (State.homeBytes_wf h _ _) fun r hr j _ => ?_
    simpa using hr

theorem State.snapPut_wf {s : State} {die : Nat} {n : Snap} {va pa : Nat} {bs : List Byte} (h : Mem.wf s.mem = true) {r : List Nat × State}
    (he : s.snapPut die n va pa bs = some r) : Mem.wf r.2.mem = true := by
  unfold State.snapPut at he
  grind [State.engineSend_mem, State.codedPut_wf, State.homeBytes_wf]

theorem State.snapStep_wf {s : State} {die : Nat} {n : Snap} (h : Mem.wf s.mem = true) {t : State} (he : s.snapStep die n = some t) :
    Mem.wf t.mem = true := by
  unfold State.snapStep at he
  split at he
  · cases he; exact State.endSnap_wf h
  · dsimp only at he
    split at he
    · cases he
    · split at he
      · cases he; exact State.endSnap_wf (State.foundAll_wf h)
      · split at he
        · cases he; exact State.logRecord_wf (by simpa using h)
        next c _ =>
          cases he
          refine State.endSnap_wf ?_
          split
          · split
            · exact State.found_wf h
            · exact h
          · exact h
        next pa _ =>
          obtain ⟨r, put, rfl⟩ := Option.map_eq_some_iff.1 he
          have copied := State.snapPut_wf h put
          split
          · exact State.endSnap_wf copied
          · simpa using copied

/-! Launch and placement. -/

@[simp] theorem State.haltQueue_wf {s : State} {q cause off addr : Nat} (h : Mem.wf s.mem = true) :
    Mem.wf (s.haltQueue q cause off addr).mem = true := by
  simp [State.haltQueue, h]

@[simp] theorem State.testPred_wf {s : State} {q n : Nat} (h : Mem.wf s.mem = true) : Mem.wf (s.testPred q n).mem = true := by
  unfold State.testPred
  dsimp only
  repeat' split
  all_goals simp [h]

@[simp] theorem State.tryRecord_wf {s : State} {q : Nat} (h : Mem.wf s.mem = true) : Mem.wf (s.tryRecord q).mem = true := by
  unfold State.tryRecord
  extract_lets lq ws pas s1
  have tested : Mem.wf s1.mem = true := State.foldl_wf (fun s n hs => by split; exacts [hs, State.testPred_wf hs]) _ h
  split
  · exact State.haltQueue_wf (State.foundAll_wf h)
  · split
    · exact State.haltQueue_wf h
    · split
      · exact tested
      · simpa using tested

theorem State.complete_wf {s : State} {ctx va : Nat} (h : Mem.wf s.mem = true) {t : State} (he : s.complete ctx va = some t) :
    Mem.wf t.mem = true := by
  unfold State.complete at he
  grind [State.logRecord_wf, State.found_wf, State.homeBytes_wf]

theorem State.flush_wf {s : State} {l1s : List Nat} (h : Mem.wf s.mem = true) {t : State}
    (he : s.flush l1s = .clean t ∨ s.flush l1s = .begun t) : Mem.wf t.mem = true := by
  have swept : Mem.wf (l1s.foldl (fun s l => s.wbAll l) s).mem = true := State.foldl_wf (fun s l hs => State.wbAll_wf hs) l1s h
  unfold State.flush at he
  dsimp only at he
  generalize l1s.foldl (fun s l => s.wbAll l) s = s1 at swept he
  generalize List.filter _ _ = ids at he
  have performed : Mem.wf (ids.foldl (fun s id => match s.accs.find? fun a => a.id == id && !a.sent && !a.done with
    | some a => (s.performNow a).getD s
    | none => s) s1).mem = true := by
    refine State.foldl_wf (fun s id hs => ?_) ids swept
    split
    · exact State.getD_wf hs fun t e => State.performNow_wf hs e
    · exact hs
  grind

/-! Quads and contexts. -/

theorem State.remoded_wf {s : State} {quads : List Nat} {fuse : Bool} {k : State → Option State} (h : Mem.wf s.mem = true)
    (hk : ∀ s t, Mem.wf s.mem = true → k s = some t → Mem.wf t.mem = true) {t : State} (he : s.remoded quads fuse k = some t) :
    Mem.wf t.mem = true := by
  unfold State.remoded at he
  split at he
  · exact hk s t h he
  · split at he
    next s1 e => exact hk s1 t (State.flush_wf h (.inl e)) he
    next s1 e => cases he; exact State.flush_wf h (.inr e)
    next => cases he

@[simp] theorem State.settled_wf {s : State} {ctx blk : Nat} {entry : CodeAddr} {at_ : List Place} (h : Mem.wf s.mem = true) :
    Mem.wf (s.settled ctx blk entry at_).mem = true := by
  unfold State.settled
  grind [State.modCore_mem, State.invalidate_mem, State.relevel_mem, State.markIdle_mem, State.testCore_wf, State.foldl_wf]

theorem State.placeNow_wf {s : State} {grid : Nat} {at_ : List Place} (h : Mem.wf s.mem = true) {t : State}
    (he : s.placeNow grid at_ = some t) : Mem.wf t.mem = true := by
  unfold State.placeNow at he
  split at he
  · cases he
  · dsimp only at he
    obtain ⟨r, seated, rfl⟩ := Option.map_eq_some_iff.1 he
    refine State.settled_wf ?_
    simpa [State.seat_mem seated] using h

theorem State.placeBlock_wf {s : State} {grid : Nat} {at_ : List Place} (h : Mem.wf s.mem = true) {t : State}
    (he : s.placeBlock grid at_ = some t) : Mem.wf t.mem = true := by
  unfold State.placeBlock at he
  split at he
  · cases he
  · dsimp only at he
    split at he
    · cases he
    · refine State.remoded_wf h (fun s t hs e => ?_) he
      obtain ⟨u, placed, rfl⟩ := Option.map_eq_some_iff.1 e
      split
      · simpa using State.placeNow_wf hs placed
      · exact State.foldl_wf (fun s q hs => by simpa using hs) _ hs

theorem State.gate_wf {s : State} {q : Nat} (h : Mem.wf s.mem = true) {t : State} (he : s.gate q = some t) : Mem.wf t.mem = true := by
  unfold State.gate at he
  grind [State.powerOff_mem, State.flush_wf]

@[simp] theorem State.wakeQuad_wf {s : State} {q : Nat} (h : Mem.wf s.mem = true) : Mem.wf (s.wakeQuad q).mem = true := by
  unfold State.wakeQuad
  dsimp only
  split
  · simpa using h
  next grid at_ _ =>
    split
    · have woken : Mem.wf ((((at_.map fun p => quadOf p.core).dedup).foldl (fun s k => s.modQuad k fun x => { x with dispatch := none })
          (s.modQuad q fun x => { x with gate := .on, idleAt := some (s.core (4 * q)).time })).mem) = true :=
        State.foldl_wf (fun s k hs => by simpa using hs) _ (by simpa using h)
      split
      · exact woken
      · split
        · refine State.getD_wf woken fun t e => ?_
          obtain ⟨u, placed, rfl⟩ := Option.map_eq_some_iff.1 e
          simpa using State.placeNow_wf woken placed
        · exact woken
    · simpa using h

@[simp] theorem State.saveCtx_wf {s : State} {ctx : Nat} (h : Mem.wf s.mem = true) : Mem.wf (s.saveCtx ctx).mem = true :=
  State.foldl_wf (fun s a hs => by simp [hs]) _ h

@[simp] theorem State.writeSave_wf {s : State} {ctx : Nat} (h : Mem.wf s.mem = true) : Mem.wf (s.writeSave ctx).mem = true := by
  change (s.writeSave ctx).memOk
  unfold State.writeSave
  extract_lets v base cells put
  exact State.foldl_memOk (fun s d hs => State.unless_modDie_memOk hs _ d _) _ (Mem.fold_write_wf h cells)

@[simp] theorem State.switchOut_wf {s : State} {ctx : Nat} (h : Mem.wf s.mem = true) : Mem.wf (s.switchOut ctx).mem = true := by
  simp [State.switchOut, h]

theorem State.restoreBlock_wf {s : State} {ctx blk : Nat} {b : Block} {at_ : List Place} (h : Mem.wf s.mem = true) {t : State}
    (he : s.restoreBlock ctx blk b at_ = some t) : Mem.wf t.mem = true := by
  unfold State.restoreBlock at he
  dsimp only at he
  split at he
  · cases he
  · obtain ⟨r, seated, rest⟩ := Option.bind_eq_some_iff.1 he
    obtain ⟨u, restored, rfl⟩ := Option.map_eq_some_iff.1 rest
    refine State.settled_wf (foldl_bind_keeps (p := fun s => Mem.wf s.mem = true) (fun s p t hs e => ?_) _ (fun b e => ?_) restored)
    · rw [State.restoreGroup_mem e]; exact hs
    · cases e
      simpa [State.seat_mem seated] using h

theorem State.switchIn_wf {s : State} {ctx : Nat} {at_ : List (List Place)} (h : Mem.wf s.mem = true) {t : State}
    (he : s.switchIn ctx at_ = some t) : Mem.wf t.mem = true := by
  unfold State.switchIn at he
  dsimp only at he
  split at he
  · cases he
  · obtain ⟨u, restored, rfl⟩ := Option.map_eq_some_iff.1 he
    have back : Mem.wf u.mem = true :=
      foldl_bind_keeps (p :=
        fun s => Mem.wf s.mem = true) (fun s x t hs e => State.restoreBlock_wf hs e) _ (fun b e => by cases e; exact h) restored
    simpa using State.foldl_wf (fun s w hs => by simpa using hs) _ back

@[simp] theorem State.releaseCtx_wf {s : State} {ctx : Nat} (h : Mem.wf s.mem = true) : Mem.wf (s.releaseCtx ctx).mem = true :=
  State.foldl_wf (fun s a hs => by simp [hs]) _ h

@[simp] theorem State.endColls_wf {s : State} {ctx : Nat} (h : Mem.wf s.mem = true) : Mem.wf (s.endColls ctx).mem = true :=
  State.foldl_wf (fun s a hs => by simp [hs]) _ h

@[simp] theorem State.destroyCtx_wf {s : State} {ctx : Nat} (h : Mem.wf s.mem = true) : Mem.wf (s.destroyCtx ctx).mem = true := by
  unfold State.destroyCtx
  grind [State.dropWork_mem, State.endColls_wf, State.removeGroup_mem, State.dropJob_mem, State.modCtx_mem, State.foldl_wf]

@[simp] theorem State.clampTongs_wf {s : State} {ctx t : Nat} (h : Mem.wf s.mem = true) : Mem.wf (s.clampTongs ctx t).mem = true := by
  simp [State.clampTongs, h]

@[simp] theorem State.clampQueue_wf {s : State} {ctx q : Nat} (h : Mem.wf s.mem = true) : Mem.wf (s.clampQueue ctx q).mem = true := by
  simp [State.clampQueue, h]

@[simp] theorem State.mclmpClamp_wf {s : State} {ctx : Nat} {v : Dword} (h : Mem.wf s.mem = true) :
    Mem.wf (s.mclmpClamp ctx v).mem = true := by
  unfold State.mclmpClamp
  split <;> simp [h]

@[simp] theorem State.mclmpRelease_wf {s : State} {ctx : Nat} {v : Dword} (h : Mem.wf s.mem = true) :
    Mem.wf (s.mclmpRelease ctx v).mem = true := by
  unfold State.mclmpRelease
  split <;> simp [h]

@[simp] theorem State.toHost_wf {s : State} (h : Mem.wf s.mem = true) : Mem.wf s.toHost.mem = true :=
  State.foldl_wf (fun s a hs => by simp [hs]) _ h

/-! Registers. -/

theorem State.lqWrite_wf {s : State} {host : Bool} {q off : Nat} {v : Dword} (h : Mem.wf s.mem = true) {t : State}
    (he : s.lqWrite host q off v = .plain t) : Mem.wf t.mem = true := by
  unfold State.lqWrite at he
  dsimp only at he
  repeat' split at he
  all_goals cases he
  all_goals simp [h]

@[simp] theorem State.checkAsids_wf {s : State} {ctx : Nat} (h : Mem.wf s.mem = true) : Mem.wf (s.checkAsids ctx).mem = true := by
  unfold State.checkAsids
  dsimp only
  repeat' split
  all_goals simp [h]

@[simp] theorem State.ctxctlWrite_wf {s : State} {ctx : Nat} {v : Dword} (h : Mem.wf s.mem = true) :
    Mem.wf (s.ctxctlWrite ctx v).mem = true := by
  unfold State.ctxctlWrite
  grind [State.checkAsids_wf, State.modCtx_mem, State.relevel_mem, State.foldl_wf]

theorem State.srWrite_wf {s : State} {ctx r k : Nat} {v : Dword} (h : Mem.wf s.mem = true) {t : State}
    (he : s.srWrite ctx r k v = .plain t) : Mem.wf t.mem = true := by
  unfold State.srWrite at he
  dsimp only at he
  repeat' split at he
  all_goals cases he
  all_goals simp [h]

theorem State.ctxWrite_wf {s : State} {ctx off : Nat} {v : Dword} (h : Mem.wf s.mem = true) {t : State}
    (he : s.ctxWrite ctx off v = .plain t) : Mem.wf t.mem = true := by
  unfold State.ctxWrite at he
  dsimp only at he
  split at he
  all_goals grind [State.srWrite_wf, State.ctxctlWrite_wf, State.modCtx_mem]

theorem State.handWrite_wf {s : State} {host : Bool} {off : Nat} {v : Dword} (h : Mem.wf s.mem = true) {t : State}
    (he : s.handWrite host off v = .plain t) : Mem.wf t.mem = true := by
  unfold State.handWrite at he
  dsimp only at he
  repeat' split at he
  all_goals cases he
  all_goals simp [h]

theorem State.powerWrite_wf {s : State} {off : Nat} {v : Dword} (h : Mem.wf s.mem = true) {t : State} (he : s.powerWrite off v = .plain t) :
    Mem.wf t.mem = true := by
  unfold State.powerWrite at he
  dsimp only at he
  split at he
  all_goals cases he
  all_goals simp [h, State.foldl_mem]

/-! A package renamed, and packages out of reach. -/

@[simp] theorem State.setPkg_wf {s : State} {p : Nat} (h : Mem.wf s.mem = true) : Mem.wf (s.setPkg p).mem = true := by
  unfold State.setPkg
  dsimp only
  split
  · exact h
  · exact Mem.foldl_write_nil_wf s.mem fun a => a % 2 ^ 42 + p * 2 ^ 42

@[simp] theorem State.engineFail_wf {s : State} {a : Access} {reason line : Nat} (h : Mem.wf s.mem = true) :
    Mem.wf (s.engineFail a reason line).mem = true := by
  unfold State.engineFail
  grind [State.endTongs_mem, State.endSnap_wf, State.failColl_wf, State.foldl_wf]

@[simp] theorem State.resolveGone_wf {s : State} {p : Nat} (h : Mem.wf s.mem = true) : Mem.wf (s.resolveGone p).mem = true := by
  unfold State.resolveGone
  extract_lets s1 s2 s3 s4
  have h2 : Mem.wf s2.mem = true := State.foldl_wf (fun s a hs => by
    split
    · exact State.getD_wf hs fun t e => State.remote_wf hs e
    · exact State.engineFail_wf (by simpa [State.performed_mem] using hs)
    · simpa using hs) _ (by simpa [s1] using h)
  have h3 : Mem.wf s3.mem = true := State.foldl_wf (fun s m hs => by exact State.finishOp_wf hs) _ h2
  have h4 : Mem.wf s4.mem = true := State.foldl_wf (fun s m hs => State.redoAnswer_wf hs) _ h3
  exact State.foldl_wf (fun s c hs => State.failColl_wf hs) _ h4

@[simp] theorem State.resolveLost_wf {s before : State} (h : Mem.wf s.mem = true) : Mem.wf (s.resolveLost before).mem = true :=
  State.foldl_wf (fun s a hs => by simp [hs]) _ h

theorem State.fabWrite_wf {s : State} {off : Nat} {v : Dword} (h : Mem.wf s.mem = true) {t : State} (he : s.fabWrite off v = .plain t) :
    Mem.wf t.mem = true := by
  revert he
  refine RegWrite.of_ite nofun (RegWrite.of_ite (fun e => ?_) (RegWrite.of_ite nofun (RegWrite.of_ite (fun e => ?_) (RegWrite.of_ite nofun
    (RegWrite.of_ite (RegWrite.of_ite nofun fun e => ?_) (RegWrite.of_ite (fun e => ?_) (RegWrite.of_ite (fun e => ?_)
    (RegWrite.of_ite (fun e => ?_) (RegWrite.of_ite (fun e => ?_) (RegWrite.of_ite (fun e => ?_)
    (RegWrite.of_ite (RegWrite.of_ite nofun fun e => ?_) nofun)))))))))))
  all_goals cases e
  · exact State.setPkg_wf h
  · exact State.resolveLost_wf h
  all_goals simp [h]

theorem State.regWrite_wf {s : State} {host : Bool} {off : Nat} {v : Dword} (h : Mem.wf s.mem = true) {t : State}
    (he : s.regWrite host off v = .plain t) : Mem.wf t.mem = true := by
  unfold State.regWrite at he
  grind [State.lqWrite_wf, State.ctxWrite_wf, State.handWrite_wf, State.powerWrite_wf, State.fabWrite_wf, State.modCore_mem,
    State.modQuad_mem]

@[simp] theorem State.writeReg_wf {s : State} {host : Bool} {off : Nat} {v : Dword} (h : Mem.wf s.mem = true) :
    Mem.wf (s.writeReg host off v).mem = true := by
  unfold State.writeReg
  grind [State.clampLink_mem, State.regWrite_wf]

/-! Scrubs, power and bring-up. -/

@[simp] theorem State.scrub_wf {s : State} {die : Nat} {v : Dword} (h : Mem.wf s.mem = true) : Mem.wf (s.scrub die v).mem = true := by
  unfold State.scrub
  grind [State.modDie_mem, State.homeBytes_wf]

@[simp] theorem State.dark_wf {s : State} : Mem.wf s.dark.mem = true := by
  unfold State.dark
  exact State.setPkg_wf (List.foldlRecOn (motive := fun m => Mem.wf m = true) _ _ rfl fun m hm d _ => Mem.fold_write_wf hm d.2.scm)

@[simp] theorem State.startUp_wf {s : State} {i3c : Bool} : Mem.wf (s.startUp i3c).mem = true := by
  simp [State.startUp]

@[simp] theorem State.trainPorts_wf {s : State} {ports : BitVec 16} {pkg : BitVec 12} (h : Mem.wf s.mem = true) :
    Mem.wf (s.trainPorts ports pkg).mem = true := by
  simp [State.trainPorts, h]

theorem State.bringUp_wf {s : State} {b : BringUp} (h : Mem.wf s.mem = true) {t : State} (he : s.bringUp b = some t) :
    Mem.wf t.mem = true := by
  unfold State.bringUp at he
  dsimp only at he
  repeat' split at he
  all_goals cases he
  all_goals simp [h]

/-! Flits. -/

@[simp] theorem State.refuse_wf {s : State} {f : Flit} {type cause low : Nat} {pas : List Nat} (h : Mem.wf s.mem = true) :
    Mem.wf (s.refuse f type cause low pas).mem = true := by
  simp [State.refuse, h]

theorem State.serveRd_wf {s : State} {f : Flit} (h : Mem.wf s.mem = true) {t : State} (he : s.serveRd f = some t) :
    Mem.wf t.mem = true := by
  unfold State.serveRd at he
  dsimp only at he
  repeat' split at he
  all_goals cases he
  all_goals simp [h]

@[simp] theorem State.takeRdd_wf {s : State} {f : Flit} (h : Mem.wf s.mem = true) : Mem.wf (s.takeRdd f).mem = true := by
  unfold State.takeRdd
  grind [State.failed_mem, State.endFill_mem, State.performed_mem, State.afterRead_mem, State.dropClean_mem, State.wbLine_wf,
    State.fillL1_wf, State.putNear_mem]

theorem State.serveWr_wf {s : State} {f : Flit} (h : Mem.wf s.mem = true) {t : State} (he : s.serveWr f = some t) :
    Mem.wf t.mem = true := by
  unfold State.serveWr at he
  dsimp only at he
  split at he
  · cases he; exact State.refuse_wf h
  · split at he
    · cases he
    · obtain ⟨cells, -, rfl⟩ := Option.map_eq_some_iff.1 he
      simp [State.homeCells_wf h]

@[simp] theorem State.takeWack_wf {s : State} {f : Flit} (h : Mem.wf s.mem = true) : Mem.wf (s.takeWack f).mem = true := by
  unfold State.takeWack
  grind [State.wbDone_wf, State.engineFail_wf, State.performed_mem, State.updateCopy_mem]

theorem State.serveAt_wf {s : State} {f : Flit} (h : Mem.wf s.mem = true) {t : State} (he : s.serveAt f = some t) :
    Mem.wf t.mem = true := by
  unfold State.serveAt at he
  dsimp only at he
  split at he
  · cases he; exact State.refuse_wf h
  · split at he
    · cases he
    · obtain ⟨cells, -, rfl⟩ := Option.map_eq_some_iff.1 he
      simp [State.homeCells_wf h]

@[simp] theorem State.takeAtd_wf {s : State} {f : Flit} (h : Mem.wf s.mem = true) : Mem.wf (s.takeAtd f).mem = true := by
  unfold State.takeAtd
  grind [State.dropClean_mem, State.performed_mem, State.afterRead_mem, State.logRed_wf, State.finishOp_wf, State.redoAnswer_wf]

theorem State.serveRdo_wf {s : State} {f : Flit} (h : Mem.wf s.mem = true) {t : State} (he : s.serveRdo f = some t) :
    Mem.wf t.mem = true := by
  unfold State.serveRdo at he
  dsimp only at he
  split at he
  · cases he; simpa using h
  · obtain ⟨r, taken, rfl⟩ := Option.map_eq_some_iff.1 he
    simpa using State.redoTake_wf h taken

@[simp] theorem State.takeCold_wf {s : State} {f : Flit} (h : Mem.wf s.mem = true) : Mem.wf (s.takeCold f).mem = true := by
  unfold State.takeCold
  dsimp only
  repeat' split
  all_goals simp [h]

@[simp] theorem State.takeBarm_wf {s : State} {f : Flit} (h : Mem.wf s.mem = true) : Mem.wf (s.takeBarm f).mem = true := by
  simp [State.takeBarm, h]

theorem State.applyDelta_wf {s : State} {f : Flit} (h : Mem.wf s.mem = true) {t : State} (he : s.applyDelta f = some t) :
    Mem.wf t.mem = true := by
  unfold State.applyDelta at he
  dsimp only at he
  repeat' split at he
  all_goals grind [State.reply_mem, State.refuse_wf, State.homeBytes_wf]

theorem State.serveBulk_wf {s : State} {f : Flit} (h : Mem.wf s.mem = true) {t : State} (he : s.serveBulk f = some t) :
    Mem.wf t.mem = true := by
  unfold State.serveBulk at he
  dsimp only at he
  split at he
  · cases he; exact State.refuse_wf h
  · obtain ⟨u, written, rfl⟩ := Option.map_eq_some_iff.1 he
    have stored : Mem.wf u.mem = true := foldl_bind_keeps (p := fun s => Mem.wf s.mem = true)
      (fun s l t hs e => by
        split at e
        · cases e
        · obtain ⟨cells, -, rfl⟩ := Option.map_eq_some_iff.1 e
          split <;> simp [State.homeCells_wf hs])
      _ (fun b e => by cases e; exact h) written
    simpa using stored

/-! Rebuilds, and collectives step by step. -/

@[simp] theorem State.resolveFailed_wf {s : State} {p : Nat} (h : Mem.wf s.mem = true) : Mem.wf (s.resolveFailed p).mem = true := by
  simp [State.resolveFailed, h]

@[simp] theorem State.rebuildOne_wf {s : State} (h : Mem.wf s.mem = true) : Mem.wf s.rebuildOne.mem = true := by
  change s.rebuildOne.memOk
  unfold State.rebuildOne
  extract_lets e us mine pa s1
  have stored : s1.memOk := State.foldl_memOk (fun _ _ hs => State.homeBytes_memOk hs _ _) _ h
  split
  · exact State.askStripe_memOk (State.withErasure_memOk stored _)
  · exact State.withErasure_memOk stored _

@[simp] theorem State.collStop_wf {s : State} {c : Coll} {m : Member} {side : Nat} {e : Stop} (h : Mem.wf s.mem = true) :
    Mem.wf (s.collStop c m side e).mem = true := by
  simp [State.collStop, h]

theorem State.collRead_wf {s : State} {c : Coll} {m : Member} (h : Mem.wf s.mem = true) {t : State} (he : s.collRead c m = some t) :
    Mem.wf t.mem = true := by
  unfold State.collRead at he
  grind [State.needLines_wf, State.dropKept_mem, State.collStop_wf, State.modMember_mem, State.sendPartial_mem]

theorem State.collPut_wf {s : State} {die ctx va pa : Nat} {bs : List Byte} (h : Mem.wf s.mem = true) {r : List Nat × State}
    (he : s.collPut die ctx va pa bs = some r) : Mem.wf r.2.mem = true := by
  unfold State.collPut at he
  grind [State.engineSend_mem, State.homeBytes_wf]

theorem State.collWrite_wf {s : State} {c : Coll} {m : Member} {bs : List Byte} (h : Mem.wf s.mem = true) {t : State}
    (he : s.collWrite c m bs = some t) : Mem.wf t.mem = true := by
  unfold State.collWrite at he
  dsimp only at he
  split at he
  · cases he
  · split at he
    · cases he; exact State.collStop_wf h
    next pa _ =>
      obtain ⟨r, put, rfl⟩ := Option.map_eq_some_iff.1 he
      simpa using State.collPut_wf h put

@[simp] theorem State.collEnd_wf {s : State} {c : Coll} (h : Mem.wf s.mem = true) : Mem.wf (s.collEnd c).mem = true :=
  State.foldl_wf (fun s a hs => by simp [hs]) _ h

theorem State.collClose_wf {s : State} {c : Coll} (h : Mem.wf s.mem = true) {t : State} (he : s.collClose c = some t) :
    Mem.wf t.mem = true := by
  unfold State.collClose at he
  split at he
  · cases he; simp [h]
  · split at he <;> cases he
    simp [h]

theorem State.collStep_wf {s : State} {c : Coll} (h : Mem.wf s.mem = true) {t : State} (he : s.collStep c = some t) :
    Mem.wf t.mem = true := by
  unfold State.collStep at he
  grind [State.failColl_wf, State.collRead_wf, State.collWrite_wf, State.collClose_wf]

theorem State.sigApply_wf {s : State} {m : SigAdd} (h : Mem.wf s.mem = true) {t : State} (he : s.sigApply m = some t) :
    Mem.wf t.mem = true := by
  unfold State.sigApply at he
  dsimp only at he
  split at he
  · cases he
  · split at he
    · cases he; exact State.finishOp_wf h
    · split at he
      · cases he; simpa using h
      · split at he
        · cases he
        · split at he
          · cases he; exact State.foundAll_wf (State.finishOp_wf h)
          · split at he
            · cases he
            · obtain ⟨cells, -, rfl⟩ := Option.map_eq_some_iff.1 he
              exact State.finishOp_wf (State.homeCells_wf (by exact h) cells)

/-! Ports, and what ends a cycle. -/

@[simp] theorem State.portDown_wf {s : State} {port : Nat} (h : Mem.wf s.mem = true) : Mem.wf (s.portDown port).mem = true := by
  unfold State.portDown
  grind [State.modPort_mem, State.emitFlit_mem, State.resolveLost_wf, State.foldl_wf]

@[simp] theorem State.fetchTrap_wf {s : State} {gid slot : Nat} {c : Cause} {addr : CodeAddr} (h : Mem.wf s.mem = true) :
    Mem.wf (s.fetchTrap gid slot c addr).mem = true := by
  simp [State.fetchTrap, h]

@[simp] theorem State.tick_wf {s : State} {core : Nat} (h : Mem.wf s.mem = true) : Mem.wf (s.tick core).mem = true := by
  simp [State.tick, h]

@[simp] theorem State.cycleEnd_wf {s : State} {core : Nat} (h : Mem.wf s.mem = true) : Mem.wf (s.cycleEnd core).mem = true := by
  simp [State.cycleEnd, h]

end Sys2Proof.Machine
end

section
/-! The events: each keeps memory in its canonical form. -/

namespace Sys2Proof.Machine

theorem event_next {name : String} {enabled : Bool} {s t : State} : event name enabled s = .next t ↔ enabled = true ∧ s = t := by
  unfold event
  split <;> simp [*]

theorem maybe_next {name : String} {o : Option State} {t : State} : maybe name o = .next t ↔ o = some t := by
  unfold maybe
  split <;> simp

/-! The host, and flits as they are received. -/

theorem State.hostDoes_wf {s : State} {k : State → State} (h : Mem.wf s.mem = true)
    (hk : ∀ s, Mem.wf s.mem = true → Mem.wf (k s).mem = true) : Mem.wf (s.hostDoes k).mem = true := by
  unfold State.hostDoes
  split
  · exact hk s h
  · exact h

theorem State.hostOr_wf {s : State} {host : Bool} {k : State → State} (h : Mem.wf s.mem = true)
    (hk : ∀ s, Mem.wf s.mem = true → Mem.wf (k s).mem = true) : Mem.wf (s.hostOr host k).mem = true := by
  unfold State.hostOr
  split
  · exact State.hostDoes_wf h hk
  · exact hk s h

theorem State.handOver_wf {s : State} {host : Bool} {op : Nat} {k : State → State} (h : Mem.wf s.mem = true)
    (hk : ∀ s, Mem.wf s.mem = true → Mem.wf (k s).mem = true) : Mem.wf (s.handOver host op k).mem = true := by
  unfold State.handOver
  split
  · split
    · simpa using h
    · exact h
  · exact hk _ h

/-- Whatever a flit does once it is taken, what its link books leaves memory alone. -/
theorem State.receive_wf {s : State} {type port : Nat} {f : Flit} {act : State → Option State} (h : Mem.wf s.mem = true)
    (ha : ∀ s t, Mem.wf s.mem = true → act s = some t → Mem.wf t.mem = true) {t : State} (he : s.receive type port f act = some t) :
    Mem.wf t.mem = true := by
  unfold State.receive at he
  dsimp only at he
  split at he
  · cases he
  · split at he
    · cases he
    next s1 taken =>
      cases he
      have kept : s1.mem = s.mem := State.accept_mem taken
      simpa [kept] using h
    next s1 taken =>
      obtain ⟨s2, done, rfl⟩ := Option.map_eq_some_iff.1 he
      have kept : s1.mem = s.mem := State.accept_mem taken
      simpa using ha s1 s2 (by rw [kept]; exact h) done

theorem State.whole_wf {s : State} {f : Flit} {act : State → Flit → Option State} (h : Mem.wf s.mem = true)
    (ha : ∀ s f t, Mem.wf s.mem = true → act s f = some t → Mem.wf t.mem = true) {t : State} (he : s.whole f act = some t) :
    Mem.wf t.mem = true := by
  have assembled : Mem.wf (s.assemble f).2.mem = true := by simpa using h
  unfold State.whole at he
  split at he
  next s1 e =>
    cases he
    rw [e] at assembled
    exact assembled
  next g s1 e =>
    rw [e] at assembled
    exact ha s1 g t assembled he

/-- An entry found by its number, and what it does when its turn comes. -/
theorem State.wf_of_bind {α : Type} {o : Option α} {f : α → Option State} (hf : ∀ a t, f a = some t → Mem.wf t.mem = true) {t : State}
    (he : o.bind f = some t) : Mem.wf t.mem = true := by
  obtain ⟨a, -, ha⟩ := Option.bind_eq_some_iff.1 he
  exact hf a t ha

/-! The rows. -/

theorem execRunSelect_wf {core part : Nat} {s : State} (h : Mem.wf s.mem = true) {t : State} (he : execRunSelect core part s = .next t) :
    Mem.wf t.mem = true := by
  unfold execRunSelect at he
  split at he
  · cases he
  · cases he
    simp [h]

theorem execRunBoundary_wf {core part : Nat} {s : State} (h : Mem.wf s.mem = true) {t : State}
    (he : execRunBoundary core part s = .next t) : Mem.wf t.mem = true := by
  unfold execRunBoundary at he
  split at he
  · cases he
  · obtain ⟨-, rfl⟩ := event_next.1 he
    simp [h]

theorem execJoinTimeout_wf {gid j : Nat} {s : State} (h : Mem.wf s.mem = true) {t : State} (he : execJoinTimeout gid j s = .next t) :
    Mem.wf t.mem = true := by
  unfold execJoinTimeout at he
  obtain ⟨-, rfl⟩ := event_next.1 he
  simp [h]

theorem execRunRotation_wf {gid slot : Nat} {s : State} (h : Mem.wf s.mem = true) {t : State} (he : execRunRotation gid slot s = .next t) :
    Mem.wf t.mem = true := by
  unfold execRunRotation at he
  obtain ⟨-, rfl⟩ := event_next.1 he
  simp [h]

theorem execStallRotation_wf {gid slot : Nat} {s : State} (h : Mem.wf s.mem = true) {t : State}
    (he : execStallRotation gid slot s = .next t) : Mem.wf t.mem = true := by
  unfold execStallRotation at he
  obtain ⟨-, rfl⟩ := event_next.1 he
  simp [h]

theorem execInstructionFetchFill_wf {core ctx : Nat} {line : CodeAddr} {s : State} (h : Mem.wf s.mem = true) {t : State}
    (he : execInstructionFetchFill core ctx line s = .next t) : Mem.wf t.mem = true := by
  unfold execInstructionFetchFill at he
  obtain ⟨-, rfl⟩ := event_next.1 he
  simp [h]

theorem execLoadReturn_wf {id : Nat} {s : State} (h : Mem.wf s.mem = true) {t : State} (he : execLoadReturn id s = .next t) :
    Mem.wf t.mem = true := by
  unfold execLoadReturn at he
  grind [State.dropExited_mem, State.returnLoad_mem]

theorem execSettleCommit_wf {gid slot : Nat} {s : State} (h : Mem.wf s.mem = true) {t : State}
    (he : execSettleCommit gid slot s = .next t) : Mem.wf t.mem = true := by
  unfold execSettleCommit at he
  grind [State.commitAt_wf, event_next]

theorem execTrapEntry_wf {core part : Nat} {s : State} (h : Mem.wf s.mem = true) {t : State} (he : execTrapEntry core part s = .next t) :
    Mem.wf t.mem = true := by
  unfold execTrapEntry at he
  obtain ⟨-, rfl⟩ := event_next.1 he
  simp [h]

theorem execSleeptWake_wf {gid slot : Nat} {s : State} (h : Mem.wf s.mem = true) {t : State} (he : execSleeptWake gid slot s = .next t) :
    Mem.wf t.mem = true := by
  unfold execSleeptWake at he
  obtain ⟨-, rfl⟩ := event_next.1 he
  simp [h]

theorem execClockRestart_wf {core n : Nat} {s : State} (h : Mem.wf s.mem = true) {t : State} (he : execClockRestart core n s = .next t) :
    Mem.wf t.mem = true := by
  unfold execClockRestart at he
  obtain ⟨-, rfl⟩ := event_next.1 he
  simp [h]

theorem execLevelRaiseSettled_wf {dom : Nat} {s : State} (h : Mem.wf s.mem = true) {t : State}
    (he : execLevelRaiseSettled dom s = .next t) : Mem.wf t.mem = true := by
  unfold execLevelRaiseSettled at he
  grind

theorem execRegclmClaimServed_wf {blk : Nat} {s : State} (h : Mem.wf s.mem = true) {t : State}
    (he : execRegclmClaimServed blk s = .next t) : Mem.wf t.mem = true := by
  unfold execRegclmClaimServed at he
  split at he
  · cases he
  · obtain ⟨-, rfl⟩ := event_next.1 he
    simp [h]

theorem execRegpoolDeadlock_wf {blk : Nat} {s : State} (h : Mem.wf s.mem = true) {t : State} (he : execRegpoolDeadlock blk s = .next t) :
    Mem.wf t.mem = true := by
  unfold execRegpoolDeadlock at he
  obtain ⟨-, rfl⟩ := event_next.1 he
  simp [h]

theorem execEmptyOrphan_wf {blk : Nat} {s : State} (h : Mem.wf s.mem = true) {t : State} (he : execEmptyOrphan blk s = .next t) :
    Mem.wf t.mem = true := by
  unfold execEmptyOrphan at he
  obtain ⟨-, rfl⟩ := event_next.1 he
  simp [h]

theorem execBarrierComplete_wf {owner lvl id unit : Nat} {s : State} (h : Mem.wf s.mem = true) {t : State}
    (he : execBarrierComplete owner lvl id unit s = .next t) : Mem.wf t.mem = true := by
  unfold execBarrierComplete at he
  grind [State.barFinish_wf, State.foldl_wf, State.releaseGroup_wf, event_next]

theorem execGroupRetire_wf {gid : Nat} {s : State} (h : Mem.wf s.mem = true) {t : State} (he : execGroupRetire gid s = .next t) :
    Mem.wf t.mem = true := by
  unfold execGroupRetire at he
  obtain ⟨-, rfl⟩ := event_next.1 he
  simp [h]

theorem execRemoteScratchpadAccess_wf {id : Nat} {s : State} (h : Mem.wf s.mem = true) {t : State}
    (he : execRemoteScratchpadAccess id s = .next t) : Mem.wf t.mem = true := by
  unfold execRemoteScratchpadAccess at he
  split at he
  · cases he
  · obtain ⟨-, rfl⟩ := event_next.1 he
    simp [h]

theorem execDqstealArrival_wf {id : Nat} {s : State} (h : Mem.wf s.mem = true) {t : State} (he : execDqstealArrival id s = .next t) :
    Mem.wf t.mem = true := by
  unfold execDqstealArrival at he
  grind [State.modCore_mem, State.shutCore_mem, State.stealAt_mem, State.stealDone_mem, event_next]

theorem execTlOperation_wf {gid : Nat} {s : State} (h : Mem.wf s.mem = true) {t : State} (he : execTlOperation gid s = .next t) :
    Mem.wf t.mem = true := by
  unfold execTlOperation at he
  obtain ⟨-, rfl⟩ := event_next.1 he
  refine State.foldl_wf (fun s c hs => ?_) _ (by simpa using h)
  split <;> simpa using hs

theorem execFusionHoldEnd_wf {quad req : Nat} {s : State} (h : Mem.wf s.mem = true) {t : State}
    (he : execFusionHoldEnd quad req s = .next t) : Mem.wf t.mem = true := by
  unfold execFusionHoldEnd at he
  obtain ⟨-, rfl⟩ := event_next.1 he
  simp [h]

theorem execPriorityAging_wf {quad req : Nat} {s : State} (h : Mem.wf s.mem = true) {t : State}
    (he : execPriorityAging quad req s = .next t) : Mem.wf t.mem = true := by
  unfold execPriorityAging at he
  obtain ⟨-, rfl⟩ := event_next.1 he
  simp [h]

theorem execAnvilPass_wf {quad : Nat} {s : State} (h : Mem.wf s.mem = true) {t : State} (he : execAnvilPass quad s = .next t) :
    Mem.wf t.mem = true := by
  unfold execAnvilPass at he
  split at he
  · cases he
  · cases he
    simp [h]

theorem execPassResult_wf {quad req : Nat} {s : State} (h : Mem.wf s.mem = true) {t : State} (he : execPassResult quad req s = .next t) :
    Mem.wf t.mem = true := by
  unfold execPassResult at he
  split at he
  · cases he
  · cases he
    simp [h]

theorem execAccumulatorPortGrant_wf {quad : Nat} {s : State} (h : Mem.wf s.mem = true) {t : State}
    (he : execAccumulatorPortGrant quad s = .next t) : Mem.wf t.mem = true := by
  unfold execAccumulatorPortGrant at he
  split at he
  · cases he
  · cases he
    simp [h]

theorem execMdrnaArrival_wf {id : Nat} {s : State} (h : Mem.wf s.mem = true) {t : State} (he : execMdrnaArrival id s = .next t) :
    Mem.wf t.mem = true := by
  unfold execMdrnaArrival at he
  split at he
  · cases he
  next s1 step =>
    cases he
    exact State.wf_of_bind (fun a t e => by rw [State.acceptMdrna_mem e]; exact h) step

theorem execPeerMergeTransfer_wf {quad req : Nat} {s : State} (h : Mem.wf s.mem = true) {t : State}
    (he : execPeerMergeTransfer quad req s = .next t) : Mem.wf t.mem = true := by
  unfold execPeerMergeTransfer at he
  split at he
  · cases he
  · cases he
    simp [h]

theorem execMxComplete_wf {gid : Nat} {s : State} (h : Mem.wf s.mem = true) {t : State} (he : execMxComplete gid s = .next t) :
    Mem.wf t.mem = true := by
  unfold execMxComplete at he
  grind [State.reportMx_mem, event_next]

theorem execPageWalk_wf {core ctx : Nat} {va : Dword} {s : State} (h : Mem.wf s.mem = true) {t : State}
    (he : execPageWalk core ctx va s = .next t) : Mem.wf t.mem = true := by
  unfold execPageWalk at he
  obtain ⟨-, rfl⟩ := event_next.1 he
  simp [h]

theorem execHomeAccess_wf {id : Nat} {s : State} (h : Mem.wf s.mem = true) {t : State} (he : execHomeAccess id s = .next t) :
    Mem.wf t.mem = true := by
  unfold execHomeAccess at he
  grind [State.performNow_wf, State.waitAtHome_mem, event_next]

theorem execL1Eviction_wf {core line : Nat} {s : State} (h : Mem.wf s.mem = true) {t : State} (he : execL1Eviction core line s = .next t) :
    Mem.wf t.mem = true := by
  unfold execL1Eviction at he
  obtain ⟨-, rfl⟩ := event_next.1 he
  simp [h]

theorem execRedoArrival_wf {id : Nat} {s : State} (h : Mem.wf s.mem = true) {t : State} (he : execRedoArrival id s = .next t) :
    Mem.wf t.mem = true := by
  unfold execRedoArrival at he
  split at he
  · cases he
  next s1 step =>
    cases he
    exact State.wf_of_bind (fun a t e => State.redoArrive_wf h e) step

theorem execFaultRecordWrite_wf {ctx : Nat} {s : State} (h : Mem.wf s.mem = true) {t : State} (he : execFaultRecordWrite ctx s = .next t) :
    Mem.wf t.mem = true := by
  unfold execFaultRecordWrite at he
  split at he
  · cases he
  · obtain ⟨-, rfl⟩ := event_next.1 he
    simp [h]

theorem execFresp_wf {die : Nat} {v : Dword} {s : State} (h : Mem.wf s.mem = true) {t : State} (he : execFresp die v s = .next t) :
    Mem.wf t.mem = true := by
  unfold execFresp at he
  obtain ⟨-, rfl⟩ := event_next.1 he
  simp [h]

theorem execFirmwareResume_wf {gid slot : Nat} {s : State} (h : Mem.wf s.mem = true) {t : State}
    (he : execFirmwareResume gid slot s = .next t) : Mem.wf t.mem = true := by
  unfold execFirmwareResume at he
  obtain ⟨-, rfl⟩ := event_next.1 he
  simp [h]

theorem execTongsChunk_wf {die engine ctx : Nat} {s : State} (h : Mem.wf s.mem = true) {t : State}
    (he : execTongsChunk die engine ctx s = .next t) : Mem.wf t.mem = true := by
  unfold execTongsChunk at he
  grind [State.tongsNext_wf]

theorem execWbqEntry_wf {id : Nat} {s : State} (h : Mem.wf s.mem = true) {t : State} (he : execWbqEntry id s = .next t) :
    Mem.wf t.mem = true := by
  unfold execWbqEntry at he
  split at he
  · cases he
  next s1 step =>
    cases he
    exact State.wf_of_bind (fun a t e => State.performNow_wf h e) step

theorem execWbqDrain_wf {die : Nat} {s : State} (h : Mem.wf s.mem = true) {t : State} (he : execWbqDrain die s = .next t) :
    Mem.wf t.mem = true := by
  unfold execWbqDrain at he
  obtain ⟨-, rfl⟩ := event_next.1 he
  simp [h]

theorem execPflushComplete_wf {id : Nat} {s : State} (h : Mem.wf s.mem = true) {t : State} (he : execPflushComplete id s = .next t) :
    Mem.wf t.mem = true := by
  unfold execPflushComplete at he
  split at he
  · cases he
  · obtain ⟨-, rfl⟩ := event_next.1 he
    simp [h]

theorem execStepcmOperation_wf {ctx : Nat} {s : State} (h : Mem.wf s.mem = true) {t : State} (he : execStepcmOperation ctx s = .next t) :
    Mem.wf t.mem = true := by
  unfold execStepcmOperation at he
  split at he
  · cases he
  next s1 step =>
    cases he
    exact State.wf_of_bind (fun a t e => State.commitStep_wf h e) step

theorem execStepabOperation_wf {ctx : Nat} {s : State} (h : Mem.wf s.mem = true) {t : State} (he : execStepabOperation ctx s = .next t) :
    Mem.wf t.mem = true := by
  unfold execStepabOperation at he
  split at he
  · cases he
  next s1 step =>
    cases he
    exact State.wf_of_bind (fun a t e => State.abortStep_wf h e) step

theorem execSnapshotLine_wf {die : Nat} {s : State} (h : Mem.wf s.mem = true) {t : State} (he : execSnapshotLine die s = .next t) :
    Mem.wf t.mem = true := by
  unfold execSnapshotLine at he
  split at he
  · cases he
  next s1 step =>
    cases he
    exact State.wf_of_bind (fun a t e => State.snapStep_wf h e) step

theorem execFreezeNotice_wf {die page : Nat} {s : State} (h : Mem.wf s.mem = true) {t : State}
    (he : execFreezeNotice die page s = .next t) : Mem.wf t.mem = true := by
  unfold execFreezeNotice at he
  grind [State.tellDie_mem]

theorem execFreezeAck_wf {die page : Nat} {s : State} (h : Mem.wf s.mem = true) {t : State} (he : execFreezeAck die page s = .next t) :
    Mem.wf t.mem = true := by
  unfold execFreezeAck at he
  grind [State.ackDie_mem]

theorem execSealingEnd_wf {page : Nat} {s : State} (h : Mem.wf s.mem = true) {t : State} (he : execSealingEnd page s = .next t) :
    Mem.wf t.mem = true := by
  unfold execSealingEnd at he
  grind [State.pageDone_mem, State.sealEnd_mem, event_next]

theorem execGather_wf {die page : Nat} {s : State} (h : Mem.wf s.mem = true) {t : State} (he : execGather die page s = .next t) :
    Mem.wf t.mem = true := by
  unfold execGather at he
  grind [State.gatherDie_mem]

theorem execGatherEnd_wf {page : Nat} {s : State} (h : Mem.wf s.mem = true) {t : State} (he : execGatherEnd page s = .next t) :
    Mem.wf t.mem = true := by
  unfold execGatherEnd at he
  grind [State.pageDone_mem, State.thawEnd_mem, event_next]

theorem execLqprodWrite_wf {q : Nat} {v : Dword} {s : State} (h : Mem.wf s.mem = true) {t : State} (he : execLqprodWrite q v s = .next t) :
    Mem.wf t.mem = true := by
  unfold execLqprodWrite at he
  obtain ⟨-, rfl⟩ := event_next.1 he
  refine State.hostDoes_wf h fun s hs => ?_
  split <;> simpa using hs

theorem execRecordStart_wf {q : Nat} {s : State} (h : Mem.wf s.mem = true) {t : State} (he : execRecordStart q s = .next t) :
    Mem.wf t.mem = true := by
  unfold execRecordStart at he
  obtain ⟨-, rfl⟩ := event_next.1 he
  simp [h]

theorem execPredecessorRead_wf {q n : Nat} {s : State} (h : Mem.wf s.mem = true) {t : State} (he : execPredecessorRead q n s = .next t) :
    Mem.wf t.mem = true := by
  unfold execPredecessorRead at he
  obtain ⟨-, rfl⟩ := event_next.1 he
  simp [h]

theorem execGridComplete_wf {grid : Nat} {s : State} (h : Mem.wf s.mem = true) {t : State} (he : execGridComplete grid s = .next t) :
    Mem.wf t.mem = true := by
  unfold execGridComplete at he
  split at he
  · cases he
  · dsimp only at he
    split at he
    · cases he
    next s1 done =>
      cases he
      split at done
      · split at done
        · cases done
          exact h
        · exact State.complete_wf (by exact h) done
      · cases done

theorem execBlockPlacement_wf {grid : Nat} {at_ : List Place} {s : State} (h : Mem.wf s.mem = true) {t : State}
    (he : execBlockPlacement grid at_ s = .next t) : Mem.wf t.mem = true := by
  unfold execBlockPlacement at he
  grind [State.placeBlock_wf]

theorem execGateRequest_wf {quad : Nat} {s : State} (h : Mem.wf s.mem = true) {t : State} (he : execGateRequest quad s = .next t) :
    Mem.wf t.mem = true := by
  unfold execGateRequest at he
  grind [State.gate_wf]

theorem execQuadWake_wf {quad : Nat} {s : State} (h : Mem.wf s.mem = true) {t : State} (he : execQuadWake quad s = .next t) :
    Mem.wf t.mem = true := by
  unfold execQuadWake at he
  obtain ⟨-, rfl⟩ := event_next.1 he
  simp [h]

theorem execKtvalWrite_wf {ctx w : Nat} {v : Dword} {s : State} (h : Mem.wf s.mem = true) {t : State}
    (he : execKtvalWrite ctx w v s = .next t) : Mem.wf t.mem = true := by
  unfold execKtvalWrite at he
  grind [State.foldl_mem, State.setKernel_mem, event_next]

theorem execSwout_wf {ctx : Nat} {s : State} (h : Mem.wf s.mem = true) {t : State} (he : execSwout ctx s = .next t) :
    Mem.wf t.mem = true := by
  unfold execSwout at he
  obtain ⟨-, rfl⟩ := event_next.1 he
  simp [h]

theorem execSwoutComplete_wf {ctx : Nat} {s : State} (h : Mem.wf s.mem = true) {t : State} (he : execSwoutComplete ctx s = .next t) :
    Mem.wf t.mem = true := by
  unfold execSwoutComplete at he
  grind [State.flush_wf, State.switchOut_wf]

theorem execSwin_wf {ctx : Nat} {at_ : List (List Place)} {s : State} (h : Mem.wf s.mem = true) {t : State}
    (he : execSwin ctx at_ s = .next t) : Mem.wf t.mem = true := by
  unfold execSwin at he
  grind [State.awaitRoom_mem, State.remoded_wf, State.switchIn_wf, State.wakeFor_mem]

theorem execClamp_wf {ctx : Nat} {s : State} (h : Mem.wf s.mem = true) {t : State} (he : execClamp ctx s = .next t) :
    Mem.wf t.mem = true := by
  unfold execClamp at he
  obtain ⟨-, rfl⟩ := event_next.1 he
  simp [h]

theorem execRelease_wf {ctx : Nat} {s : State} (h : Mem.wf s.mem = true) {t : State} (he : execRelease ctx s = .next t) :
    Mem.wf t.mem = true := by
  unfold execRelease at he
  obtain ⟨-, rfl⟩ := event_next.1 he
  simp [h]

theorem execDestroy_wf {ctx : Nat} {s : State} (h : Mem.wf s.mem = true) {t : State} (he : execDestroy ctx s = .next t) :
    Mem.wf t.mem = true := by
  unfold execDestroy at he
  obtain ⟨-, rfl⟩ := event_next.1 he
  simp [h]

theorem execMclmpClamp_wf {ctx : Nat} {v : Dword} {s : State} (h : Mem.wf s.mem = true) {t : State}
    (he : execMclmpClamp ctx v s = .next t) : Mem.wf t.mem = true := by
  unfold execMclmpClamp at he
  obtain ⟨-, rfl⟩ := event_next.1 he
  simp [h]

theorem execMclmpRelease_wf {ctx : Nat} {v : Dword} {s : State} (h : Mem.wf s.mem = true) {t : State}
    (he : execMclmpRelease ctx v s = .next t) : Mem.wf t.mem = true := by
  unfold execMclmpRelease at he
  obtain ⟨-, rfl⟩ := event_next.1 he
  simp [h]

theorem execTodev_wf {host : Bool} {s : State} (h : Mem.wf s.mem = true) {t : State} (he : execTodev host s = .next t) :
    Mem.wf t.mem = true := by
  unfold execTodev at he
  obtain ⟨-, rfl⟩ := event_next.1 he
  exact State.hostOr_wf h fun s hs => State.handOver_wf hs fun s hs => by simpa using hs

theorem execTohost_wf {host : Bool} {s : State} (h : Mem.wf s.mem = true) {t : State} (he : execTohost host s = .next t) :
    Mem.wf t.mem = true := by
  unfold execTohost at he
  obtain ⟨-, rfl⟩ := event_next.1 he
  exact State.hostOr_wf h fun s hs => State.handOver_wf hs fun s hs => State.toHost_wf hs

theorem execHandoverDone_wf {s : State} (h : Mem.wf s.mem = true) {t : State} (he : execHandoverDone s = .next t) :
    Mem.wf t.mem = true := by
  unfold execHandoverDone at he
  obtain ⟨-, rfl⟩ := event_next.1 he
  simp [h]

theorem execRegisterWrite_wf {host : Bool} {off : Nat} {v : Dword} {s : State} (h : Mem.wf s.mem = true) {t : State}
    (he : execRegisterWrite host off v s = .next t) : Mem.wf t.mem = true := by
  unfold execRegisterWrite at he
  obtain ⟨-, rfl⟩ := event_next.1 he
  exact State.hostOr_wf h fun s hs => State.writeReg_wf hs

theorem execSteprecWrite_wf {ctx : Nat} {v : Dword} {s : State} (h : Mem.wf s.mem = true) {t : State}
    (he : execSteprecWrite ctx v s = .next t) : Mem.wf t.mem = true := by
  unfold execSteprecWrite at he
  obtain ⟨-, rfl⟩ := event_next.1 he
  simp [h]

theorem execRegionEnable_wf {ctx r : Nat} {v : Dword} {s : State} (h : Mem.wf s.mem = true) {t : State}
    (he : execRegionEnable ctx r v s = .next t) : Mem.wf t.mem = true := by
  unfold execRegionEnable at he
  obtain ⟨-, rfl⟩ := event_next.1 he
  simp [h]

theorem execEnableSweepEnd_wf {ctx r : Nat} {s : State} (h : Mem.wf s.mem = true) {t : State} (he : execEnableSweepEnd ctx r s = .next t) :
    Mem.wf t.mem = true := by
  unfold execEnableSweepEnd at he
  obtain ⟨-, rfl⟩ := event_next.1 he
  simpa using Mem.fold_write_wf h _

theorem execScrub_wf {die : Nat} {v : Dword} {s : State} (h : Mem.wf s.mem = true) {t : State} (he : execScrub die v s = .next t) :
    Mem.wf t.mem = true := by
  unfold execScrub at he
  obtain ⟨-, rfl⟩ := event_next.1 he
  simp [h]

theorem execPowerFailure_wf {s t : State} (he : execPowerFailure s = .next t) : Mem.wf t.mem = true := by
  unfold execPowerFailure at he
  obtain ⟨-, rfl⟩ := event_next.1 he
  simp

theorem execBellowsInterval_wf {now : Sensors} {cur : Tbl Nat} {s : State} (h : Mem.wf s.mem = true) {t : State}
    (he : execBellowsInterval now cur s = .next t) : Mem.wf t.mem = true := by
  unfold execBellowsInterval at he
  obtain ⟨-, rfl⟩ := event_next.1 he
  simp [h]

theorem execCurrentLimit_wf {dom : Nat} {s : State} (h : Mem.wf s.mem = true) {t : State} (he : execCurrentLimit dom s = .next t) :
    Mem.wf t.mem = true := by
  unfold execCurrentLimit at he
  obtain ⟨-, rfl⟩ := event_next.1 he
  simp [h]

theorem execThermalTrip_wf {tmax : Nat} {s t : State} (he : execThermalTrip tmax s = .next t) : Mem.wf t.mem = true := by
  unfold execThermalTrip at he
  obtain ⟨-, rfl⟩ := event_next.1 he
  simp

theorem execBringUp_wf {b : BringUp} {s : State} (h : Mem.wf s.mem = true) {t : State} (he : execBringUp b s = .next t) :
    Mem.wf t.mem = true := by
  unfold execBringUp at he
  grind [State.bringUp_wf]

theorem execAttestationRequest_wf {nonce : BitVec 256} {s : State} (h : Mem.wf s.mem = true) {t : State}
    (he : execAttestationRequest nonce s = .next t) : Mem.wf t.mem = true := by
  unfold execAttestationRequest at he
  obtain ⟨-, rfl⟩ := event_next.1 he
  simp [h]

theorem execNullFlit_wf {port : Nat} {f : Flit} {s : State} (h : Mem.wf s.mem = true) {t : State} (he : execNullFlit port f s = .next t) :
    Mem.wf t.mem = true := by
  unfold execNullFlit at he
  exact State.receive_wf h (fun s t hs e => by cases e; exact hs) (maybe_next.1 he)

theorem execRdFlit_wf {port : Nat} {f : Flit} {s : State} (h : Mem.wf s.mem = true) {t : State} (he : execRdFlit port f s = .next t) :
    Mem.wf t.mem = true := by
  unfold execRdFlit at he
  exact State.receive_wf h (fun s t hs e => State.serveRd_wf hs e) (maybe_next.1 he)

theorem execRddFlit_wf {port : Nat} {f : Flit} {s : State} (h : Mem.wf s.mem = true) {t : State} (he : execRddFlit port f s = .next t) :
    Mem.wf t.mem = true := by
  unfold execRddFlit at he
  refine State.receive_wf h (fun s t hs e => ?_) (maybe_next.1 he)
  split at e <;> cases e
  · exact State.takeRdd_wf hs
  · exact hs

theorem execWrFlit_wf {port : Nat} {f : Flit} {s : State} (h : Mem.wf s.mem = true) {t : State} (he : execWrFlit port f s = .next t) :
    Mem.wf t.mem = true := by
  unfold execWrFlit at he
  exact State.receive_wf h (fun s t hs e => State.serveWr_wf hs e) (maybe_next.1 he)

theorem execWackFlit_wf {port : Nat} {f : Flit} {s : State} (h : Mem.wf s.mem = true) {t : State} (he : execWackFlit port f s = .next t) :
    Mem.wf t.mem = true := by
  unfold execWackFlit at he
  exact State.receive_wf h (fun s t hs e => by cases e; exact State.takeWack_wf hs) (maybe_next.1 he)

theorem execAtFlit_wf {port : Nat} {f : Flit} {s : State} (h : Mem.wf s.mem = true) {t : State} (he : execAtFlit port f s = .next t) :
    Mem.wf t.mem = true := by
  unfold execAtFlit at he
  exact State.receive_wf h (fun s t hs e => State.whole_wf hs (fun s f t hs e => State.serveAt_wf hs e) e) (maybe_next.1 he)

theorem execAtdFlit_wf {port : Nat} {f : Flit} {s : State} (h : Mem.wf s.mem = true) {t : State} (he : execAtdFlit port f s = .next t) :
    Mem.wf t.mem = true := by
  unfold execAtdFlit at he
  exact State.receive_wf h (fun s t hs e => State.whole_wf hs (fun s f t hs e => by cases e; exact State.takeAtd_wf hs) e) (maybe_next.1 he)

theorem execRdoFlit_wf {port : Nat} {f : Flit} {s : State} (h : Mem.wf s.mem = true) {t : State} (he : execRdoFlit port f s = .next t) :
    Mem.wf t.mem = true := by
  unfold execRdoFlit at he
  exact State.receive_wf h (fun s t hs e => State.serveRdo_wf hs e) (maybe_next.1 he)

theorem execFrznFlit_wf {port : Nat} {f : Flit} {s : State} (h : Mem.wf s.mem = true) {t : State} (he : execFrznFlit port f s = .next t) :
    Mem.wf t.mem = true := by
  unfold execFrznFlit at he
  exact State.receive_wf h (fun s t hs e => by cases e; exact hs) (maybe_next.1 he)

theorem execFackFlit_wf {port : Nat} {f : Flit} {s : State} (h : Mem.wf s.mem = true) {t : State} (he : execFackFlit port f s = .next t) :
    Mem.wf t.mem = true := by
  unfold execFackFlit at he
  exact State.receive_wf h (fun s t hs e => by cases e; simpa using hs) (maybe_next.1 he)

theorem execColdFlit_wf {port : Nat} {f : Flit} {s : State} (h : Mem.wf s.mem = true) {t : State} (he : execColdFlit port f s = .next t) :
    Mem.wf t.mem = true := by
  unfold execColdFlit at he
  exact State.receive_wf h (fun s t hs e => by cases e; exact State.takeCold_wf hs) (maybe_next.1 he)

theorem execBarmFlit_wf {port : Nat} {f : Flit} {s : State} (h : Mem.wf s.mem = true) {t : State} (he : execBarmFlit port f s = .next t) :
    Mem.wf t.mem = true := by
  unfold execBarmFlit at he
  exact State.receive_wf h (fun s t hs e => by cases e; exact State.takeBarm_wf hs) (maybe_next.1 he)

theorem execStrFlit_wf {port : Nat} {f : Flit} {s : State} (h : Mem.wf s.mem = true) {t : State} (he : execStrFlit port f s = .next t) :
    Mem.wf t.mem = true := by
  unfold execStrFlit at he
  refine State.receive_wf h (fun s t hs e => ?_) (maybe_next.1 he)
  split at e
  · exact State.applyDelta_wf hs e
  · cases e
    simpa using hs
  · cases e
    simpa using hs
  · cases e
    split
    · simpa using hs
    · exact hs

theorem execBulkFlit_wf {port : Nat} {f : Flit} {s : State} (h : Mem.wf s.mem = true) {t : State} (he : execBulkFlit port f s = .next t) :
    Mem.wf t.mem = true := by
  unfold execBulkFlit at he
  exact State.receive_wf h (fun s t hs e => State.whole_wf hs (fun s f t hs e => State.serveBulk_wf hs e) e) (maybe_next.1 he)

theorem execBadFlit_wf {port : Nat} {f : Flit} {s : State} (h : Mem.wf s.mem = true) {t : State} (he : execBadFlit port f s = .next t) :
    Mem.wf t.mem = true := by
  unfold execBadFlit at he
  have taken := maybe_next.1 he
  split at taken
  · cases taken
  · obtain ⟨r, accepted, rfl⟩ := Option.map_eq_some_iff.1 taken
    have kept : Mem.wf r.2.mem = true := by rw [State.accept_mem accepted]; exact h
    split
    · simpa using kept
    · exact kept

theorem execFlitCrcFailure_wf {port : Nat} {s : State} (h : Mem.wf s.mem = true) {t : State} (he : execFlitCrcFailure port s = .next t) :
    Mem.wf t.mem = true := by
  unfold execFlitCrcFailure at he
  obtain ⟨-, rfl⟩ := event_next.1 he
  simp [h]

theorem execFabfailWrite_wf {w : Nat} {v : Dword} {s : State} (h : Mem.wf s.mem = true) {t : State}
    (he : execFabfailWrite w v s = .next t) : Mem.wf t.mem = true := by
  unfold execFabfailWrite at he
  grind [State.foldl_wf, State.resolveFailed_wf, event_next]

theorem execEgctlEnable_wf {v : Dword} {s : State} (h : Mem.wf s.mem = true) {t : State} (he : execEgctlEnable v s = .next t) :
    Mem.wf t.mem = true := by
  unfold execEgctlEnable at he
  obtain ⟨-, rfl⟩ := event_next.1 he
  simp [h]

theorem execEgrbldGo_wf {v : Dword} {s : State} (h : Mem.wf s.mem = true) {t : State} (he : execEgrbldGo v s = .next t) :
    Mem.wf t.mem = true := by
  unfold execEgrbldGo at he
  obtain ⟨-, rfl⟩ := event_next.1 he
  simp [h]

theorem execRebuildStripe_wf {s : State} (h : Mem.wf s.mem = true) {t : State} (he : execRebuildStripe s = .next t) :
    Mem.wf t.mem = true := by
  unfold execRebuildStripe at he
  obtain ⟨-, rfl⟩ := event_next.1 he
  simp [h]

theorem execCollectiveComplete_wf {job key seq : Nat} {s : State} (h : Mem.wf s.mem = true) {t : State}
    (he : execCollectiveComplete job key seq s = .next t) : Mem.wf t.mem = true := by
  unfold execCollectiveComplete at he
  exact State.wf_of_bind (fun c t e => State.collStep_wf h e) (maybe_next.1 he)

theorem execSigaddApplied_wf {id : Nat} {s : State} (h : Mem.wf s.mem = true) {t : State} (he : execSigaddApplied id s = .next t) :
    Mem.wf t.mem = true := by
  unfold execSigaddApplied at he
  exact State.wf_of_bind (fun m t e => State.sigApply_wf h e) (maybe_next.1 he)

theorem execSigwaitRetest_wf {gid slot : Nat} {s : State} (h : Mem.wf s.mem = true) {t : State}
    (he : execSigwaitRetest gid slot s = .next t) : Mem.wf t.mem = true := by
  unfold execSigwaitRetest at he
  obtain ⟨-, rfl⟩ := event_next.1 he
  simp [h]

theorem execHostWrite_wf {ctx pa : Nat} {data : List Byte} {s : State} (h : Mem.wf s.mem = true) {t : State}
    (he : execHostWrite ctx pa data s = .next t) : Mem.wf t.mem = true := by
  unfold execHostWrite at he
  obtain ⟨-, rfl⟩ := event_next.1 he
  refine State.hostDoes_wf h fun s hs => ?_
  split
  · exact State.homeBytes_wf hs pa data
  · exact hs
  · exact State.foundAll_wf hs
  · exact State.logRecord_wf hs

theorem execDieTlbinvCommand_wf {die ctx kind reach : Nat} {va : Dword} {s : State} (h : Mem.wf s.mem = true) {t : State}
    (he : execDieTlbinvCommand die ctx kind reach va s = .next t) : Mem.wf t.mem = true := by
  unfold execDieTlbinvCommand at he
  obtain ⟨-, rfl⟩ := event_next.1 he
  simp [h]

theorem execClockStop_wf {core : Nat} {s : State} (h : Mem.wf s.mem = true) {t : State} (he : execClockStop core s = .next t) :
    Mem.wf t.mem = true := by
  unfold execClockStop at he
  obtain ⟨-, rfl⟩ := event_next.1 he
  simp [h]

theorem execThrottling_wf {tmax : Nat} {s : State} (h : Mem.wf s.mem = true) {t : State} (he : execThrottling tmax s = .next t) :
    Mem.wf t.mem = true := by
  unfold execThrottling at he
  obtain ⟨-, rfl⟩ := event_next.1 he
  simp [h]

theorem execFlitReplay_wf {port : Nat} {s : State} (h : Mem.wf s.mem = true) {t : State} (he : execFlitReplay port s = .next t) :
    Mem.wf t.mem = true := by
  unfold execFlitReplay at he
  obtain ⟨-, rfl⟩ := event_next.1 he
  simp [h]

theorem execNearBufferEviction_wf {die line : Nat} {s : State} (h : Mem.wf s.mem = true) {t : State}
    (he : execNearBufferEviction die line s = .next t) : Mem.wf t.mem = true := by
  unfold execNearBufferEviction at he
  obtain ⟨-, rfl⟩ := event_next.1 he
  simp [h]

theorem execSoftError_wf {e : SoftError} {s : State} (h : Mem.wf s.mem = true) {t : State} (he : execSoftError e s = .next t) :
    Mem.wf t.mem = true := by
  unfold execSoftError at he
  obtain ⟨-, rfl⟩ := event_next.1 he
  simp [h]

end Sys2Proof.Machine
end

section
/-! Every step keeps memory in its canonical form (R265, R266). -/

namespace Sys2Proof.Machine

theorem issue_wf {ins : Ins} {eff : Iss → State → Eff} (he : KeepsCanonical eff) {s t : State} (h : Mem.wf s.mem = true)
    (hs : issue ins eff s = .next t) : Mem.wf t.mem = true := by
  unfold issue at hs
  split at hs
  · cases hs
  next i _ =>
    cases hs
    exact State.issued_wf h he

theorem exec_wf {i : Instr} {s t : State} (h : Mem.wf s.mem = true) (he : exec i s = .next t) : Mem.wf t.mem = true := by
  cases i
  case runSelect core part => exact execRunSelect_wf h he
  case runBoundary core part => exact execRunBoundary_wf h he
  case joinTimeout gid j => exact execJoinTimeout_wf h he
  case runRotation gid slot => exact execRunRotation_wf h he
  case stallRotation gid slot => exact execStallRotation_wf h he
  case instructionFetchFill core ctx line => exact execInstructionFetchFill_wf h he
  case loadReturn id => exact execLoadReturn_wf h he
  case settleCommit gid slot => exact execSettleCommit_wf h he
  case trapEntry core part => exact execTrapEntry_wf h he
  case sleeptWake gid slot => exact execSleeptWake_wf h he
  case clockRestart core grains => exact execClockRestart_wf h he
  case levelRaiseSettled dom => exact execLevelRaiseSettled_wf h he
  case regclmClaimServed blk => exact execRegclmClaimServed_wf h he
  case regpoolDeadlock blk => exact execRegpoolDeadlock_wf h he
  case emptyOrphan blk => exact execEmptyOrphan_wf h he
  case barrierComplete owner lvl id unit => exact execBarrierComplete_wf h he
  case groupRetire gid => exact execGroupRetire_wf h he
  case remoteScratchpadAccess id => exact execRemoteScratchpadAccess_wf h he
  case dqstealArrival id => exact execDqstealArrival_wf h he
  case tlOperation gid => exact execTlOperation_wf h he
  case fusionHoldEnd quad req => exact execFusionHoldEnd_wf h he
  case priorityAging quad req => exact execPriorityAging_wf h he
  case anvilPass quad => exact execAnvilPass_wf h he
  case passResult quad req => exact execPassResult_wf h he
  case accumulatorPortGrant quad => exact execAccumulatorPortGrant_wf h he
  case mdrnaArrival id => exact execMdrnaArrival_wf h he
  case peerMergeTransfer quad req => exact execPeerMergeTransfer_wf h he
  case mxComplete gid => exact execMxComplete_wf h he
  case pageWalk core ctx va => exact execPageWalk_wf h he
  case homeAccess id => exact execHomeAccess_wf h he
  case l1Eviction core line => exact execL1Eviction_wf h he
  case redoArrival id => exact execRedoArrival_wf h he
  case faultRecordWrite ctx => exact execFaultRecordWrite_wf h he
  case fresp die v => exact execFresp_wf h he
  case firmwareResume gid slot => exact execFirmwareResume_wf h he
  case tongsChunk die engine ctx => exact execTongsChunk_wf h he
  case wbqEntry id => exact execWbqEntry_wf h he
  case wbqDrain die => exact execWbqDrain_wf h he
  case pflushComplete id => exact execPflushComplete_wf h he
  case stepcmOperation ctx => exact execStepcmOperation_wf h he
  case stepabOperation ctx => exact execStepabOperation_wf h he
  case snapshotLine die => exact execSnapshotLine_wf h he
  case freezeNotice die page => exact execFreezeNotice_wf h he
  case freezeAck die page => exact execFreezeAck_wf h he
  case sealingEnd page => exact execSealingEnd_wf h he
  case gather die page => exact execGather_wf h he
  case gatherEnd page => exact execGatherEnd_wf h he
  case lqprodWrite q v => exact execLqprodWrite_wf h he
  case recordStart q => exact execRecordStart_wf h he
  case predecessorRead q n => exact execPredecessorRead_wf h he
  case gridComplete grid => exact execGridComplete_wf h he
  case blockPlacement grid at_ => exact execBlockPlacement_wf h he
  case gateRequest quad => exact execGateRequest_wf h he
  case quadWake quad => exact execQuadWake_wf h he
  case ktvalWrite ctx w v => exact execKtvalWrite_wf h he
  case swout ctx => exact execSwout_wf h he
  case swoutComplete ctx => exact execSwoutComplete_wf h he
  case swin ctx at_ => exact execSwin_wf h he
  case clamp ctx => exact execClamp_wf h he
  case release ctx => exact execRelease_wf h he
  case destroy ctx => exact execDestroy_wf h he
  case mclmpClamp ctx v => exact execMclmpClamp_wf h he
  case mclmpRelease ctx v => exact execMclmpRelease_wf h he
  case todev host => exact execTodev_wf h he
  case tohost host => exact execTohost_wf h he
  case handoverDone => exact execHandoverDone_wf h he
  case registerWrite host off v => exact execRegisterWrite_wf h he
  case steprecWrite ctx v => exact execSteprecWrite_wf h he
  case regionEnable ctx r v => exact execRegionEnable_wf h he
  case enableSweepEnd ctx r => exact execEnableSweepEnd_wf h he
  case scrub die v => exact execScrub_wf h he
  case powerFailure => exact execPowerFailure_wf he
  case bellowsInterval now cur => exact execBellowsInterval_wf h he
  case currentLimit dom => exact execCurrentLimit_wf h he
  case thermalTrip tmax => exact execThermalTrip_wf he
  case bringUp b => exact execBringUp_wf h he
  case attestationRequest nonce => exact execAttestationRequest_wf h he
  case nullFlit port f => exact execNullFlit_wf h he
  case rdFlit port f => exact execRdFlit_wf h he
  case rddFlit port f => exact execRddFlit_wf h he
  case wrFlit port f => exact execWrFlit_wf h he
  case wackFlit port f => exact execWackFlit_wf h he
  case atFlit port f => exact execAtFlit_wf h he
  case atdFlit port f => exact execAtdFlit_wf h he
  case rdoFlit port f => exact execRdoFlit_wf h he
  case frznFlit port f => exact execFrznFlit_wf h he
  case fackFlit port f => exact execFackFlit_wf h he
  case coldFlit port f => exact execColdFlit_wf h he
  case barmFlit port f => exact execBarmFlit_wf h he
  case strFlit port f => exact execStrFlit_wf h he
  case bulkFlit port f => exact execBulkFlit_wf h he
  case badFlit port f => exact execBadFlit_wf h he
  case flitCrcFailure port => exact execFlitCrcFailure_wf h he
  case fabfailWrite w v => exact execFabfailWrite_wf h he
  case egctlEnable v => exact execEgctlEnable_wf h he
  case egrbldGo v => exact execEgrbldGo_wf h he
  case rebuildStripe => exact execRebuildStripe_wf h he
  case collectiveComplete job key seq => exact execCollectiveComplete_wf h he
  case sigaddApplied id => exact execSigaddApplied_wf h he
  case sigwaitRetest gid slot => exact execSigwaitRetest_wf h he
  case hostWrite ctx pa data => exact execHostWrite_wf h he
  case dieTlbinvCommand die ctx kind reach va => exact execDieTlbinvCommand_wf h he
  case clockStop core => exact execClockStop_wf h he
  case throttling tmax => exact execThrottling_wf h he
  case flitReplay port => exact execFlitReplay_wf h he
  case nearBufferEviction die line => exact execNearBufferEviction_wf h he
  case softError e => exact execSoftError_wf h he
  case movi => exact issue_wf (fun i s hs => capped_wf hs (by simp [hs])) h he
  case iaddi => exact issue_wf (fun i s hs => capped_wf hs (by simp [hs])) h he
  case andi => exact issue_wf (fun i s hs => capped_wf hs (by simp [hs])) h he
  all_goals exact issue_wf (fun i s h => by simp [h]) h he

theorem State.issueStep_wf {s t : State} {core part : Nat} {w : Words} (h : Mem.wf s.mem = true) (he : s.issueStep core part w = .next t) :
    Mem.wf t.mem = true := by
  unfold State.issueStep at he
  dsimp only at he
  split at he
  · cases he
  · split at he
    · cases he
      exact State.reservedTrap_wf h
    · split at he
      next s1 ran =>
        cases he
        simpa using exec_wf (by exact h) ran
      next other => exact absurd he (other t)

theorem State.doMove_wf {s t : State} {core : Nat} {m : Move} (h : Mem.wf s.mem = true) (he : s.doMove core m = .next t) :
    Mem.wf t.mem = true := by
  have ready : Mem.wf (s.readied core m).mem = true := by simpa using h
  unfold State.doMove at he
  dsimp only at he
  split at he
  · exact State.issueStep_wf ready he
  · cases he
    exact State.fetchTrap_wf ready
  · cases he
    exact State.cycleEnd_wf ready
  · split at he
    · exact exec_wf ready he
    · cases he
      exact ready

theorem State.coreStep_wf {s t : State} {core : Nat} (h : Mem.wf s.mem = true) (he : s.coreStep core = .next t) : Mem.wf t.mem = true := by
  unfold State.coreStep at he
  split at he
  · cases he
  · split at he
    · split at he
      next s1 moved =>
        cases he
        have kept : Mem.wf s1.mem = true := State.doMove_wf h moved
        exact kept
      next other => exact absurd he (other t)
    · exact State.doMove_wf h he

theorem closed_wf {o : Host.Outcome State Fault Refusal} (h : ∀ s, o = .next s → Mem.wf s.mem = true) {t : State}
    (he : closed o = .next t) : Mem.wf t.mem = true := by
  unfold closed at he
  split at he
  · cases he
    simpa using h _ rfl
  · cases he
  · cases he

theorem step_wf {s t : State} (h : Mem.wf s.mem = true) (he : step s = .next t) : Mem.wf t.mem = true := by
  unfold step at he
  split at he
  · exact closed_wf (fun u hu => State.coreStep_wf h hu) he
  · exact closed_wf (fun u hu => State.coreStep_wf (by exact h) hu) he
  · split at he
    · exact closed_wf (fun u hu => exec_wf (by exact h) hu) he
    · cases he

/-- Settles O58: each row and each move of a core is one of the functions of this part, and each of them leaves canonical memory
canonical, because it leaves memory alone or stores by `Mem.write`. -/
theorem stepsKeepMemoryCanonical : Obligations.StepsKeepMemoryCanonical := by
  unfold Obligations.StepsKeepMemoryCanonical
  exact fun s t h he => step_wf h he

end Sys2Proof.Machine
end

section
/-! FENCE and the lines of an L1 that it drops (R268, R283). -/

namespace Sys2Proof.Machine

/-- What an acquire leaves of a line of its L1, by its order and its scope (R268, R283). -/
theorem State.acquire_l1Line_of_order (s : State) (core sco sem line : Nat) : (s.acquire core sco sem).l1Line (s.l1Of core) line =
    if (sem = 1 ∨ sem = 3) ∧ s.wide core sco = true then (s.l1Line (s.l1Of core) line).cleaned.held else s.l1Line (s.l1Of core) line := by
  unfold State.acquire
  split
  next drops =>
    rw [State.invalidate_l1Line, if_pos (by simpa using drops)]
  next keeps => rw [if_neg (by simpa using keeps)]

/-- A FENCE whose release waits for nothing and whose lanes have no read under way is an acquire (R283). -/
theorem fenceEff_eq {s : State} {x : Iss} (lanes : x.exec ≠ 0) (released : x.ins.sem = 1 ∨ s.releaseDone x x.ins.sco = (true, s))
    (read : x.ins.sem = 2 ∨ s.readsUnder x.gid x.exec = false) : fenceEff x s = .done (s.acquire x.core x.ins.sco x.ins.sem) := by
  have goes : (s.readsUnder x.gid x.exec && x.ins.sem != 2) = false := by
    rcases read with release | none
    · simp [release]
    · simp [none]
  unfold fenceEff
  rw [if_neg lanes]
  dsimp only
  split
  next => simp [goes]
  next order => simp [released.resolve_left order, goes]

/-- What a FENCE leaves of a line of its L1 (R268, R283). -/
def State.fenced (s : State) (x : Iss) (line : Nat) : L1Line :=
  if x.exec ≠ 0 ∧ (x.ins.sem = 1 ∨ x.ins.sem = 3) ∧ s.wide x.core x.ins.sco = true then (s.l1Line (s.l1Of x.core) line).cleaned.held
  else s.l1Line (s.l1Of x.core) line

/-- FENCE completes when what it orders is performed; the lines it drops are then as the L1 holds them. -/
theorem Ready.fence {i : Instr} {s : State} {x : Iss} (ready : Ready s i x) (op : x.ins.op = 0x9B)
    (ordered : x.exec = 0 ∨ ((x.ins.sem = 1 ∨ s.releaseDone x x.ins.sco = (true, s)) ∧ (x.ins.sem = 2 ∨ s.readsUnder x.gid x.exec = false))) :
    ∃ t, exec i s = .next t ∧ Kept s t x ∧ t.accs = s.accs ∧ ∀ line, t.l1Line (s.l1Of x.core) line = s.fenced x line := by
  by_cases lanes : x.exec = 0
  · obtain ⟨next, kept⟩ := ready.kept (by rw [op]; rfl) (if_pos lanes) (.refl s x)
    refine ⟨_, next, kept, State.advance_accs s x, fun line => ?_⟩
    rw [State.advance_l1Line ready.place.1 ready.place.2, State.fenced, if_neg fun some_ => some_.1 lanes]
  · obtain ⟨released, read⟩ := ordered.resolve_left lanes
    obtain ⟨next, kept⟩ := ready.kept (by rw [op]; rfl) (fenceEff_eq lanes released read) (.acquire ..)
    refine ⟨_, next, kept, ?_, fun line => ?_⟩
    · rw [State.advance_accs, State.acquire_rest]
    · rw [State.advance_l1Line (by rw [State.acquire_group]; exact ready.place.1) (by rw [State.acquire_group]; exact ready.place.2),
        State.acquire_l1Line_of_order, State.fenced]
      simp only [ne_eq, lanes, not_false_eq_true, true_and]

/-- FENCE with SEM = acquire and SCO = 3. -/
def fenceAcquire : W64F := { m12 := 0x40D, c := 0, b := 0, a := 0, d := 0, gn := 0, g := 7, st := 0, e := 0 }

/-- The issue of that FENCE in slot 0 of the group. -/
def fenceIssue : Iss := frozenNothing.issAt 0 0 (insW64 0x9B fenceAcquire)

theorem fence_ready : Ready frozenNothing (.fence fenceAcquire) fenceIssue where
  word := rfl
  issuer := by decide +kernel
  settled := by decide +kernel
  checks := by decide +kernel
  sound := by decide +kernel

theorem fence_line : frozenNothing.l1Line (frozenNothing.l1Of fenceIssue.core) 0 = { frozen := true } := by decide +kernel

/-- Refutes O20: an acquire of wide scope cleans a line that its L1 lists as a frozen copy of no byte, and the L1 does not hold it then. As with
O24, no `State.setL1` lists such a line, but the statement speaks of every state, and asks that the line stand as cleaning alone leaves it, which
keeps a frozen copy (R268). What holds of every state is `Ready.fence`. -/
theorem not_fenceCompletesWhenOrdered : ¬ Obligations.FenceCompletesWhenOrdered := by
  intro h
  have ordered : fenceIssue.exec = 0 ∨ ((fenceIssue.ins.sem = 1 ∨
      frozenNothing.releaseDone fenceIssue fenceIssue.ins.sco = (true, frozenNothing)) ∧
      (fenceIssue.ins.sem = 2 ∨ frozenNothing.readsUnder fenceIssue.gid fenceIssue.exec = false)) :=
    .inr ⟨.inl (by decide +kernel), .inr (by decide +kernel)⟩
  have drops : fenceIssue.exec ≠ 0 ∧ (fenceIssue.ins.sem = 1 ∨ fenceIssue.ins.sem = 3) ∧
      frozenNothing.wide fenceIssue.core fenceIssue.ins.sco = true := by decide +kernel
  obtain ⟨t, next, -, -, stands⟩ := h fenceAcquire frozenNothing fenceIssue fence_ready ordered
  obtain ⟨t', next', -, -, gone⟩ := fence_ready.fence rfl ordered
  obtain rfl := Host.Outcome.next.inj (next.symm.trans next')
  have same := (stands 0).symm.trans (gone 0)
  rw [State.fenced, if_pos drops, if_pos drops, fence_line] at same
  cases congrArg L1Line.frozen same

end Sys2Proof.Machine
end

section
/-! REDO: one contribution for each executing lane, and the wait for their answers (R285, R286). -/

namespace Sys2Proof.Machine

/-- What happens to REDO's split and its contributions: some leave, and of everything else only the slot and the run of the split, accesses and
numbers change. -/
structure Redone (s t : State) (x : Iss) (news : List RedoMsg) : Prop where
  mem : t.mem = s.mem
  redos : t.redos = s.redos ++ news
  pending : ((t.group x.gid).slot x.slot).redo = ((s.group x.gid).slot x.slot).redo ++ news.map (·.id)
  group : t.group x.gid = { s.group x.gid with slots := (t.group x.gid).slots }
  others : ∀ g, g ≠ x.gid → t.group g = s.group g
  banks : ∀ c p, (t.part c p).bank = (s.part c p).bank

theorem Redone.trans {s t u : State} {x : Iss} {a b : List RedoMsg} (first : Redone s t x a) (then_ : Redone t u x b) : Redone s u x (a ++ b) where
  mem := then_.mem.trans first.mem
  redos := by rw [then_.redos, first.redos, List.append_assoc]
  pending := by rw [then_.pending, first.pending, List.map_append, List.append_assoc]
  group := by rw [then_.group, first.group]
  others g h := (then_.others g h).trans (first.others g h)
  banks c p := (then_.banks c p).trans (first.banks c p)

theorem Redone.refl (s : State) (x : Iss) : Redone s s x [] := ⟨rfl, by simp, by simp, rfl, fun _ _ => rfl, fun _ _ => rfl⟩

/-- A change outside memory, contributions, groups and cores. -/
theorem Redone.outside {s t : State} (x : Iss) (mem : t.mem = s.mem) (redos : t.redos = s.redos) (groups : t.groups = s.groups)
    (cores : t.cores = s.cores) : Redone s t x [] := by
  have same (g : Nat) : t.group g = s.group g := by rw [State.group, groups]; rfl
  exact ⟨mem, by simp [redos], by simp [same], by rw [same], fun g _ => same g, fun c p => by rw [State.part, State.core, cores]; rfl⟩

theorem Redone.releaseFor (s : State) (x : Iss) : Redone s (s.releaseFor x).2 x [] := by
  unfold State.releaseFor
  split
  · unfold State.startRelease
    dsimp only
    split
    · exact .refl s x
    · exact .outside x rfl rfl rfl rfl
  · exact .refl s x

/-- A change of the split's slot that leaves the contributions it waits for. -/
theorem Redone.modSlot (s : State) (x : Iss) (f : Slot → Slot) (keeps : ∀ y, (f y).redo = y.redo) :
    Redone s (s.modGroup x.gid fun g => g.modSlot x.slot f) x [] where
  mem := rfl
  redos := by simp
  pending := by simp [keeps]
  group := by rw [State.modGroup_self]; rfl
  others g h := State.modGroup_ne s h _
  banks _ _ := rfl

theorem Redone.endRun (s : State) (x : Iss) (cut : Bool) : Redone s (s.endRun x.gid x.slot cut) x [] := by
  rw [State.endRun_eq]
  refine ⟨rfl, by simp, by simp, by simp, by simp, fun c p => ?_⟩
  rw [State.modPart_part]
  split
  next same => rw [same.1, same.2]
  next => rfl

/-- The contribution of one lane (R285). -/
def State.redoMsg (s : State) (x : Iss) (r : Regs) (rel : List Nat) (ctx : Nat) (a : Nat × Nat × Nat) : RedoMsg :=
  let tag := (r.x x.ins.b a.1).toNat
  { id := s.nextId, gid := x.gid, slot := x.slot, ctx := ctx, lane := a.1, va := BitVec.ofNat 64 a.2.1, pa := a.2.2
    aop := x.ins.wd, aty := x.ins.aty, rslot := tag / 2 ^ 24, n := tag / 4096 % 4096 + 1, idx := tag % 4096
    val := ofBytes (r.operand x a.1), sco := x.ins.sco, deps := rel ++ s.depsOf x.gid (laneBit a.1) a.2.2 (atyBytes x.ins.aty) false
    core := x.core, m12 := x.ins.m12 }

/-- One lane's contribution leaves. -/
def State.sendRedo (x : Iss) (r : Regs) (rel : List Nat) (ctx : Nat) (s : State) (a : Nat × Nat × Nat) : State :=
  ({ s with nextId := s.nextId + 1, redos := s.redos ++ [s.redoMsg x r rel ctx a] } : State).modGroup x.gid fun g =>
    g.modSlot x.slot fun y => { y with redo := y.redo ++ [s.nextId] }

theorem Redone.sendRedo (s : State) (x : Iss) (r : Regs) (rel : List Nat) (ctx : Nat) (a : Nat × Nat × Nat) :
    Redone s (s.sendRedo x r rel ctx a) x [s.redoMsg x r rel ctx a] where
  mem := rfl
  redos := rfl
  pending := by
    rw [State.sendRedo, State.modGroup_self, Group.modSlot_slot, if_pos rfl]
    rfl
  group := by
    rw [State.sendRedo, State.modGroup_self]
    rfl
  others g h := State.modGroup_ne _ h _
  banks _ _ := rfl

/-- What the statement asks of a contribution. -/
def RedoMsg.form (m : RedoMsg) : Nat × Nat × Nat × Nat × Nat × Nat × Nat × Nat × Nat × Nat :=
  (m.gid, m.slot, m.lane, m.pa, m.aop, m.aty, m.rslot, m.n, m.idx, m.val)

/-- One contribution leaves for each lane, in their order. -/
theorem Redone.sendRedos (x : Iss) (r : Regs) (rel : List Nat) (ctx : Nat) (ok : List (Nat × Nat × Nat)) (s : State) :
    ∃ news, Redone s (ok.foldl (State.sendRedo x r rel ctx) s) x news ∧
      news.map RedoMsg.form = ok.map fun a => (s.redoMsg x r rel ctx a).form := by
  induction ok generalizing s with
  | nil => exact ⟨[], .refl s x, rfl⟩
  | cons a rest ih =>
    obtain ⟨news, rest_, forms⟩ := ih (s.sendRedo x r rel ctx a)
    refine ⟨_ :: news, (Redone.sendRedo s x r rel ctx a).trans rest_, ?_⟩
    rw [List.map_cons, forms]
    rfl

/-- Where no lane fails, nothing is left unfinished. -/
theorem State.unfinished_nil (s : State) (x : Iss) (n : Need) (uni some_ : Bool) : s.unfinished x n uni some_ [] = .done s := rfl

/-- The lanes of a REDO that complete. -/
def State.redoLanes (s : State) (x : Iss) : List (Nat × Nat × Nat) := (s.lanesAt x .atomic (x.addrs fun l => (s.regs x).xs x.ins.a 2 l)).1

/-- The slot of a REDO that begins: nothing taken, and nothing lost or refused but what an earlier part of it was. -/
def Slot.redoBegun (y : Slot) : Slot :=
  { y with taken := false, lost := if y.replay.isSome then y.lost else [], refused := if y.replay.isSome then y.refused else [] }

/-- The contributions of a REDO leave once its release is under way. -/
def State.redoSent (s : State) (x : Iss) : State :=
  (s.redoLanes x).foldl (State.sendRedo x (s.regs x) (s.releaseFor x).1 (s.group x.gid).ctx)
    ((s.releaseFor x).2.modGroup x.gid fun g => g.modSlot x.slot Slot.redoBegun)

/-- A split that waits for the answers to its contributions. -/
def State.redoHeld (s : State) (x : Iss) : State :=
  s.modGroup x.gid fun g => g.modSlot x.slot fun y => { y with redoAt := some { x.trap .illegalOperand 0 with lanes := 0 } }

/-- A REDO that passes its checks sends what its lanes contribute and waits for the answers (R285, R286). -/
theorem redoEff_eq {s : State} {x : Iss} (idle : ((s.group x.gid).slot x.slot).redo = [])
    (aligned : x.misaligned false (atyBytes x.ins.aty) (x.addrs fun l => (s.regs x).xs x.ins.a 2 l) = none)
    (inside : ∀ a ∈ x.addrs fun l => (s.regs x).xs x.ins.a 2 l,
      ((s.regs x).x x.ins.b a.1).toNat % 4096 ≤ ((s.regs x).x x.ins.b a.1).toNat / 4096 % 4096)
    (all : (s.lanesAt x .atomic (x.addrs fun l => (s.regs x).xs x.ins.a 2 l)).2 = []) (lanes : x.exec ≠ 0) :
    redoEff x s = .wait ((s.redoSent x).redoHeld x) := by
  have below : (x.addrs fun l => (s.regs x).xs x.ins.a 2 l).filter (fun a =>
      decide (((s.regs x).x x.ins.b a.1).toNat % 4096 > ((s.regs x).x x.ins.b a.1).toNat / 4096 % 4096)) = [] :=
    List.filter_eq_nil_iff.2 fun a listed => by simpa using inside a listed
  have some_ : (s.lanesAt x .atomic (x.addrs fun l => (s.regs x).xs x.ins.a 2 l)).1.isEmpty = false := State.lanesAt_isEmpty lanes all
  unfold redoEff
  dsimp only
  rw [if_neg (by simp [idle]), aligned, below, all, some_]
  rfl

theorem Redone.redoHeld (s : State) (x : Iss) : Redone s (s.redoHeld x) x [] :=
  .modSlot s x (fun y => { y with redoAt := some { x.trap .illegalOperand 0 with lanes := 0 } }) fun _ => rfl

/-- All that a REDO leaves changed. -/
theorem Redone.redo (s : State) (x : Iss) : ∃ news, Redone s (((s.redoSent x).redoHeld x).endRun x.gid x.slot true) x news ∧
    news.map RedoMsg.form = (s.redoLanes x).map fun a => (s.redoMsg x (s.regs x) (s.releaseFor x).1 (s.group x.gid).ctx a).form := by
  obtain ⟨news, sent, forms⟩ := Redone.sendRedos x (s.regs x) (s.releaseFor x).1 (s.group x.gid).ctx (s.redoLanes x)
    ((s.releaseFor x).2.modGroup x.gid fun g => g.modSlot x.slot Slot.redoBegun)
  have begun := (Redone.releaseFor s x).trans (.modSlot _ x Slot.redoBegun fun _ => rfl)
  have held := (begun.trans sent).trans ((Redone.redoHeld (s.redoSent x) x).trans (.endRun _ x true))
  simp only [List.nil_append, List.append_nil] at held
  exact ⟨news, held, forms⟩

/-- What a split reads is as it was (R100, R103). -/
theorem Redone.x {s t : State} {x : Iss} {news : List RedoMsg} (h : Redone s t x news) (c l : Nat) : (t.regs x).x c l = (s.regs x).x c l :=
  Regs.x_congr (r := t.regs x) (t := s.regs x) rfl (fun _ => by rw [State.regs, h.group]; rfl) (fun _ => by rw [State.regs, h.group]; rfl)
    (fun _ => h.banks ..) c l

theorem Redone.pred {s t : State} {x : Iss} {news : List RedoMsg} (h : Redone s t x news) (c l : Nat) :
    (t.regs x).pred c l = (s.regs x).pred c l :=
  Regs.pred_congr (r := t.regs x) (t := s.regs x) rfl (fun _ => by rw [State.regs, h.group]; rfl) (fun _ => by rw [State.regs, h.group]; rfl)
    (fun _ => h.banks ..) c l

/-- Settles O21: the lanes' contributions leave in their order, and the split is held at the REDO until they are answered. -/
theorem orderedReductionContributes : Obligations.OrderedReductionContributes := by
  unfold Obligations.OrderedReductionContributes
  intro f s x r la tag ok ready idle aligned inside all lanes
  obtain ⟨w, code, word⟩ := Option.map_eq_some_iff.1 ready.word
  obtain rfl := Option.some.inj code
  obtain ⟨news, done, forms⟩ := Redone.redo s x
  refine ⟨_, news, ?_, done.mem, done.redos, forms, by rw [done.pending, idle, List.nil_append], fun l => ?_, fun c l _ => done.x c l,
    fun c l _ => done.pred c l, done.others⟩
  · rw [ready.exec_eq (eff := redoEff) (word ▸ rfl), redoEff_eq idle aligned inside all lanes]
    rfl
  · rw [done.group]
    rfl

end Sys2Proof.Machine
end

section
/-! The events of memory, of translation and of faults (R266 to R270, R285, R286, R294 to R302, R312, R314, R315). -/

namespace Sys2Proof.Machine

/-! Walks. -/

/-- What a walk of a page that grants something fills (R294). -/
theorem State.fillTlbs_of_serves {s : State} {core ctx va : Nat} {e : TlbEnt} (walked : s.walk ctx va = .ok e) (serves : e.serves va = true) :
    s.fillTlbs core ctx va = ((s.modCore core fun c => { c with utlb := (e :: c.utlb).take 48 }).modQuad (quadOf core) fun q =>
      { q with qtlb := (e :: q.qtlb).take 1024 }).modDie (dieOf core) fun d => { d with dtlb := (e :: d.dtlb).take 16384 } := by
  unfold State.fillTlbs
  rw [walked]
  exact if_neg (by simp [serves])

/-- A walk without an outcome that is an address fills nothing (R294). -/
theorem State.fillTlbs_of_not_serves {s : State} {core ctx va : Nat} {e : TlbEnt} (walked : s.walk ctx va = .ok e) (serves : e.serves va = false) :
    s.fillTlbs core ctx va = s := by
  unfold State.fillTlbs
  rw [walked]
  exact if_pos serves

theorem State.fillTlbs_rest (s : State) (core ctx va : Nat) : (s.fillTlbs core ctx va).mem = s.mem ∧ (s.fillTlbs core ctx va).groups = s.groups := by
  unfold State.fillTlbs
  split
  · exact ⟨rfl, rfl⟩
  · split <;> exact ⟨rfl, rfl⟩

theorem TlbEnt.serves_iff (e : TlbEnt) (va : Nat) : e.serves va = true ↔ va < 2 ^ 56 ∧ (e.rd = true ∨ e.w = true ∨ e.x = true) := by
  simp [TlbEnt.serves, or_assoc]

/-! Lines that leave an L1. -/

/-- A sound line that leaves starts write-backs and changes nothing else but its L1 (R267). -/
theorem State.wbLine_rest {s : State} {l1 line : Nat} (sound : (s.l1Line l1 line).bad = 0) :
    (s.wbLine l1 line).mem = s.mem ∧ (s.wbLine l1 line).groups = s.groups := by
  unfold State.wbLine
  dsimp only
  split
  · exact ⟨rfl, rfl⟩
  · rw [if_neg (by simp [sound])]
    exact List.foldlRecOn (motive := fun t : State => t.mem = s.mem ∧ t.groups = s.groups) _ _ ⟨rfl, rfl⟩ fun _ kept _ _ => kept

/-! Contributions at their home. -/

theorem exec_redoArrival {s : State} {n : Nat} {m : RedoMsg} (found : (s.redos.find? fun m => m.id == n) = some m) {t : State}
    (arrives : s.redoArrive m = some t) : exec (.redoArrival n) s = .next t := by
  change execRedoArrival n s = _
  rw [execRedoArrival, found, Option.bind_some, arrives]

/-- A contribution stands before its home: it has not left, and what it waits for is performed (R285). -/
structure State.RedoDue (s : State) (n : Nat) (m : RedoMsg) : Prop where
  found : (s.redos.find? fun m => m.id == n) = some m
  unsent : m.sent = false
  ready : ∀ k ∈ m.deps, s.pendingId k = false

namespace State.RedoDue

variable {s : State} {n : Nat} {m : RedoMsg}

theorem goes (due : s.RedoDue n m) : ¬ (m.sent || m.deps.any s.pendingId) = true := by
  simpa [due.unsent] using due.ready

/-- Its own L1 holds the line dirty: the line goes home first. -/
theorem dirty (due : s.RedoDue n m) (dirty : (s.l1Line (s.l1Of m.core) (lineOf m.pa)).dirty ≠ 0) :
    exec (.redoArrival n) s = .next (s.wbLine (s.l1Of m.core) (lineOf m.pa)) := by
  refine exec_redoArrival due.found ?_
  rw [State.redoArrive, if_neg due.goes, if_pos dirty]

/-- Past its own L1, a contribution of this package is taken at its home. -/
theorem here (due : s.RedoDue n m) (clean : (s.l1Line (s.l1Of m.core) (lineOf m.pa)).dirty = 0) (back : s.wbs (s.l1Of m.core) (lineOf m.pa) = [])
    (own : pkgOf m.pa = s.pkg) {a : RedoReply} {u : State}
    (taken : (s.dropLine (s.l1Of m.core) m.pa).redoTake m.ctx m.pa m.aop m.aty m.n m.idx m.val m.sco m.rslot = some (a, u)) :
    exec (.redoArrival n) s = .next (u.redoAnswer m a) := by
  refine exec_redoArrival due.found ?_
  rw [State.redoArrive, if_neg due.goes, if_neg (by simp [clean]), if_neg (by simp [back]), if_neg (by simp [own]), taken]
  rfl

/-- Past its own L1, a contribution to a package that is out of reach is lost. -/
theorem away (due : s.RedoDue n m) (clean : (s.l1Line (s.l1Of m.core) (lineOf m.pa)).dirty = 0) (back : s.wbs (s.l1Of m.core) (lineOf m.pa) = [])
    (other : pkgOf m.pa ≠ s.pkg) (lost : s.reachable (pkgOf m.pa) = false) :
    exec (.redoArrival n) s = .next ((s.dropLine (s.l1Of m.core) m.pa).redoAnswer m (.lost .dataError)) := by
  refine exec_redoArrival due.found ?_
  rw [State.redoArrive, if_neg due.goes, if_neg (by simp [clean]), if_neg (by simp [back]), if_pos other, if_neg (by simp [lost])]

end State.RedoDue

/-- The slot that a contribution finds at its home (R285). -/
def State.redoFound (s : State) (d : Nat) (m : RedoMsg) : RedoSlot :=
  (s.die d).redo.getD m.rslot { ctx := m.ctx, addr := m.pa, aop := m.aop, aty := m.aty, n := m.n, vals := [], sco := 0 }

/-- A slot with one more contribution. -/
def RedoSlot.plus (r : RedoSlot) (m : RedoMsg) : RedoSlot := { r with vals := r.vals.set m.idx m.val, sco := max r.sco m.sco }

/-- A contribution agrees with the slot it finds (R285). -/
def RedoSlot.Agrees (r : RedoSlot) (m : RedoMsg) : Prop :=
  r.ctx = m.ctx ∧ r.addr = m.pa ∧ r.aop = m.aop ∧ r.aty = m.aty ∧ r.n = m.n ∧ r.vals.get? m.idx = none

section Take

variable {s : State} {d : Nat} {m : RedoMsg}

theorem State.redoTake_of_coded (coded : s.coded m.pa = true) :
    s.redoTake m.ctx m.pa m.aop m.aty m.n m.idx m.val m.sco m.rslot = some (.lost .pageProtection, s) := if_pos coded

theorem State.redoTake_eq (home : homeDie m.pa = some d) (plain : s.coded m.pa = false) :
    s.redoTake m.ctx m.pa m.aop m.aty m.n m.idx m.val m.sco m.rslot = (let r := s.redoFound d m
      if r.ctx ≠ m.ctx ∨ r.addr ≠ m.pa ∨ r.aop ≠ m.aop ∨ r.aty ≠ m.aty ∨ r.n ≠ m.n ∨ (r.vals.get? m.idx).isSome = true then some (.refused, s)
      else if (r.plus m).vals.length < m.n then some (.taken, s.modDie d fun x => { x with redo := x.redo.set m.rslot (r.plus m) })
      else (s.redoApply (r.plus m)).map fun s1 => (.taken, s1.modDie d fun x => { x with redo := x.redo.erase m.rslot })) := by
  rw [State.redoTake, if_neg (by simp [plain]), home]
  rfl

theorem RedoSlot.agrees_iff (r : RedoSlot) (m : RedoMsg) : r.Agrees m ↔
    ¬ (r.ctx ≠ m.ctx ∨ r.addr ≠ m.pa ∨ r.aop ≠ m.aop ∨ r.aty ≠ m.aty ∨ r.n ≠ m.n ∨ (r.vals.get? m.idx).isSome = true) := by
  simp [RedoSlot.Agrees]

theorem State.redoTake_of_disagrees (home : homeDie m.pa = some d) (plain : s.coded m.pa = false) (differs : ¬ (s.redoFound d m).Agrees m) :
    s.redoTake m.ctx m.pa m.aop m.aty m.n m.idx m.val m.sco m.rslot = some (.refused, s) := by
  rw [RedoSlot.agrees_iff, not_not] at differs
  rw [State.redoTake_eq home plain]
  exact if_pos differs

theorem State.redoTake_of_below (home : homeDie m.pa = some d) (plain : s.coded m.pa = false) (agrees : (s.redoFound d m).Agrees m)
    (below : ((s.redoFound d m).plus m).vals.length < m.n) : s.redoTake m.ctx m.pa m.aop m.aty m.n m.idx m.val m.sco m.rslot =
      some (.taken, s.modDie d fun x => { x with redo := x.redo.set m.rslot ((s.redoFound d m).plus m) }) := by
  rw [State.redoTake_eq home plain]
  exact (if_neg ((RedoSlot.agrees_iff ..).1 agrees)).trans (if_pos below)

theorem State.redoTake_of_last (home : homeDie m.pa = some d) (plain : s.coded m.pa = false) (agrees : (s.redoFound d m).Agrees m)
    (last : m.n ≤ ((s.redoFound d m).plus m).vals.length) {u : State} (applied : s.redoApply ((s.redoFound d m).plus m) = some u) :
    s.redoTake m.ctx m.pa m.aop m.aty m.n m.idx m.val m.sco m.rslot =
      some (.taken, u.modDie d fun x => { x with redo := x.redo.erase m.rslot }) := by
  rw [State.redoTake_eq home plain]
  refine (if_neg ((RedoSlot.agrees_iff ..).1 agrees)).trans ((if_neg (by omega)).trans ?_)
  rw [applied]
  rfl

end Take

/-! What an L1 drops is no concern of the home. -/

theorem State.dropLine_coded (s : State) (l1 pa a : Nat) : (s.dropLine l1 pa).coded a = s.coded a := rfl

theorem State.dropLine_redoFound (s : State) (l1 pa d : Nat) (m : RedoMsg) : (s.dropLine l1 pa).redoFound d m = s.redoFound d m := rfl

/-- What becomes of a contribution to a plain place of this package (R285). -/
theorem State.RedoDue.taken {s : State} {n d : Nat} {m : RedoMsg} (due : s.RedoDue n m) (own : pkgOf m.pa = s.pkg)
    (home : homeDie m.pa = some d) (plain : s.coded m.pa = false) :
    let l1 := s.l1Of m.core
    let s1 := s.dropLine l1 m.pa
    let r := s.redoFound d m
    ((s.l1Line l1 (lineOf m.pa)).dirty ≠ 0 → exec (.redoArrival n) s = .next (s.wbLine l1 (lineOf m.pa))) ∧
    ((s.l1Line l1 (lineOf m.pa)).dirty = 0 → s.wbs l1 (lineOf m.pa) = [] →
      (¬ r.Agrees m → exec (.redoArrival n) s = .next (s1.redoAnswer m .refused)) ∧
      (r.Agrees m → (r.plus m).vals.length < m.n → exec (.redoArrival n) s =
        .next ((s1.modDie d fun x => { x with redo := x.redo.set m.rslot (r.plus m) }).redoAnswer m .taken)) ∧
      (∀ u, r.Agrees m → m.n ≤ (r.plus m).vals.length → s1.redoApply (r.plus m) = some u → exec (.redoArrival n) s =
        .next ((u.modDie d fun x => { x with redo := x.redo.erase m.rslot }).redoAnswer m .taken))) := by
  intro l1 s1 r
  rw [← s.dropLine_coded l1 m.pa] at plain
  have same : r = s1.redoFound d m := (s.dropLine_redoFound ..).symm
  rw [same]
  exact ⟨due.dirty, fun clean back => ⟨fun differs => due.here clean back own (State.redoTake_of_disagrees home plain differs),
    fun agrees below => due.here clean back own (State.redoTake_of_below home plain agrees below),
    fun u agrees last applied => due.here clean back own (State.redoTake_of_last home plain agrees last applied)⟩⟩

/-! Scrubs. -/

/-- The cells of a line of zeros. -/
theorem mapIdx_zeros (pa n : Nat) : (List.replicate n (0 : Byte)).mapIdx (fun i b => (pa + i, b)) = (List.range n).map fun k => (pa + k, 0) :=
  List.ext_getElem (by simp) fun i _ _ => by simp

/-- The dies as a write at home leaves them: what one of them has queued may have grown (R357). -/
theorem State.homeCells_errset (s : State) (cells : List Host.Cell) (n : Nat) : ((s.homeCells cells).die n).errset = (s.die n).errset := by
  unfold State.homeCells
  dsimp only
  split
  · rfl
  · split
    · split
      · rw [State.modDie_get]
        split
        next same => rw [same]; rfl
        next => rfl
      · rfl
    · rfl

/-- A scrub of a line of its own die clears it and forgets its error (R315). -/
theorem State.scrub_here {s : State} {n line : Nat} {v : Dword} (names : bitsOf v.toNat 53 6 = line) (own : pkgOf (64 * line) = s.pkg)
    (home : homeDie (64 * line) = some n) : s.scrub n v = (s.homeBytes (64 * line) (List.replicate 64 0)).modDie n fun d =>
      { d with errset := d.errset.filter (· != line), struck := d.struck.filter (· != line) } := by
  rw [State.scrub, names]
  exact if_neg (by simp [own, home])

theorem State.scrub_elsewhere {s : State} {n line : Nat} {v : Dword} (names : bitsOf v.toNat 53 6 = line)
    (away : pkgOf (64 * line) ≠ s.pkg ∨ homeDie (64 * line) ≠ some n) : s.scrub n v = s := by
  rw [State.scrub, names]
  exact if_pos away

/-! The events. -/

section Events

variable {s t : State} {core ctx n line gid slot : Nat} {v : Dword}

/-- A walk fills the three levels with what grants something, and nothing with what does not (R294). -/
theorem exec_pageWalk (on : s.on = true) (low : core < 512) (valid : (s.ctx ctx).valid = true) (miss : s.tlbMiss core ctx v.toNat = true) :
    exec (.pageWalk core ctx v) s = .next (s.fillTlbs core ctx v.toNat) := by
  change execPageWalk core ctx v s = _
  exact event_of (by simp [on, low, valid, miss])

theorem State.fillTlbs_entries {e : TlbEnt} (walked : s.walk ctx v.toNat = .ok e) :
    (v.toNat < 2 ^ 56 → (e.rd = true ∨ e.w = true ∨ e.x = true) →
      ((s.fillTlbs core ctx v.toNat).core core).utlb = (e :: (s.core core).utlb).take 48 ∧
      ((s.fillTlbs core ctx v.toNat).quad (quadOf core)).qtlb = (e :: (s.quad (quadOf core)).qtlb).take 1024 ∧
      ((s.fillTlbs core ctx v.toNat).die (dieOf core)).dtlb = (e :: (s.die (dieOf core)).dtlb).take 16384) ∧
    (2 ^ 56 ≤ v.toNat ∨ (e.rd = false ∧ e.w = false ∧ e.x = false) → s.fillTlbs core ctx v.toNat = s) := by
  refine ⟨fun inside grants => ?_, fun nothing => State.fillTlbs_of_not_serves walked ?_⟩
  · rw [State.fillTlbs_of_serves walked ((e.serves_iff _).2 ⟨inside, grants⟩)]
    simp
  · rw [Bool.eq_false_iff, ne_eq, e.serves_iff]
    rintro ⟨inside, grants⟩
    rcases nothing with beyond | ⟨rd, w, x⟩
    · omega
    · simp [rd, w, x] at grants

theorem exec_homeAccess_of_performed {a : Access} (found : (s.accs.find? fun a => a.id == n && !a.waiting) = some a)
    (performed : s.performNow a = some t) : exec (.homeAccess n) s = .next t := by
  change execHomeAccess n s = _
  rw [execHomeAccess, found]
  dsimp only
  rw [performed]

/-- An access that its home cannot take yet waits there (R266, R357). -/
theorem exec_homeAccess_of_held {a : Access} (found : (s.accs.find? fun a => a.id == n && !a.waiting) = some a) (none : s.performNow a = none)
    (held : s.heldAtHome a = true) : exec (.homeAccess n) s = .next (s.waitAtHome n) := by
  change execHomeAccess n s = _
  rw [execHomeAccess, found]
  dsimp only
  rw [none]
  exact event_of held

theorem exec_l1Eviction (listed : ((s.core core).l1.get? line).isSome = true) :
    exec (.l1Eviction core line) s = .next ((s.wbLine core line).setL1 core line {}) := by
  change execL1Eviction core line s = _
  exact event_of listed

theorem exec_nearBufferEviction (listed : ((s.die n).near.get? line).isSome = true) :
    exec (.nearBufferEviction n line) s = .next (s.modDie n fun d => { d with near := d.near.erase line }) := by
  change execNearBufferEviction n line s = _
  exact event_of listed

theorem exec_faultRecordWrite {r : FRec} {rs : List FRec} (waits : (s.ctx ctx).waiting = r :: rs) (room : (s.ctx ctx).frqFull = false) :
    exec (.faultRecordWrite ctx) s = .next ((s.modCtx ctx fun c => { c with waiting := rs }).putRecord ctx r) := by
  change execFaultRecordWrite ctx s = _
  rw [execFaultRecordWrite, waits]
  exact event_of (by simp [room])

theorem exec_fresp (on : s.on = true) (low : n < 4) : exec (.fresp n v) s = .next (s.answer v) := by
  change execFresp n v s = _
  exact event_of (by simp [on, low])

theorem exec_firmwareResume (answered : s.answered gid slot = true) : exec (.firmwareResume gid slot) s = .next (s.firmwareDone gid slot) := by
  change execFirmwareResume gid slot s = _
  exact event_of answered

/-- A scrub waits for nothing where its line is of another home, or the queue of its home has room (R315, R357). -/
theorem exec_scrub (on : s.on = true) (low : n < 4) (goes : pkgOf (bitsOf v.toNat 53 6 * 64) ≠ s.pkg ∨
      homeDie (bitsOf v.toNat 53 6 * 64) ≠ some n ∨ s.wbqRoom (bitsOf v.toNat 53 6 * 64) = true) :
    exec (.scrub n v) s = .next (s.scrub n v) := by
  change execScrub n v s = _
  refine event_of ?_
  rw [on, decide_eq_true low, Bool.and_true, Bool.true_and]
  simpa [or_assoc] using goes

theorem exec_dieTlbinvCommand {kind reach : Nat} (on : s.on = true) (low : n < 4) (short : kind < 2) (few : reach < 4) :
    exec (.dieTlbinvCommand n ctx kind reach v) s = .next (s.tlbDrop kind (s.ctx ctx).asid v.toNat reach (128 * n)) := by
  change execDieTlbinvCommand n ctx kind reach v s = _
  exact event_of (by simp [on, low, short, few])

theorem exec_softError {e : SoftError} (on : s.on = true) (stands : s.hasPlace e.place = true) : exec (.softError e) s = .next (s.strike e) := by
  change execSoftError e s = _
  exact event_of (by simp [on, stands])

/-- A scrub of a line of its own die leaves zeros there and no error (R315). -/
theorem State.scrub_clears (own : pkgOf (64 * line) = s.pkg) (home : homeDie (64 * line) = some n) (names : bitsOf v.toNat 53 6 = line) :
    (s.scrub n v).mem = (List.range 64).foldl (fun m k => Mem.write m (64 * line + k) 0) s.mem ∧
    ((s.scrub n v).die n).errset = (s.die n).errset.filter (· != line) := by
  rw [State.scrub_here names own home]
  constructor
  · rw [State.modDie_mem, State.homeBytes, State.homeCells_mem, mapIdx_zeros, List.foldl_map]
  · rw [State.modDie_self, State.homeBytes]
    dsimp only
    rw [State.homeCells_errset]

end Events

/-- Settles O47: each event by the lemma about it, and what its function leaves by the lemma about that. -/
theorem memoryEventsComplete : Obligations.MemoryEventsComplete := by
  unfold Obligations.MemoryEventsComplete
  intro s t core ctx n gid slot v c line
  refine ⟨?walk, ?performed, ?held, ?evict, ?near, ?arrival, ?redo, ?lost, ?record, ?answer, ?resume, ?scrub, ?other, ?tlbinv, ?strike⟩
  case performed => exact fun a found performed => exec_homeAccess_of_performed found performed
  case held => exact fun a found none held => exec_homeAccess_of_held found none held
  case near => exact fun listed => exec_nearBufferEviction listed
  case arrival => exact fun m found arrives => exec_redoArrival found arrives
  case record => exact fun r rs waits room => exec_faultRecordWrite waits room
  case answer => exact fun on low => exec_fresp on low
  case resume => exact fun answered => exec_firmwareResume answered
  case tlbinv => exact fun kind reach on low short few => exec_dieTlbinvCommand on low short few
  case strike => exact fun e on stands => exec_softError on stands
  case walk =>
    intro on low valid miss
    exact ⟨_, exec_pageWalk on low valid miss, (s.fillTlbs_rest ..).1, (s.fillTlbs_rest ..).2, fun e walked => State.fillTlbs_entries walked⟩
  case evict => exact fun listed => ⟨_, exec_l1Eviction listed, (State.setL1_l1Line ..).trans (if_pos rfl), State.wbLine_rest⟩
  case redo =>
    intro m d found unsent ready own home plain
    exact State.RedoDue.taken ⟨found, unsent, ready⟩ own home plain
  case lost =>
    intro m found unsent ready l1 clean back
    have due : s.RedoDue n m := ⟨found, unsent, ready⟩
    exact ⟨fun own coded => due.here clean back own (State.redoTake_of_coded coded), due.away clean back⟩
  case scrub =>
    intro on low own home room
    refine ⟨_, exec_scrub on low (.inr (.inr room)), State.scrub_clears ?_ ?_ rfl⟩
    · rwa [Nat.mul_comm]
    · rwa [Nat.mul_comm]
  case other =>
    intro on low away
    rw [exec_scrub on low (away.imp_right .inl), State.scrub_elsewhere rfl (by rwa [Nat.mul_comm])]

end Sys2Proof.Machine
end

section
/-! FRZ, THAW and FRZQ (R318 to R323), and what leaves for other packages (R389). -/

namespace Sys2Proof.Machine

/-! What leaves for other packages. -/

/-- Nothing but what stands at the ports has changed. -/
def Sends (s t : State) : Prop := t = { s with ports := t.ports, out := t.out, outHeld := t.outHeld }

theorem Sends.refl (s : State) : Sends s s := rfl

theorem Sends.trans {s t u : State} (h₁ : Sends s t) (h₂ : Sends t u) : Sends s u := by
  unfold Sends at *
  rw [h₂, h₁]

theorem Sends.fold {α : Type} {f : State → α → State} (step : ∀ s a, Sends s (f s a)) (l : List α) (s : State) : Sends s (l.foldl f s) := by
  induction l generalizing s with
  | nil => exact .refl s
  | cons a l ih => exact (step s a).trans (ih _)

theorem Sends.emitFlit (s : State) (f : Flit) : Sends s (s.emitFlit f) := by
  unfold State.emitFlit
  dsimp only
  split <;> rfl

theorem Sends.sendFlit (s : State) (f : Flit) : Sends s (s.sendFlit f) := by
  unfold State.sendFlit
  split
  · rfl
  · exact .emitFlit s f

theorem Sends.tellPackages (s : State) (page : Nat) (gather : Bool) (ps : List Nat) : Sends s (s.tellPackages page gather ps) :=
  .fold (fun s _ => .sendFlit s _) ps s

theorem Sends.dirEnt {s t : State} (h : Sends s t) (page : Nat) : t.dirEnt page = s.dirEnt page := by rw [h]; rfl

/-! The freeze directory. -/

theorem State.setDir_rest (s : State) (page : Nat) (e : Option DirEnt) : s.setDir page e = { s with dies := (s.setDir page e).dies } := by
  unfold State.setDir
  split <;> rfl

/-- A die's entries with that of a page set or removed. -/
def dirPut (dir : Tbl DirEnt) (page : Nat) (e : Option DirEnt) : Tbl DirEnt :=
  match e with | some e => dir.set page e | none => dir.erase page

theorem dirPut_get (dir : Tbl DirEnt) (page p : Nat) (e : Option DirEnt) : (dirPut dir page e).get? p = if p = page then e else dir.get? p := by
  cases e with
  | none => exact Tbl.get?_erase ..
  | some e => exact Tbl.get?_set ..

/-- A page of this package has the entry set for it, and every other page its own (R317). -/
theorem State.setDir_dirEnt {s : State} {page : Nat} (own : page / 2 ^ 25 = s.pkg) (home : (homeDie (page * 2 ^ 17)).isSome = true)
    (e : Option DirEnt) (p : Nat) : (s.setDir page e).dirEnt p = if p = page then e else s.dirEnt p := by
  obtain ⟨d, home⟩ := Option.isSome_iff_exists.1 home
  have set : s.setDir page e = s.modDie d fun x => { x with dir := dirPut x.dir page e } := by
    rw [State.setDir, home]
    rfl
  rw [set]
  unfold State.dirEnt
  rw [State.modDie_pkg]
  by_cases same : p = page
  · subst same
    rw [if_neg (not_not.2 own), home, if_pos rfl]
    dsimp only
    rw [State.modDie_self]
    exact (dirPut_get ..).trans (if_pos rfl)
  · rw [if_neg same]
    by_cases there : p / 2 ^ 25 = s.pkg
    · rw [if_neg (not_not.2 there), if_neg (not_not.2 there)]
      cases homeDie (p * 2 ^ 17) with
      | none => rfl
      | some k =>
        dsimp only
        rw [State.modDie_get]
        by_cases here : k = d
        · rw [if_pos here, here]
          exact (dirPut_get ..).trans (if_neg same)
        · rw [if_neg here]
    · rw [if_pos there, if_pos there]

/-- Nothing but directories and what stands at the ports has changed. -/
def Freezes (s t : State) : Prop := t = { s with dies := t.dies, ports := t.ports, out := t.out, outHeld := t.outHeld }

theorem Freezes.trans {s t u : State} (h₁ : Freezes s t) (h₂ : Freezes t u) : Freezes s u := by
  unfold Freezes at *
  rw [h₂, h₁]

theorem Freezes.tells {s : State} {page : Nat} {e : Option DirEnt} (gather : Bool) (ps : List Nat) :
    Freezes s ((s.setDir page e).tellPackages page gather ps) := by
  unfold Freezes
  rw [Sends.tellPackages (s.setDir page e) page gather ps, State.setDir_rest]

theorem Freezes.setDir (s : State) (page : Nat) (e : Option DirEnt) : Freezes s (s.setDir page e) := by
  unfold Freezes
  rw [State.setDir_rest]

theorem Freezes.frzStep (s : State) (page : Nat) : Freezes s (s.frzStep page) := by
  unfold State.frzStep
  split
  · exact .tells ..
  · exact .setDir ..

theorem Freezes.thawStep (s : State) (page : Nat) : Freezes s (s.thawStep page) := by
  unfold State.thawStep
  split
  · rfl
  · dsimp only
    split
    · exact .tells ..
    · exact .setDir ..

theorem Freezes.queues {s t : State} (h : Freezes s t) (x : Iss) : Queues s t x := .outside x (by rw [h]) (by rw [h]) (by rw [h])

section
variable {s : State} {page : Nat} {e : DirEnt}

theorem State.frzStep_of_open (none_ : s.dirEnt page = none) : s.frzStep page = s.startSealing page := by
  rw [State.frzStep, none_]

theorem State.frzStep_of_listed (listed : s.dirEnt page = some e) : s.frzStep page = s.setDir page (some { e with
    count := e.count + 1, cut := if e.count = 0 ∧ e.state = .sealing then e.cut ++ s.thawsOf page else e.cut }) := by
  rw [State.frzStep, listed]

theorem State.thawStep_of_open (none_ : s.dirEnt page = none) : s.thawStep page = s := by
  rw [State.thawStep, none_]

/-- A THAW counts one less, and the last of a SEALED page gathers it (R318). -/
theorem State.thawStep_of_listed (listed : s.dirEnt page = some e) : s.thawStep page =
    if e.count ≤ 1 ∧ e.state = .sealed then s.startGather page { e with count := e.count - 1 }
    else s.setDir page (some { e with count := e.count - 1 }) := by
  rw [State.thawStep, listed]
  simp only [Nat.sub_eq_zero_iff_le]

variable (own : page / 2 ^ 25 = s.pkg) (home : (homeDie (page * 2 ^ 17)).isSome = true)
include own home

theorem State.startSealing_dirEnt (p : Nat) : (s.startSealing page).dirEnt p = if p = page then
    some { count := 1, state := .sealing, hdie := [], pkf := 0, await := [0, 1, 2, 3] ++ s.others.map (4 + ·), told := [] } else s.dirEnt p := by
  rw [State.startSealing, (Sends.tellPackages ..).dirEnt]
  exact State.setDir_dirEnt own home _ p

theorem State.startGather_dirEnt (e : DirEnt) (p : Nat) : (s.startGather page e).dirEnt p = if p = page then
    some { e with state := .thawing, await := e.hdie ++ (s.others.filter fun p => e.pkf.getLsbD (p % 32)).map (4 + ·), told := [] }
    else s.dirEnt p := by
  rw [State.startGather, (Sends.tellPackages ..).dirEnt]
  exact State.setDir_dirEnt own home _ p

/-- FRZ makes an OPEN page SEALING with count 1 and else counts one more (R318). -/
theorem State.frzStep_dirEnt :
    (s.dirEnt page = none → ∃ e, (s.frzStep page).dirEnt page = some e ∧ e.count = 1 ∧ e.state = .sealing) ∧
    (∀ e, s.dirEnt page = some e → (s.frzStep page).dirEnt page = some { e with
      count := e.count + 1, cut := if e.count = 0 ∧ e.state = .sealing then e.cut ++ s.thawsOf page else e.cut }) ∧
    ∀ p, p ≠ page → (s.frzStep page).dirEnt p = s.dirEnt p := by
  refine ⟨fun none_ => ?_, fun e listed => ?_, fun p other => ?_⟩
  · rw [State.frzStep_of_open none_, State.startSealing_dirEnt own home, if_pos rfl]
    exact ⟨_, rfl, rfl, rfl⟩
  · rw [State.frzStep_of_listed listed, State.setDir_dirEnt own home, if_pos rfl]
  · cases was : s.dirEnt page with
    | none => rw [State.frzStep_of_open was, State.startSealing_dirEnt own home, if_neg other]
    | some e => rw [State.frzStep_of_listed was, State.setDir_dirEnt own home, if_neg other]

/-- THAW counts one less, and a SEALED page whose count falls to 0 becomes THAWING (R318). -/
theorem State.thawStep_dirEnt :
    (∀ e, s.dirEnt page = some e → ∃ e', (s.thawStep page).dirEnt page = some e' ∧ e'.count = e.count - 1 ∧
      e'.state = if e.count ≤ 1 ∧ e.state = .sealed then .thawing else e.state) ∧
    ∀ p, p ≠ page → (s.thawStep page).dirEnt p = s.dirEnt p := by
  refine ⟨fun e listed => ?_, fun p other => ?_⟩
  · rw [State.thawStep_of_listed listed]
    split
    · rw [State.startGather_dirEnt own home, if_pos rfl]
      exact ⟨_, rfl, rfl, rfl⟩
    · rw [State.setDir_dirEnt own home, if_pos rfl]
      exact ⟨_, rfl, rfl, rfl⟩
  · cases was : s.dirEnt page with
    | none => rw [State.thawStep_of_open was]
    | some e =>
      rw [State.thawStep_of_listed was]
      split
      · rw [State.startGather_dirEnt own home, if_neg other]
      · rw [State.setDir_dirEnt own home, if_neg other]

end

/-! An operation that ends as it issues. -/

/-- What completes of a class changes the outstanding operations and the flags of its group alone (R173). -/
theorem Group.complete_rest (g : Group) (cls : Cls) : g.complete cls = { g with ops := (g.complete cls).ops, fpstat := (g.complete cls).fpstat } := by
  unfold Group.complete
  induction List.range (g.counter cls) using List.reverseRecOn with
  | nil => rfl
  | append_singleton l k ih =>
    rw [List.foldl_append, List.foldl_cons, List.foldl_nil]
    split
    · split
      · rw [Group.report, ih]
      · exact ih
    · exact ih

/-- What ends an operation changes of its group. -/
def State.ended (s : State) (cls : Cls) (n : Nat) (fail : Option Fail) (g : Group) : Group :=
  if (s.core g.core).running then g.workDone cls n fail 0 else (g.workDone cls n fail 0).complete cls

theorem State.endOp_eq (s : State) (gid : Nat) (cls : Cls) (n : Nat) (fail : Option Fail) :
    s.endOp gid cls n fail = s.setGroup gid (s.ended cls n fail (s.group gid)) := by
  unfold State.endOp State.ended
  split <;> rfl

theorem State.ended_rest (s : State) (cls : Cls) (n : Nat) (fail : Option Fail) (g : Group) : s.ended cls n fail g =
    { g with ops := (s.ended cls n fail g).ops, fpstat := (s.ended cls n fail g).fpstat } := by
  unfold State.ended
  split
  · rfl
  · rw [Group.complete_rest]
    rfl

/-! FRZ and THAW. -/

/-- The steps that FRZ or THAW takes on its pages, one after the other. -/
def State.stepPages (s : State) (thaw : Bool) (pages : List Nat) : State := pages.foldl (fun s p => if thaw then s.thawStep p else s.frzStep p) s

theorem Freezes.stepPages (s : State) (thaw : Bool) (pages : List Nat) : Freezes s (s.stepPages thaw pages) := by
  unfold State.stepPages
  induction pages generalizing s with
  | nil => rfl
  | cons p pages ih =>
    refine Freezes.trans ?_ (ih _)
    cases thaw
    · exact .frzStep s p
    · exact .thawStep s p

/-- The steps taken and the operation counted (R173). -/
def State.freezeCounted (s : State) (x : Iss) (thaw : Bool) (pages : List Nat) (mk : EngOp → EngOp) : State :=
  ((s.stepPages thaw pages).countOp x.gid 5 mk).2

theorem State.freezeCounted_queues (s : State) (x : Iss) (thaw : Bool) (pages : List Nat) (mk : EngOp → EngOp) :
    Queues s (s.freezeCounted x thaw pages mk) x := ((Freezes.stepPages s thaw pages).queues x).trans (.countOp _ x 5 mk)

theorem State.freezeCounted_issuedOf (s : State) (x : Iss) (thaw : Bool) (pages : List Nat) (mk : EngOp → EngOp) :
    ((s.freezeCounted x thaw pages mk).group x.gid).issuedOf 5 = (s.group x.gid).issuedOf 5 + 1 := by
  have same : (s.stepPages thaw pages).group x.gid = s.group x.gid := by rw [Freezes.stepPages s thaw pages]; rfl
  rw [State.freezeCounted, State.countOp, State.modGroup_self, same]
  exact Tbl.getD_set_self ..

/-- FRZ and THAW, once nothing stands against them, take the steps of their pages and are counted; where no page keeps them waiting they end
at once (R318 to R320). -/
theorem freezeEff_eq {s : State} {x : Iss} {thaw : Bool} {ps : List (Nat × Nat)} (aligned : (s.regs x).xs x.ins.a 2 0 % 2 ^ 17 = 0)
    (some_ : ((s.regs x).x x.ins.b 0).toNat ≠ 0) (few : ((s.regs x).x x.ins.b 0).toNat ≤ 4096) (counter : s.counterFull x.gid 5 = false)
    (range : s.rangePages thaw x.core (s.group x.gid).ctx ((s.regs x).xs x.ins.a 2 0) ((s.regs x).x x.ins.b 0).toNat = .ok ps)
    (released : s.releaseDone { x with exec := BitVec.allOnes 32 } 5 = (true, s)) (sound : (if thaw then s.thawFault ps else s.frzFault ps) = none) :
    ∃ mk idle k, freezeEff thaw x s = .done (let u := s.freezeCounted x thaw ((ps.filter fun p => p.2 / 2 ^ 25 == s.pkg).map Prod.snd) mk
      if idle = true then u.endOp x.gid 5 k none else u) := by
  unfold freezeEff
  dsimp only
  rw [if_neg (not_not.2 aligned), if_neg (by omega), if_neg (by simp [counter]), range]
  dsimp only
  rw [released]
  dsimp only
  rw [sound]
  exact ⟨_, _, _, rfl⟩

/-- Going on after a change of the issuing group that touches neither registers nor lanes nor slots (R104). -/
structure Steps (s t : State) (x : Iss) : Prop where
  passes : Passes s t x
  others : ∀ g, g ≠ x.gid → t.group g = s.group g
  regs : ∀ c l, l < 32 → (t.regs x).x c l = (s.regs x).x c l
  preds : ∀ c l, l < 32 → (t.regs x).pred c l = (s.regs x).pred c l

theorem Steps.ofKept {s t : State} {x : Iss} (h : Kept s t x) : Steps s t x := ⟨h.passes, h.others, h.regs, h.preds⟩

/-- The same once an operation of the group has ended. -/
theorem Queues.endsOp {s u : State} {x : Iss} (queues : Queues s u x) (place : (s.group x.gid).core = x.core ∧ (s.group x.gid).part = x.part)
    (cls : Cls) (n : Nat) (fail : Option Fail) : Steps s ((u.endOp x.gid cls n fail).advance x) x := by
  rw [State.endOp_eq]
  have ended := u.ended_rest cls n fail (u.group x.gid)
  have self := u.setGroup_self x.gid (u.ended cls n fail (u.group x.gid))
  generalize u.ended cls n fail (u.group x.gid) = g at ended self
  have was := queues.group
  have kept := (Queues.refl (u.setGroup x.gid g) x).advance (by rw [self, ended, was]; exact place.1) (by rw [self, ended, was]; exact place.2)
  refine ⟨?_, fun j other => ?_, fun c l hl => ?_, fun c l hl => ?_⟩
  · refine kept.passes.of_same ?_ ?_ ?_
    · rw [self, ended, was]
    · rw [self, ended, was]
    · show (u.part x.core x.part).run = _
      rw [queues.part]
  · rw [kept.others j other, State.setGroup_ne _ other, queues.others j other]
  · refine (kept.regs c l hl).trans (Eq.trans ?_ (queues.regs c l hl))
    apply Regs.x_congr
    · rfl
    · intro _; simp only [State.regs]; rw [self, ended]
    · intro _; simp only [State.regs]; rw [self, ended]
    · intro _; rfl
  · refine (kept.preds c l hl).trans ?_
    apply Regs.pred_congr
    · rfl
    · intro _; simp only [State.regs]; rw [self, ended, was]
    · intro _; simp only [State.regs]; rw [self, ended, was]
    · intro _
      show (u.part x.core x.part).bank = _
      rw [queues.part]
      rfl

/-- Settles O40: the pages take their steps in order, and the operation is counted, and ends at once where no page keeps it waiting. -/
theorem freezesCountTheirPages : Obligations.FreezesCountTheirPages := by
  constructor
  · intro i s x thaw ps ready op va n here aligned some_ few counter range released sound
    obtain ⟨mk, idle, k, effect⟩ := freezeEff_eq aligned some_ few counter range released sound
    have known : effectOf x.ins.op = some (freezeEff thaw) := by rw [op]; cases thaw <;> rfl
    have next := ready.exec_eq known
    rw [effect, Eff.settle] at next
    have queues := s.freezeCounted_queues x thaw here mk
    have issued := s.freezeCounted_issuedOf x thaw here mk
    have dies : (s.freezeCounted x thaw here mk).dies = (s.stepPages thaw here).dies := rfl
    generalize s.freezeCounted x thaw here mk = u at next queues issued dies
    refine ⟨_, next, ?_⟩
    cases idle
    · obtain ⟨passes, others, regs, preds⟩ := Steps.ofKept (queues.advance ready.place.1 ready.place.2)
      exact ⟨(State.advance_mem ..).trans queues.mem, passes, (State.advance_dies ..).trans dies,
        (congrArg (Tbl.getD · 5 0) (State.advance_group_issued ..)).trans issued, others, regs, preds⟩
    · obtain ⟨passes, others, regs, preds⟩ := queues.endsOp ready.place 5 k none
      refine ⟨?_, passes, ?_, ?_, others, regs, preds⟩
      · exact (State.advance_mem ..).trans ((State.endOp_mem ..).trans queues.mem)
      · exact (State.advance_dies ..).trans ((congrArg State.dies (State.endOp_eq ..)).trans dies)
      · refine (congrArg (Tbl.getD · 5 0) (State.advance_group_issued ..)).trans (Eq.trans ?_ issued)
        rw [if_pos rfl, State.endOp_eq, State.setGroup_self, State.ended_rest]
        rfl
  · intro s page own home was
    obtain ⟨sealing, counted, kept⟩ := State.frzStep_dirEnt own home
    obtain ⟨thawed, kept'⟩ := State.thawStep_dirEnt own home
    exact ⟨sealing, counted, thawed, fun p other => ⟨kept p other, kept' p other⟩⟩

/-! FRZQ. -/

/-- What FRZQ answers for an address: the entry of its page here, and a free value for a page of another package (R323; log 3). -/
def State.freezeWord (s : State) (pa : Nat) : Nat :=
  if pkgOf pa = s.pkg then (match s.dirEnt (pageOf pa) with | some e => e.bits | none => 0)
  else s.draw.1 % 2 ^ 6 + s.draw.1 / 2 ^ 12 % 2 ^ 36 * 2 ^ 12

/-- The state in which FRZQ enters its load: a free value has been drawn for a page of another package. -/
def State.freezeDrawn (s : State) (pa : Nat) : State := if pkgOf pa = s.pkg then s else s.draw.2

theorem State.freezeDrawn_queues (s : State) (x : Iss) (pa : Nat) : Queues s (s.freezeDrawn pa) x := by
  unfold State.freezeDrawn
  split
  · exact .refl s x
  · exact .draw s x

theorem State.freezeDrawn_group (s : State) (pa g : Nat) : (s.freezeDrawn pa).group g = s.group g := by
  unfold State.freezeDrawn
  split <;> rfl

/-- FRZQ enters a load that is answered at once (R323). -/
theorem frzqEff_eq {s : State} {x : Iss} {pa : Nat}
    (translates : s.laneAccess x.core (s.group x.gid).ctx (s.group x.gid).step.toNat .read ((s.regs x).xs x.ins.a 2 0) = .ok pa)
    (quiet : s.depsOf x.gid x.active pa 0 false = []) (few : s.loadCount x < 32) :
    frzqEff x s = .done (((s.freezeDrawn pa).newUniLoad x x.ins.d 2 ((s.regs x).xs x.ins.a 2 0) 5).2.returnWords x.gid (s.freezeDrawn pa).nextId
      [(x.ins.d, [BitVec.ofNat 32 (s.freezeWord pa), BitVec.ofNat 32 (s.freezeWord pa / 2 ^ 32)])]) := by
  rw [frzqEff, withLoadRoom_of_lt few]
  dsimp only
  rw [translates]
  dsimp only
  rw [if_neg (by simp [quiet])]
  rfl

/-- Settles O41: the load that FRZQ enters is answered in the same step. -/
theorem freezeQueryReturnsItsEntry : Obligations.FreezeQueryReturnsItsEntry := by
  intro f s x pa ready translates quiet few
  have queues := s.freezeDrawn_queues x pa
  obtain ⟨next, kept⟩ := ready.kept (eff := frzqEff) (by rw [ready.ins_eq rfl]; rfl) (frzqEff_eq translates quiet few)
    ((queues.trans (.newUniLoad ..)).trans (.returnWords ..))
  refine ⟨_, _, next, kept, .answered (l := x.uniLoad (s.freezeDrawn pa).nextId x.ins.d 2 ((s.regs x).xs x.ins.a 2 0) 5) ?_ rfl rfl _,
    rfl, rfl, fun own asks => ?_⟩
  · rw [State.newUniLoad_loads, State.freezeDrawn_group]
  · dsimp only
    unfold State.freezeWord
    rw [if_pos own]
    exact List.filter_eq_self.2 (by simpa using asks)

end Sys2Proof.Machine
end

section
/-! LNCH (R341). -/

namespace Sys2Proof.Machine

/-- LNCH writes its record at the tail of a queue that has room for it, once its release is performed (R341). -/
theorem lnchEff_eq {s : State} {x : Iss} {q : Nat} {pas : List Nat} {bs : List Byte} (queue : ((s.regs x).x x.ins.b 0).toNat = q)
    (aligned : (s.regs x).xs x.ins.a 2 0 % 256 = 0) (low : q ≤ 63) (en : (s.lq q).en = true) (src : (s.lq q).src = true)
    (own : (s.lq q).ctx = (s.group x.gid).ctx) (released : s.releaseDone { x with exec := x.active } 4 = (true, s))
    (room : ((s.lq q).pi + 2 ^ 32 - (s.lq q).ci) % 2 ^ 32 < (s.lq q).size) (read : s.fetchRecord x ((s.regs x).xs x.ins.a 2 0) 4 = .bytes pas bs)
    (sound : (s.linesRead (.lane x.gid x.slot) x.core pas).recordBad (s.group x.gid).ctx (dwordsOf bs) = none)
    (home : (s.linesRead (.lane x.gid x.slot) x.core pas).wbqRoom
      ((s.linesRead (.lane x.gid x.slot) x.core pas).recordPa (s.lq q) (s.lq q).pi) = true) :
    let s1 := s.linesRead (.lane x.gid x.slot) x.core pas
    lnchEff x s = .done ((s1.homeBytes (s1.recordPa (s.lq q) (s.lq q).pi) bs).setLq q { s.lq q with pi := ((s.lq q).pi + 1) % 2 ^ 32 }) := by
  unfold lnchEff
  dsimp only
  rw [queue, if_neg (not_not.2 aligned), if_neg (by simp [low, en, src, own]), released]
  dsimp only
  rw [if_neg (not_le.2 room), read]
  dsimp only
  rw [sound]
  dsimp only
  rw [if_neg (by simp [home])]

/-- Settles O28: nothing that LNCH checks stands against it, and its effect is the record written. -/
theorem launchEntersItsRecord : Obligations.LaunchEntersItsRecord := by
  intro f s x pas bs va q ctx s1 at_ ready aligned low en src own released room read sound home
  have next := ready.exec_of_issue (eff := lnchEff) rfl rfl
  rw [lnchEff_eq rfl aligned low en src own released room read sound home] at next
  exact next

end Sys2Proof.Machine
end

section
/-! PBAR, PFLUSH, STEPCM, STEPAB, STEPTAG and SNAPREQ (R363, R364, R369 to R371, R373). -/

namespace Sys2Proof.Machine

/-- A ready operation that has counted one more of a class goes on with it counted (R173). -/
theorem Ready.counts {i : Instr} {s u : State} {x : Iss} {cls : Nat} (ready : Ready s i x) {w : Words} (words : i.words = some w)
    {eff : Iss → State → Eff} (runs : exec i s = issue (insOfWords w) eff s) (effect : eff x s = .done u) (queues : Queues s u x)
    (counts : Counts s u x cls) : exec i s = .next (u.advance x) ∧ Kept s (u.advance x) x ∧ Counts s (u.advance x) x cls := by
  have next := ready.exec_of_issue words runs
  rw [effect, Eff.settle] at next
  refine ⟨next, queues.advance ready.place.1 ready.place.2, ?_⟩
  unfold Counts Group.counter Group.issuedOf
  rw [State.advance_group_ops, State.advance_group_issued]
  exact counts

section
variable (s : State) (x : Iss)

/-- The release that an operation makes of the lanes that are active (R268). -/
def State.pkgRelease (sco : Nat) : List Nat × State := s.startRelease x.gid x.core x.active sco

/-- An operation counted behind such a release (R173). -/
def State.releasedOp (sco cls : Nat) (mk : EngOp → EngOp) : State := ((s.pkgRelease x sco).2.countOp x.gid cls mk).2

theorem State.pkgRelease_group (sco g : Nat) : (s.pkgRelease x sco).2.group g = s.group g := by
  rw [State.pkgRelease, State.startRelease_rest]
  rfl

theorem State.releasedOp_rest (sco cls : Nat) (mk : EngOp → EngOp) : s.releasedOp x sco cls mk = { s with
    groups := (s.releasedOp x sco cls mk).groups, accs := (s.releasedOp x sco cls mk).accs, nextId := (s.releasedOp x sco cls mk).nextId } := by
  rw [State.releasedOp, State.pkgRelease, State.startRelease_rest]
  rfl

theorem State.releasedOp_queues (sco cls : Nat) (mk : EngOp → EngOp) : Queues s (s.releasedOp x sco cls mk) x :=
  (Queues.startRelease ..).trans (.countOp ..)

theorem State.releasedOp_counts (sco cls : Nat) {mk : EngOp → EngOp} (same : ∀ e, (mk e).cls = e.cls ∧ (mk e).done = e.done) :
    Counts s (s.releasedOp x sco cls mk) x cls := by
  have counts := (s.pkgRelease x sco).2.countOp_counts x.gid cls same
  rw [State.pkgRelease_group] at counts
  exact counts

/-- The persistence operation that an issue queues (R363, R370, R371). -/
def State.psOpOf (kind st sco : Nat) : PsOp :=
  { id := (s.releasedOp x sco 4 id).nextId, kind := kind, gid := x.gid, n := (s.group x.gid).issuedOf 4, s := st
    epoch := (s.group x.gid).issuedOf 0, deps := (s.pkgRelease x sco).1 }

theorem State.releasedOp_group (sco cls : Nat) (mk : EngOp → EngOp) : (s.releasedOp x sco cls mk).group x.gid =
    { s.group x.gid with issued := (s.group x.gid).issued.set cls ((s.group x.gid).issuedOf cls + 1)
                         ops := (s.group x.gid).ops ++ [mk { cls := cls, n := (s.group x.gid).issuedOf cls }] } := by
  rw [State.releasedOp, State.countOp, State.modGroup_self, State.pkgRelease_group]

theorem State.queuePs_eq (kind st sco : Nat) : s.queuePs x kind st sco = (s.releasedOp x sco 4 id).newId.2.modCtx (s.group x.gid).ctx fun c =>
    { c with psq := c.psq ++ [s.psOpOf x kind st sco] } := by
  have group : (s.releasedOp x sco 4 id).newId.2.group x.gid = _ := s.releasedOp_group x sco 4 id
  have epoch : ((s.releasedOp x sco 4 id).newId.2.group x.gid).issuedOf 0 = (s.group x.gid).issuedOf 0 := by
    rw [group]
    exact Tbl.getD_set_ne _ (by decide) ..
  have ctx : ((s.releasedOp x sco 4 id).newId.2.group x.gid).ctx = (s.group x.gid).ctx := by rw [group]
  have n : ((s.pkgRelease x sco).2.countOp x.gid 4 id).1 = (s.group x.gid).issuedOf 4 := congrArg (Group.issuedOf · 4) (s.pkgRelease_group x sco x.gid)
  unfold State.psOpOf
  rw [← epoch, ← ctx, ← n]
  rfl

theorem State.queuePs_queues (kind st sco : Nat) : Queues s (s.queuePs x kind st sco) x := by
  rw [State.queuePs_eq]
  exact ((s.releasedOp_queues x sco 4 id).trans (.newId ..)).trans (.modCtx ..)

theorem State.queuePs_counts (kind st sco : Nat) : Counts s (s.queuePs x kind st sco) x 4 := by
  rw [State.queuePs_eq]
  exact s.releasedOp_counts x sco 4 fun _ => ⟨rfl, rfl⟩

theorem State.queuePs_psq (kind st sco : Nat) : ((s.queuePs x kind st sco).ctx (s.group x.gid).ctx).psq =
    (s.ctx (s.group x.gid).ctx).psq ++ [s.psOpOf x kind st sco] := by
  have same : (s.releasedOp x sco 4 id).newId.2.ctx (s.group x.gid).ctx = s.ctx (s.group x.gid).ctx := by
    rw [State.releasedOp_rest]
    rfl
  rw [State.queuePs_eq, State.modCtx_self, same]

/-- The persistence operation stands last in the queue of its context, and is counted (R363, R370, R371). -/
def QueuesPs (s t : State) (x : Iss) (kind st : Nat) : Prop :=
  Kept s t x ∧ Counts s t x 4 ∧ ∃ p, (t.ctx (s.group x.gid).ctx).psq = (s.ctx (s.group x.gid).ctx).psq ++ [p] ∧ p.kind = kind ∧ p.gid = x.gid ∧
    p.n = (s.group x.gid).issuedOf 4 ∧ p.s = st ∧ p.epoch = (s.group x.gid).issuedOf 0

end

theorem Ready.queuesPs {i : Instr} {s : State} {x : Iss} (ready : Ready s i x) {w : Words} (words : i.words = some w) {eff : Iss → State → Eff}
    {kind st sco : Nat} (runs : exec i s = issue (insOfWords w) eff s) (effect : eff x s = .done (s.queuePs x kind st sco)) :
    ∃ t, exec i s = .next t ∧ QueuesPs s t x kind st := by
  obtain ⟨next, kept, counts⟩ := ready.counts words runs effect (s.queuePs_queues x kind st sco) (s.queuePs_counts x kind st sco)
  exact ⟨_, next, kept, counts, _, by rw [State.advance_ctx, State.queuePs_psq], rfl, rfl, rfl, rfl, rfl⟩

section
variable {s : State} {x : Iss}

theorem pflushEff_eq (counter : s.counterFull x.gid 4 = false) : pflushEff x s = .done (s.queuePs x 0 0 7) :=
  if_neg (by simp [counter])

/-- STEPCM of the committed step or the one after it queues its operation (R370). -/
theorem stepcmEff_eq {v : Nat} (word : ((s.regs x).x x.ins.a 0).toNat = v) (record : (s.ctx (s.group x.gid).ctx).rec_ ≠ 0)
    (step : v = (s.ctx (s.group x.gid).ctx).stepC ∨ v = (s.ctx (s.group x.gid).ctx).stepC + 1) (counter : s.counterFull x.gid 4 = false) :
    stepcmEff x s = .done (s.queuePs x 1 v 7) := by
  unfold stepcmEff
  dsimp only
  rw [word, if_neg (by rw [← not_or] at *; tauto), if_neg (by simp [counter])]

/-- STEPAB of the step after the committed one queues its operation (R371). -/
theorem stepabEff_eq {v : Nat} (word : ((s.regs x).x x.ins.a 0).toNat = v) (record : (s.ctx (s.group x.gid).ctx).rec_ ≠ 0)
    (step : v = (s.ctx (s.group x.gid).ctx).stepC + 1) (counter : s.counterFull x.gid 4 = false) :
    stepabEff x s = .done (s.queuePs x 2 v 4) := by
  unfold stepabEff
  dsimp only
  rw [word, if_neg (by tauto), if_neg (by simp [counter])]

/-- The snapshot that an SNAPREQ enters (R373). -/
def State.snapOf (s : State) (x : Iss) (rgn step dst : Nat) : Snap :=
  { id := (s.releasedOp x 5 4 fun o => { o with snap := true }).nextId, gid := x.gid, n := (s.group x.gid).issuedOf 4, ctx := (s.group x.gid).ctx
    rgn := rgn, step := step, dst := dst, copied := [], deps := (s.pkgRelease x 5).1 }

/-- The snapshot entered at the die of its region, behind its release (R373). -/
def State.enterSnap (s : State) (x : Iss) (die rgn step dst : Nat) : State :=
  (s.releasedOp x 5 4 fun o => { o with snap := true }).newId.2.modDie die fun d => { d with snaps := d.snaps ++ [s.snapOf x rgn step dst] }

theorem State.enterSnap_queues (s : State) (x : Iss) (die rgn step dst : Nat) : Queues s (s.enterSnap x die rgn step dst) x :=
  ((s.releasedOp_queues x 5 4 _).trans (.newId ..)).trans (.modDie ..)

theorem State.enterSnap_counts (s : State) (x : Iss) (die rgn step dst : Nat) : Counts s (s.enterSnap x die rgn step dst) x 4 :=
  s.releasedOp_counts x 5 4 (mk := fun o => { o with snap := true }) fun _ => ⟨rfl, rfl⟩

theorem State.enterSnap_snaps (s : State) (x : Iss) (die rgn step dst : Nat) :
    ((s.enterSnap x die rgn step dst).die die).snaps = (s.die die).snaps ++ [s.snapOf x rgn step dst] := by
  have same : (s.releasedOp x 5 4 fun o => { o with snap := true }).newId.2.die die = s.die die := by
    rw [State.releasedOp_rest]
    rfl
  rw [State.enterSnap, State.modDie_self, same]

/-- SNAPREQ of an enabled region with no snapshot of it under way enters its snapshot (R373). -/
theorem snapreqEff_eq {w : Nat → Nat} (words : ∀ k, ((s.regs x).x (x.ins.a + k) 0).toNat = w k)
    (en : (s.region (s.group x.gid).ctx (w 0 % 16)).en = true) (low : w 0 < 16) (aligned : (w 2 + 2 ^ 32 * w 3) % 64 = 0)
    (single : ((s.die ((homeDie (s.region (s.group x.gid).ctx (w 0 % 16)).pa0).getD 0)).snaps.any fun n =>
      n.ctx == (s.group x.gid).ctx && n.rgn == w 0 % 16) = false)
    (counter : s.counterFull x.gid 4 = false) (step : w 1 = (s.ctx (s.group x.gid).ctx).stepC) :
    snapreqEff x s = .done (s.enterSnap x ((homeDie (s.region (s.group x.gid).ctx (w 0 % 16)).pa0).getD 0) (w 0 % 16) (w 1) (w 2 + 2 ^ 32 * w 3)) := by
  have n : ((s.pkgRelease x 5).2.countOp x.gid 4 fun o => { o with snap := true }).1 = (s.group x.gid).issuedOf 4 :=
    congrArg (Group.issuedOf · 4) (s.pkgRelease_group x 5 x.gid)
  unfold snapreqEff
  dsimp only
  simp only [words]
  rw [if_neg (by simp [en, low]), if_neg (not_not.2 aligned), if_neg (by simp [single, counter]), if_neg (not_not.2 step)]
  unfold State.enterSnap State.snapOf
  rw [← n]
  rfl

end

/-- Settles O42: each of them is one change of the state behind its checks. -/
theorem persistOperationsComplete : Obligations.PersistOperationsComplete := by
  intro f s x g r v c w reg die queued
  refine ⟨fun ready => ?pbar, fun ready counter => ?pflush, fun ready record step counter => ?stepcm, fun ready record step counter => ?stepab,
    fun ready tag => ?steptag, fun ready en low aligned single counter step => ?snapreq⟩
  case pbar => exact ready.exec_of_issue (eff := pbarEff) rfl rfl
  case pflush => exact ready.queuesPs rfl rfl (pflushEff_eq counter)
  case stepcm => exact ready.queuesPs rfl rfl (stepcmEff_eq rfl record step counter)
  case stepab => exact ready.queuesPs rfl rfl (stepabEff_eq rfl record step counter)
  case steptag =>
    obtain ⟨t, next, group, passes, mem, -, others⟩ :=
      ready.sets (eff := steptagEff) (f := fun g => { g with step := r.x x.ins.a 0 }) rfl rfl (if_neg tag) rfl rfl rfl rfl
    exact ⟨t, next, passes, mem, others, group⟩
  case snapreq =>
    obtain ⟨next, kept, counts⟩ := ready.counts (eff := snapreqEff) rfl rfl (snapreqEff_eq (fun _ => rfl) en low aligned single counter step)
      (State.enterSnap_queues ..) (State.enterSnap_counts ..)
    exact ⟨_, next, kept, counts, _, by rw [State.advance_die]; exact State.enterSnap_snaps .., rfl, rfl, rfl, rfl, rfl, rfl, rfl⟩

end Sys2Proof.Machine
end

section
/-! COLL, SIGADD and SIGWAIT (R394 to R402). -/

namespace Sys2Proof.Machine

/-! Lines that an instruction has read. -/

theorem State.linesRead_rest (s : State) (o : Origin) (core : Nat) (pas : List Nat) : s.linesRead o core pas =
    { s with cores := (s.linesRead o core pas).cores, kept := (s.linesRead o core pas).kept, accs := (s.linesRead o core pas).accs } := by
  have lines : pas.foldl (fun s pa => s.dropClean (s.l1Of core) pa) s =
      { s with cores := (pas.foldl (fun s pa => s.dropClean (s.l1Of core) pa) s).cores } := by
    induction pas using List.reverseRecOn with
    | nil => rfl
    | append_singleton pas pa ih =>
      rw [List.foldl_append, List.foldl_cons, List.foldl_nil]
      generalize pas.foldl (fun s pa => s.dropClean (s.l1Of core) pa) s = t at ih ⊢
      rw [ih]
      rfl
  unfold State.linesRead
  rw [lines]
  rfl

theorem Queues.linesRead (s : State) (x : Iss) (o : Origin) (core : Nat) (pas : List Nat) : Queues s (s.linesRead o core pas) x :=
  (Queues.fold x _ (fun _ _ => .setL1 _ x _ _ _) pas s).trans (.outside x rfl rfl rfl)

/-! Collectives. -/

theorem Sends.tellColl (s : State) (c : Coll) (kind off : Nat) : Sends s (s.tellColl c kind off) := .fold (fun s _ => .sendFlit s _) _ s

theorem Sends.queues {s t : State} (h : Sends s t) (x : Iss) : Queues s t x := .outside x (by rw [h]) (by rw [h]) (by rw [h])

theorem State.logRecord_colls (s : State) (c : Nat) (r : FRec) : (s.logRecord c r).colls = s.colls := by
  rcases s.logRecord_eq c r with put | ⟨f, counted, -⟩
  · rw [put, State.putRecord, State.homeBytes, State.homeCells_rest]
    rfl
  · rw [counted]
    rfl

theorem State.endGhost_colls (s : State) (ctx gid : Nat) (cls : Cls) (n : Nat) (fail : Option Fail) :
    (s.endGhost ctx gid cls n fail).colls = s.colls := by
  have records (mk : Fail → EngOp → FRec) (out : List EngOp) (s : State) :
      (out.foldl (fun s o => match o.fail with | some f => s.logRecord ctx (mk f o) | none => s) s).colls = s.colls := by
    induction out generalizing s with
    | nil => rfl
    | cons o out ih =>
      rw [List.foldl_cons, ih]
      split
      · exact State.logRecord_colls ..
      · rfl
  unfold State.endGhost
  split
  · rfl
  · next x0 _ => exact records (fun f o => failRec (x0.workDone cls n fail).word2 (x0.workDone cls n fail).pc (x0.workDone cls n fail).word6 o f) _ _

/-- The end of an operation touches no collective. -/
theorem State.finishOp_colls (s : State) (ctx gid : Nat) (cls : Cls) (n : Nat) (fail : Option Fail) :
    (s.finishOp ctx gid cls n fail).colls = s.colls := by
  unfold State.finishOp
  split
  · rw [State.endOp_eq]
    rfl
  · split
    · rfl
    · exact State.endGhost_colls ..

theorem State.failMembers_colls (s : State) (ms : List Member) (idx : Nat) (f : Fail) : (s.failMembers ms idx f).colls = s.colls := by
  unfold State.failMembers
  induction ms generalizing s with
  | nil => rfl
  | cons m ms ih => exact (ih _).trans (State.finishOp_colls ..)

/-- Of a collective that fails nothing but its failure is kept (R399, R412). -/
theorem State.failColl_colls (s : State) (c : Coll) (idx : Nat) (f : Fail) : (s.failColl c idx f).colls =
    s.colls.map fun x => if x.job = c.job ∧ x.key = c.key ∧ x.seq = c.seq then { x with failed := true, members := [] } else x := by
  unfold State.failColl
  rw [Sends.tellColl]
  exact State.failMembers_colls ..

section
variable {s : State} {c0 c : Coll} {m : Member}

/-- A collective that starts is listed last (R398). -/
def State.startColl (s : State) (c : Coll) : State := { s with colls := s.colls ++ [c] }

theorem Queues.startColl (s : State) (x : Iss) (c : Coll) : Queues s (s.startColl c) x := .outside x rfl rfl rfl

/-- A contribution that finds no collective starts one (R398). -/
theorem State.contribute_of_none (found : (s.colls.find? fun c => c.job == c0.job && c.key == c0.key && c.seq == c0.seq) = none) :
    s.contribute c0 m = (s.startColl { c0 with members := [m] }).tellColl c0 3 m.idx := by
  rw [State.contribute, found]
  rfl

variable (found : (s.colls.find? fun c => c.job == c0.job && c.key == c0.key && c.seq == c0.seq) = some c)
include found

theorem State.contribute_of_failed (failed : c.failed = true) :
    s.contribute c0 m = s.finishOp m.ctx m.gid 3 m.n (some { reason := 2, side := 5, addr := 0 }) := by
  rw [State.contribute, found]
  dsimp only
  rw [if_pos failed, State.failMembers, List.foldl_cons, List.foldl_nil, if_pos rfl]
  rfl

theorem State.contribute_of_agrees (sound : c.failed = false) (fresh : c.has m.idx = false) (agrees : c.agrees c0 = true) : s.contribute c0 m =
    (s.modColl c fun x => { c0 with members := x.members ++ [m], partials := x.partials, ready := x.ready, ended := x.ended }).tellColl c0 3 m.idx := by
  rw [State.contribute, found]
  dsimp only
  rw [if_neg (by simp [sound]), if_neg (by simp [fresh, agrees])]

theorem State.contribute_of_differs (sound : c.failed = false) (bad : c.has m.idx = true ∨ c.agrees c0 = false) : s.contribute c0 m =
    s.failColl { c0 with members := c.members ++ [m], partials := c.partials, ready := c.ready } m.idx otherFail := by
  rw [State.contribute, found]
  dsimp only
  rw [if_neg (by simp [sound]), if_pos (by simpa using bad)]

omit found in
theorem Coll.agrees_iff : c.agrees c0 = true ↔ c.n = c0.n ∧ c.op = c0.op ∧ c.ty = c0.ty ∧ c.rop = c0.rop ∧ c.count = c0.count := by
  simp [Coll.agrees, and_assoc]

omit found in
theorem Coll.has_iff {idx : Nat} : c.has idx = true ↔ (∃ y ∈ c.members, y.idx = idx) ∨ ∃ y ∈ c.ready, y.1 = idx := by
  simp [Coll.has, Coll.told]

/-- One that disagrees, or repeats a member, leaves the collective failed and without members (R399). -/
theorem State.contribute_fails (sound : c.failed = false) (bad : c.has m.idx = true ∨ c.agrees c0 = false) {y : Coll}
    (here : y ∈ (s.contribute c0 m).colls) (job : y.job = c.job) (key : y.key = c.key) (seq : y.seq = c.seq) :
    y.failed = true ∧ y.members = [] := by
  have same : (c.job = c0.job ∧ c.key = c0.key) ∧ c.seq = c0.seq := by simpa using List.find?_some found
  obtain ⟨⟨job', key'⟩, seq'⟩ := same
  rw [State.contribute_of_differs found sound bad, State.failColl_colls, List.mem_map] at here
  obtain ⟨x, -, made⟩ := here
  split at made
  · rw [← made]
    exact ⟨rfl, rfl⟩
  · next differs =>
    rw [made] at differs
    exact absurd ⟨job.trans job', key.trans key', seq.trans seq'⟩ differs

end

/-! COLL. -/

section
variable (s : State) (x : Iss)

/-- A word of the descriptor of a COLL (R396). -/
def State.collWord (k : Nat) : Nat := ((s.regs x).x (x.ins.a + k) 0).toNat

/-- The collective that a COLL names, as yet without members (R396, R398). -/
def State.collNamed (key : Nat) (table : List (Nat × Nat)) : Coll :=
  { job := (s.ctx (s.group x.gid).ctx).pjob, key := key, seq := s.collWord x 2 / 2 ^ 16, op := x.ins.m12 / 1024, ty := x.ins.m12 / 512 % 2
    rop := x.ins.m12 / 256 % 2, count := s.collWord x 3, table := table, members := [], partials := [], n := table.length }

/-- Its lines read and the operation counted behind its release (R173, R397). -/
def State.collCounted (pas : List Nat) : State := (s.linesRead (.lane x.gid x.slot) x.core pas).releasedOp x 5 3 id

/-- What the group contributes (R396). -/
def State.collMember (pas : List Nat) : Member :=
  { idx := s.collWord x 2 % 2 ^ 16, pkg := s.pkg, gid := x.gid, n := (s.group x.gid).issuedOf 3, ctx := (s.group x.gid).ctx
    src := s.collWord x 4 + 2 ^ 32 * s.collWord x 5, dst := s.collWord x 6 + 2 ^ 32 * s.collWord x 7
    deps := ((s.linesRead (.lane x.gid x.slot) x.core pas).pkgRelease x 5).1, data := none }

theorem State.linesRead_group (o : Origin) (core : Nat) (pas : List Nat) (g : Nat) : (s.linesRead o core pas).group g = s.group g := by
  rw [State.linesRead_rest]
  rfl

theorem State.collCounted_queues (pas : List Nat) : Queues s (s.collCounted x pas) x :=
  (Queues.linesRead ..).trans (State.releasedOp_queues ..)

theorem State.collCounted_counts (pas : List Nat) : Counts s (s.collCounted x pas) x 3 := by
  have counts := (s.linesRead (.lane x.gid x.slot) x.core pas).releasedOp_counts x 5 3 (mk := id) fun _ => ⟨rfl, rfl⟩
  unfold Counts at counts
  rw [State.linesRead_group] at counts
  exact counts

theorem State.collCounted_colls (pas : List Nat) : (s.collCounted x pas).colls = s.colls := by
  rw [State.collCounted, State.releasedOp_rest, State.linesRead_rest]

end

/-- COLL whose operands and record pass contributes to the collective that it names (R396 to R398). -/
theorem collEff_eq {s : State} {x : Iss} {w : Nat → Nat} (words : ∀ k, s.collWord x k = w k) {head bs : List Byte} {p0 pas : List Nat} {key : Nat}
    {table : List (Nat × Nat)} (some_ : w 3 ≠ 0) (few : w 3 ≤ 2 ^ 26) (comm : (w 0 + 2 ^ 32 * w 1) % 64 = 0) (src : (w 4 + 2 ^ 32 * w 5) % 4 = 0)
    (dst : (w 6 + 2 ^ 32 * w 7) % 4 = 0) (first : s.fetchRecord x (w 0 + 2 ^ 32 * w 1) 1 = .bytes p0 head) (members : wordAt head 0 ≠ 0)
    (bound : wordAt head 0 ≤ 65536) (whole : s.fetchRecord x (w 0 + 2 ^ 32 * w 1) (1 + (4 * wordAt head 0 + 63) / 64) = .bytes pas bs)
    (record : commRecord bs s.pkg (w 2 % 2 ^ 16) = some (key, table)) (counter : s.counterFull x.gid 3 = false) :
    collEff x s = .done ((s.collCounted x pas).contribute (s.collNamed x key table) (s.collMember x pas)) := by
  have n : (((s.linesRead (.lane x.gid x.slot) x.core pas).pkgRelease x 5).2.countOp x.gid 3 id).1 = (s.group x.gid).issuedOf 3 :=
    congrArg (Group.issuedOf · 3) ((State.pkgRelease_group ..).trans (State.linesRead_group ..))
  have regs (k : Nat) : ((s.regs x).x (x.ins.a + k) 0).toNat = w k := words k
  unfold collEff
  dsimp only
  simp only [regs]
  rw [if_neg (by omega)]
  have aligned : (([w 0 + 2 ^ 32 * w 1, w 4 + 2 ^ 32 * w 5, w 6 + 2 ^ 32 * w 7].mapIdx fun k a => (k, a)).find? fun x =>
      if x.1 = 0 then x.2 % 64 != 0 else x.2 % 4 != 0) = none := by
    simp
    omega
  rw [aligned]
  dsimp only
  rw [first]
  dsimp only
  rw [if_neg (by omega), whole]
  dsimp only
  rw [record]
  dsimp only
  rw [if_neg (by simp [counter])]
  unfold State.collMember State.collNamed
  simp only [words]
  rw [← n]
  rfl

/-- Settles O43: COLL contributes, and what comes of a contribution is one of the branches of `State.contribute`. -/
theorem collectivesTakeTheirContributions : Obligations.CollectivesTakeTheirContributions := by
  constructor
  · intro f s x head bs p0 pas key table g w comm src dst n seq new ready some_ few comm64 src4 dst4 first members bound whole record counter none_
    have effect := collEff_eq (fun _ => rfl) some_ few comm64 src4 dst4 first members bound whole record counter
    have found : ((s.collCounted x pas).colls.find? fun c => c.job == (s.collNamed x key table).job && c.key == (s.collNamed x key table).key &&
        c.seq == (s.collNamed x key table).seq) = none := by
      rw [State.collCounted_colls]
      exact none_
    rw [State.contribute_of_none found] at effect
    have tells := Sends.tellColl ((s.collCounted x pas).startColl { s.collNamed x key table with members := [s.collMember x pas] }) (s.collNamed x key table) 3 (s.collMember x pas).idx
    generalize State.tellColl _ _ _ _ = u at effect tells
    obtain ⟨next, kept, counts⟩ := ready.counts (eff := collEff) rfl rfl effect
      (((s.collCounted_queues x pas).trans (.startColl ..)).trans (tells.queues x))
      (by rw [tells]; exact s.collCounted_counts x pas)
    refine ⟨_, s.collMember x pas, next, kept, counts, ?_, rfl, rfl, rfl, rfl, rfl, rfl⟩
    rw [State.advance_colls, tells]
    exact congrArg (· ++ _) (s.collCounted_colls x pas)
  · intro s c0 c m found same join
    refine ⟨fun failed => State.contribute_of_failed found failed, fun sound agrees fresh told => ?_, fun sound bad y here job key seq => ?_⟩
    · have absent : c.has m.idx = false := by
        rw [← Bool.not_eq_true, Coll.has_iff]
        rintro (⟨y, mem, eq⟩ | ⟨y, mem, eq⟩)
        · exact fresh y mem eq
        · exact told y mem eq
      exact State.contribute_of_agrees found sound absent (Coll.agrees_iff.2 agrees)
    · refine State.contribute_fails found sound ?_ here job key seq
      rcases bad with differs | repeats
      · exact .inr (Bool.not_eq_true _ ▸ mt Coll.agrees_iff.1 differs)
      · exact .inl (Coll.has_iff.2 repeats)

/-! SIGADD and SIGWAIT. -/

section
variable {s : State} {x : Iss}

/-- The addition that a SIGADD has under way (R400, R401). -/
def State.sigAddOf (s : State) (x : Iss) (pa : Nat) : SigAdd :=
  { id := (s.releasedOp x 5 3 fun o => o).nextId, gid := x.gid, n := (s.group x.gid).issuedOf 3, ctx := (s.group x.gid).ctx
    va := BitVec.ofNat 64 ((s.regs x).xs x.ins.a 2 0), pa := pa, val := (s.regs x).xs x.ins.b 2 0, step := (s.group x.gid).step.toNat
    deps := (s.pkgRelease x 5).1, core := x.core, epoch := (s.group x.gid).epoch }

/-- An addition under way is listed last. -/
def State.startSig (s : State) (m : SigAdd) : State := { s with sigs := s.sigs ++ [m] }

theorem Queues.startSig (s : State) (x : Iss) (m : SigAdd) : Queues s (s.startSig m) x := .outside x rfl rfl rfl

/-- A SIGADD of a word that translates starts its addition behind a release (R400, R401). -/
theorem sigaddEff_eq {pa : Nat} (aligned : (s.regs x).xs x.ins.a 2 0 % 8 = 0)
    (translates : s.laneAccess x.core (s.group x.gid).ctx (s.group x.gid).step.toNat .atomic ((s.regs x).xs x.ins.a 2 0) = .ok pa)
    (counter : s.counterFull x.gid 3 = false) : sigaddEff x s = .done ((s.releasedOp x 5 3 fun o => o).newId.2.startSig (s.sigAddOf x pa)) := by
  have n : ((s.pkgRelease x 5).2.countOp x.gid 3 fun o => o).1 = (s.group x.gid).issuedOf 3 :=
    congrArg (Group.issuedOf · 3) (s.pkgRelease_group x 5 x.gid)
  unfold sigaddEff
  dsimp only
  rw [if_neg (not_not.2 aligned), translates]
  dsimp only
  rw [if_neg (by simp [counter])]
  unfold State.sigAddOf
  rw [← n]
  rfl

/-- The lines that a SIGWAIT has read and drops (R402). -/
def State.sigLines (s : State) (x : Iss) : List Nat :=
  match s.lineAddrs x ((s.regs x).xs x.ins.a 2 0) 1 with | .ok l => l | .error _ => []

/-- What a SIGWAIT whose word has reached its value leaves before it returns it: its line read and an acquire (R400, R402). -/
def State.sigAcquired (s : State) (x : Iss) : State := (s.linesRead (.lane x.gid x.slot) x.core (s.sigLines x)).acquire x.core 5 1

theorem sigwaitEff_eq {v : Nat} (room : x.ins.d ≠ 288 → s.loadCount x < 32) (reached : s.sigTest x = .value v) : sigwaitEff x s = .done
    (if x.ins.d = 288 then s.sigAcquired x else ((s.sigAcquired x).newUniLoad x x.ins.d 2 0 5).2.returnWords x.gid (s.sigAcquired x).nextId
      [(x.ins.d, [BitVec.ofNat 32 v, BitVec.ofNat 32 (v / 2 ^ 32)])]) := by
  have issues : sigwaitEff x s = sigwaitIssue x s := by
    unfold sigwaitEff
    split_ifs with silent
    · rfl
    · exact withLoadRoom_of_lt (room silent) _
  rw [issues, sigwaitIssue, reached]
  dsimp only
  split_ifs <;> rfl

theorem State.sigAcquired_queues (s : State) (x : Iss) : Queues s (s.sigAcquired x) x := (Queues.linesRead ..).trans (.acquire ..)

theorem State.sigAcquired_group (s : State) (x : Iss) (g : Nat) : (s.sigAcquired x).group g = s.group g := by
  rw [State.sigAcquired, State.acquire_group, State.linesRead_group]

end

/-- Settles O44: SIGADD counts its addition and has it under way; SIGWAIT answers the load it enters. -/
theorem signalsComplete : Obligations.SignalsComplete := by
  intro f s x pa v r g va
  refine ⟨fun ready aligned translates counter => ?add, fun ready room reached => ?wait⟩
  case add =>
    have sigs : (s.releasedOp x 5 3 fun o => o).sigs = s.sigs := by rw [State.releasedOp_rest]
    obtain ⟨next, kept, counts⟩ := ready.counts (eff := sigaddEff) rfl rfl (sigaddEff_eq aligned translates counter)
      (((s.releasedOp_queues x 5 3 _).trans (.newId ..)).trans (.startSig ..)) (s.releasedOp_counts x 5 3 fun _ => ⟨rfl, rfl⟩)
    refine ⟨_, s.sigAddOf x pa, next, kept, counts, ?_, rfl, rfl, rfl, rfl, rfl, rfl⟩
    rw [State.advance_sigs]
    exact congrArg (· ++ _) sigs
  case wait =>
    have effect := sigwaitEff_eq room reached
    have known : effectOf x.ins.op = some sigwaitEff := by rw [ready.ins_eq rfl]; rfl
    have queues := s.sigAcquired_queues x
    by_cases silent : x.ins.d = 288
    · rw [if_pos silent] at effect
      obtain ⟨next, kept⟩ := ready.kept known effect queues
      exact ⟨_, next, kept, fun asks => absurd silent asks⟩
    · rw [if_neg silent] at effect
      obtain ⟨next, kept⟩ := ready.kept known effect ((queues.trans (.newUniLoad ..)).trans (.returnWords ..))
      refine ⟨_, next, kept, fun _ => ⟨_, .answered (l := x.uniLoad (s.sigAcquired x).nextId x.ins.d 2 0 5) ?_ rfl rfl _, rfl, rfl, ?_⟩⟩
      · rw [State.newUniLoad_loads, State.sigAcquired_group]
      · exact List.filter_eq_self.2 (by simpa using silent)

end Sys2Proof.Machine
end

section
/-! The events of write-back queues, steps, snapshots and freezing (R321, R322, R357, R358, R363, R365, R366, R370 to R373). -/

namespace Sys2Proof.Machine

section Events

variable {s t : State} {ctx n r page die : Nat} {v : Dword}

/-! Write-back queues and PFLUSH. -/

theorem exec_wbqEntry {a : Access} (found : (s.accs.find? fun a => a.id == n && a.waiting) = some a) (performed : s.performNow a = some t) :
    exec (.wbqEntry n) s = .next t := by
  change execWbqEntry n s = _
  rw [execWbqEntry, found, Option.bind_some, performed]

/-- The oldest entry of a queue reaches SCM (R358). -/
theorem exec_wbqDrain {e : List Host.Cell} {es : List (List Host.Cell)} (queue : (s.die die).wbq = e :: es) : exec (.wbqDrain die) s =
    .next (s.setDie die { s.die die with wbq := es, scm := e.foldl (fun m c => Mem.write m c.1 c.2) (s.die die).scm }) := by
  have drained : (s.die die).drain = { s.die die with wbq := es, scm := e.foldl (fun m c => Mem.write m c.1 c.2) (s.die die).scm } := by
    rw [Die.drain, queue]
  change execWbqDrain die s = _
  rw [← drained]
  exact event_of (by simp [queue])

theorem exec_pflushComplete {p : PsOp} (found : s.psOp n = some (ctx, p)) (kind : p.kind = 0) (ready : s.psReady p = true) :
    exec (.pflushComplete n) s = .next (s.endPs ctx p) := by
  change execPflushComplete n s = _
  rw [execPflushComplete, found]
  exact event_of (by simp [kind, ready])

/-! Step operations. -/

section Steps
variable {p : PsOp} (head : (s.ctx ctx).stepHead = some p)
include head

theorem exec_stepcmOperation (commits : s.commitStep ctx p = some t) : exec (.stepcmOperation ctx) s = .next t := by
  change execStepcmOperation ctx s = _
  rw [execStepcmOperation, head, Option.bind_some, commits]

theorem exec_stepabOperation (aborts : s.abortStep ctx p = some t) : exec (.stepabOperation ctx) s = .next t := by
  change execStepabOperation ctx s = _
  rw [execStepabOperation, head, Option.bind_some, aborts]

omit head

/-- A commit of a step that is committed already ends at once (R370). -/
theorem State.commitStep_of_committed (kind : p.kind = 1) (ready : s.psReady p = true) (done : p.s ≤ (s.ctx ctx).stepC) :
    s.commitStep ctx p = some (s.endPs ctx p) := by
  rw [State.commitStep, if_neg (by simp [kind, ready]), if_pos done]

/-- A commit writes the step record, and C follows (R370). -/
theorem State.commitStep_of_written {u : State} (kind : p.kind = 1) (ready : s.psReady p = true) (ahead : (s.ctx ctx).stepC < p.s)
    (written : s.writeRec ctx p.s = some u) : s.commitStep ctx p = some ((u.setStep ctx p.s).endPs ctx p) := by
  rw [State.commitStep, if_neg (by simp [kind, ready]), if_neg (not_le.2 ahead), written]
  rfl

/-- An abort ends where its step is committed, or every line has been swept (R371). -/
theorem State.abortStep_of_swept (kind : p.kind = 2) (ready : s.psReady p = true) (done : p.s ≤ (s.ctx ctx).stepC ∨ s.sweepAt ctx p.stage = none) :
    s.abortStep ctx p = some (s.endPs ctx p) := by
  rw [State.abortStep, if_neg (by simp [kind, ready])]
  split
  · rfl
  · next ahead => rw [done.resolve_left ahead]

end Steps

/-! Snapshots. -/

section Snapshots
variable {x : Snap}

theorem exec_snapshotLine (found : ((s.die die).snaps.find? fun n => !n.paused && !n.deps.any s.pendingId) = some x)
    (steps : s.snapStep die x = some t) : exec (.snapshotLine die) s = .next t := by
  change execSnapshotLine die s = _
  rw [execSnapshotLine, found, Option.bind_some, steps]

theorem State.snapStep_of_done (done : s.snapLine x = none) : s.snapStep die x = some (s.endSnap die x none) := by
  rw [State.snapStep, done]

/-- A snapshot line of this package whose home has room is written there (R373). -/
theorem State.snapPut_here {va pa : Nat} {bs : List Byte} (own : pkgOf pa = s.pkg) (plain : s.erasure.en = true → s.erasure.inData pa = false)
    (room : s.wbqRoom pa = true) : s.snapPut die x va pa bs = some ([], s.homeBytes pa bs) := by
  rw [State.snapPut, if_neg (not_not.2 own), if_neg (by simpa using plain), if_pos room]

/-- A line whose destination is written at once is copied, and the last one ends its snapshot (R373). -/
theorem State.snapStep_of_put {l pa : Nat} {u : State} (line : s.snapLine x = some l)
    (still : s.sweeping (s.versionPa x.ctx x.rgn l false) = false)
    (sound : s.anyBad [(s.region x.ctx x.rgn).tags + 8 * l,
      s.versionPa x.ctx x.rgn l (pickVersion (s.tags x.ctx x.rgn l).1 (s.tags x.ctx x.rgn l).2 x.step)] = false)
    (dest : s.snapDest die x (x.dst + 64 * l) = .ok pa)
    (put : s.snapPut die x (x.dst + 64 * l) pa
      (s.bytes (s.versionPa x.ctx x.rgn l (pickVersion (s.tags x.ctx x.rgn l).1 (s.tags x.ctx x.rgn l).2 x.step)) 64) = some ([], u)) :
    let x1 : Snap := { x with copied := x.copied ++ [l], deps := [] }
    s.snapStep die x = some (if u.snapLine x1 = none then u.endSnap die x none else u.modSnap die x.id fun _ => x1) := by
  rw [State.snapStep, line]
  dsimp only
  rw [if_neg (by simp [still]), if_neg (by simp [sound]), dest]
  dsimp only
  rw [put]
  simp [Option.isNone_iff_eq_none]

end Snapshots

/-! Step records and stepped regions. -/

theorem exec_steprecWrite (on : s.on = true) (low : ctx < 64) : exec (.steprecWrite ctx v) s =
    .next (let masked := v &&& 0x003FFFFFFFFFFFC0
      if ((s.ctx ctx).regions.any (·.en)) = true then s
      else if masked = 0 then s.modCtx ctx fun c => { c with stepRec := masked }
      else (s.modCtx ctx fun c => { c with stepRec := masked }).setStep ctx (s.word (s.pkg * 2 ^ 42 + masked.toNat % 2 ^ 42) 4)) := by
  change execSteprecWrite ctx v s = _
  exact event_of (by simp [on, low])

theorem exec_regionEnable (on : s.on = true) (low : ctx < 64) (few : r < 16) (en : v.getLsbD 31 = true) : let off : Region := { s.region ctx r with ctl := v &&& 0x7FFFFF }
    exec (.regionEnable ctx r v) s = .next (
      if (s.region ctx r).en = true then s
      else s.setRegion ctx r (if s.regionBad ctx off = true then off else { off with ctl := off.ctl ||| 0xC0000000 })) := by
  intro off
  rw [apply_ite (s.setRegion ctx r)]
  change execRegionEnable ctx r v s = _
  exact event_of (by simp [on, low, few, en])

theorem State.setRegion_region (s : State) (ctx r : Nat) (x : Region) :
    (s.setRegion ctx r x).region ctx r = if r < (s.ctx ctx).regions.length then x else s.region ctx r := by
  unfold State.setRegion State.region
  rw [State.modCtx_self]
  dsimp only
  rw [List.getD_eq_getElem?_getD, List.getElem?_set_self']
  split
  · next listed => simp [listed]
  · next absent => simp [absent]

/-- An enable sweep makes every tag above C absent in one step, and the region sweeps no longer (R372; log 36). -/
theorem exec_enableSweepEnd (en : (s.region ctx r).en = true) (sweeps : (s.region ctx r).ctl.getLsbD 30 = true)
    (empty : (s.die ((homeDie (s.region ctx r).tags).getD 0)).wbq = []) :
    let reg := s.region ctx r
    let cells := s.sweepCells ctx r fun k => decide (k > (s.ctx ctx).stepC)
    exec (.enableSweepEnd ctx r) s = .next (((({ s with mem := cells.foldl (fun m c => Mem.write m c.1 c.2) s.mem } : State).modDie
      ((homeDie reg.tags).getD 0) fun x => { x with scm := cells.foldl (fun m c => Mem.write m c.1 c.2) x.scm })).setRegion ctx r
        { reg with ctl := reg.ctl &&& ~~~(0x40000000 : Dword) }) := by
  change execEnableSweepEnd ctx r s = _
  exact event_of (by simp [en, sweeps, empty])

/-! Freezing, die by die. -/

section Dies
variable (low : die < 4)
include low

theorem exec_freezeNotice (tells : s.tellDie die page = some t) : exec (.freezeNotice die page) s = .next t := by
  change execFreezeNotice die page s = _
  rw [execFreezeNotice, if_pos low, tells]

theorem exec_freezeAck (acks : s.ackDie die page = some t) : exec (.freezeAck die page) s = .next t := by
  change execFreezeAck die page s = _
  rw [execFreezeAck, if_pos low, acks]

theorem exec_gather (gathers : s.gatherDie die page = some t) : exec (.gather die page) s = .next t := by
  change execGather die page s = _
  rw [execGather, if_pos low, gathers]

end Dies

section Listed
variable {e : DirEnt} (listed : s.dirEnt page = some e)
include listed

/-- A die that a sealing page waits for takes the page into its filter (R321). -/
theorem State.tellDie_of_listed (sealing : e.state = .sealing) (awaited : die ∈ e.await) (untold : die ∉ e.told) :
    s.tellDie die page = some ((s.addFilter die page).setDir page (some { e with told := e.told ++ [die] })) := by
  rw [State.tellDie, listed]
  exact if_pos ⟨sealing, by simpa using awaited, by simpa using untold⟩

/-- A die that is quiet for a sealing page answers for it (R321). -/
theorem State.ackDie_of_listed (quiet : s.quiet die page = true) (sealing : e.state = .sealing) (awaited : die ∈ e.await) (told : die ∈ e.told) :
    s.ackDie die page = some (s.setDir page (some { e with await := e.await.filter (· != die) })) := by
  rw [State.ackDie, if_neg (by simp [quiet]), listed]
  exact if_pos ⟨sealing, by simpa using awaited, by simpa using told⟩

/-- A die that a thawing page waits for drops its frozen copies (R322). -/
theorem State.gatherDie_of_listed (thawing : e.state = .thawing) (awaited : die ∈ e.await) :
    s.gatherDie die page = some ((s.dropFrozen die page).setDir page (some { e with await := e.await.filter (· != die) })) := by
  rw [State.gatherDie, listed]
  exact if_pos ⟨thawing, by simpa using awaited⟩

variable (own : page / 2 ^ 25 = s.pkg) (answered : e.await = [])
include own answered

/-- Sealing ends: the page is SEALED, or gathered at once where its count has fallen to 0 (R321; log 121). -/
theorem exec_sealingEnd (sealing : e.state = .sealing) (none_ : s.heldWrites page = false) : exec (.sealingEnd page) s = .next (s.sealEnd page e) := by
  change execSealingEnd page s = _
  rw [execSealingEnd, if_neg (not_not.2 own), listed]
  exact event_of (by simp [sealing, answered, none_])

/-- Gathering ends: the page is OPEN, or SEALED again where it has been frozen meanwhile (R322). -/
theorem exec_gatherEnd (thawing : e.state = .thawing) : exec (.gatherEnd page) s = .next (s.thawEnd page e) := by
  change execGatherEnd page s = _
  rw [execGatherEnd, if_neg (not_not.2 own), listed]
  exact event_of (by simp [thawing, answered])

end Listed

section Notices
variable {m : Notice} (open_ : s.dirEnt page = none)
include open_

theorem State.tellDie_of_notice (notice : s.noticeOf page false = some m) (due : die ∈ m.todo) : s.tellDie die page =
    some ((s.addFilter die page).setNotice { m with todo := m.todo.filter (· != die), wait := m.wait ++ [die] }) := by
  rw [State.tellDie, open_]
  dsimp only
  rw [notice]
  exact if_pos (by simpa using due)

theorem State.ackDie_of_notice (quiet : s.quiet die page = true) (notice : s.noticeOf page false = some m) (waits : die ∈ m.wait) :
    s.ackDie die page = some (s.setNotice { m with wait := m.wait.filter (· != die) }) := by
  rw [State.ackDie, if_neg (by simp [quiet]), open_]
  dsimp only
  rw [notice]
  exact if_pos (by simpa using waits)

theorem State.gatherDie_of_notice (notice : s.noticeOf page true = some m) (due : die ∈ m.todo) :
    s.gatherDie die page = some ((s.dropFrozen die page).setNotice { m with todo := m.todo.filter (· != die) }) := by
  rw [State.gatherDie, open_]
  dsimp only
  rw [notice]
  exact if_pos (by simpa using due)

end Notices

/-! Pages of another package. -/

section Away
variable (away : page / 2 ^ 25 ≠ s.pkg) (reached : s.reachable (page / 2 ^ 25) = true)
include away reached

theorem exec_sealingEnd_away (awaited : s.pageAwaited page false = true) : exec (.sealingEnd page) s = .next (s.pageDone page false []) := by
  change execSealingEnd page s = _
  rw [execSealingEnd, if_pos away]
  exact event_of (by rw [awaited, reached]; rfl)

theorem exec_gatherEnd_away (awaited : s.pageAwaited page true = true) : exec (.gatherEnd page) s = .next (s.pageDone page true []) := by
  change execGatherEnd page s = _
  rw [execGatherEnd, if_pos away]
  exact event_of (by rw [awaited, reached]; rfl)

end Away

end Events

/-- Settles O48: each event by the lemma about it, and by what its part of the state comes to. -/
theorem persistAndFreezeEventsComplete : Obligations.PersistAndFreezeEventsComplete := by
  unfold Obligations.PersistAndFreezeEventsComplete
  intro s t ctx n r page die v c reg off masked
  refine ⟨fun a found performed => exec_wbqEntry found performed, fun e es queue => exec_wbqDrain queue,
    fun p found kind ready => exec_pflushComplete found kind ready,
    fun p head kind ready done => exec_stepcmOperation head (State.commitStep_of_committed kind ready done),
    fun p s1 head kind ready ahead written => exec_stepcmOperation head (State.commitStep_of_written kind ready ahead written),
    fun p head aborts => exec_stepabOperation head aborts,
    fun p head kind ready done => exec_stepabOperation head (State.abortStep_of_swept kind ready done),
    fun x found steps => exec_snapshotLine found steps, ?snapshot, fun on low => exec_steprecWrite on low,
    fun on low few en => exec_regionEnable on low few en, ?sweep,
    fun low tells => exec_freezeNotice low tells,
    fun e low listed sealing awaited untold => exec_freezeNotice low (State.tellDie_of_listed listed sealing awaited untold),
    fun m low open_ notice due => exec_freezeNotice low (State.tellDie_of_notice open_ notice due),
    fun low acks => exec_freezeAck low acks,
    fun e low quiet listed sealing awaited told => exec_freezeAck low (State.ackDie_of_listed listed quiet sealing awaited told),
    fun m low quiet open_ notice waits => exec_freezeAck low (State.ackDie_of_notice open_ quiet notice waits),
    fun e own listed sealing answered none_ => exec_sealingEnd listed own answered sealing none_,
    fun away awaited reached => exec_sealingEnd_away away reached awaited,
    fun low gathers => exec_gather low gathers,
    fun e low listed thawing awaited => exec_gather low (State.gatherDie_of_listed listed thawing awaited),
    fun m low open_ notice due => exec_gather low (State.gatherDie_of_notice open_ notice due),
    fun e own listed thawing answered => exec_gatherEnd listed own answered thawing,
    fun away awaited reached => exec_gatherEnd_away away reached awaited⟩
  case snapshot =>
    intro x found
    refine ⟨fun done => exec_snapshotLine found (State.snapStep_of_done done), ?_⟩
    intro l pa line tags src x1 s1 still sound dest own plain room
    exact exec_snapshotLine found (State.snapStep_of_put line still sound dest (State.snapPut_here own plain room))
  case sweep =>
    intro en sweeps empty
    refine ⟨_, exec_enableSweepEnd en sweeps empty, State.setRegion_region .., ?_⟩
    rw [State.setRegion_mem, State.modDie_mem]

end Sys2Proof.Machine
end

section
/-! The flits and the events of the fabric (R386 to R394, R399, R404, R405, R408, R409). -/

namespace Sys2Proof.Machine

section Fabric

variable {s s1 t : State} {port ty : Nat} {f : Flit} {i : Instr} {name : String} {act : State → Option State}

/-! A flit received: seen already, or in turn (R388). -/

/-- The NULL that a flit asks for when nothing has left on its port since (R388). -/
def State.acked (s : State) (port : Nat) (f : Flit) (t : State) : State := t.ackBack port f (s.ports.getD port {}).seqOut

/-- The state in which a flit in turn is acted on: its acknowledgement counts, and the port waits for the next (R388). -/
def State.heard (s : State) (port : Nat) (f : Flit) : State := (s.ackTo port f.ack).modPort port fun p => { p with seqIn := p.seqIn + 1 }

/-- A flit of a type arrives in turn on a port that is up. -/
def State.InTurn (s : State) (port : Nat) (f : Flit) (ty : Nat) : Prop :=
  s.on = true ∧ (s.ports.getD port {}).up = true ∧ f.dpkg = s.pkg ∧ f.type = ty ∧ f.rsv = 0 ∧ f.seq = (s.ports.getD port {}).seqIn % 2 ^ 16

theorem State.accept_heard (turn : s.InTurn port f ty) : s.accept port f = some (true, s.heard port f) := by
  obtain ⟨on, up, here, -, -, seq⟩ := turn
  rw [State.accept, if_neg (by rw [on, up, here]; simp), if_pos seq]
  rfl

theorem State.receive_seen (type : f.type = ty) (rsv : f.rsv = 0) (seen : s.accept port f = some (false, t)) :
    s.receive ty port f act = some (s.acked port f t) := by
  rw [State.receive, if_neg (by simp [type, rsv]), seen]
  rfl

theorem State.receive_fresh (type : f.type = ty) (rsv : f.rsv = 0) (fresh : s.accept port f = some (true, s1)) (acted : act s1 = some t) :
    s.receive ty port f act = some (s.acked port f t) := by
  rw [State.receive, if_neg (by simp [type, rsv]), fresh]
  dsimp only
  rw [acted]
  rfl

/-- A row whose step is possible. -/
theorem maybe_of {o : Option State} (h : o = some t) : maybe name o = .next t := by rw [h]; rfl

/-- What is received of a type: one seen already is discarded, a new one acted on (R388). -/
theorem receives (row : exec i s = maybe name (s.receive ty port f act)) (type : f.type = ty) (rsv : f.rsv = 0) :
    (s.accept port f = some (false, t) → exec i s = .next (s.acked port f t)) ∧
    ∀ s1, s.accept port f = some (true, s1) → act s1 = some t → exec i s = .next (s.acked port f t) := by
  rw [row]
  exact ⟨fun seen => maybe_of (State.receive_seen type rsv seen), fun s1 fresh acted => maybe_of (State.receive_fresh type rsv fresh acted)⟩

theorem takes_inTurn (row : exec i s = maybe name (s.receive ty port f act)) (turn : s.InTurn port f ty) (acted : act (s.heard port f) = some t) :
    exec i s = .next (s.acked port f t) :=
  have heard := State.accept_heard turn
  have ⟨_, _, _, type, rsv, _⟩ := turn
  (receives row type rsv).2 _ heard acted

/-! The rows of the types. -/

theorem exec_nullFlit : exec (.nullFlit port f) s = maybe "NULL" (s.receive 0 port f some) := rfl
theorem exec_rdFlit : exec (.rdFlit port f) s = maybe "RD" (s.receive 1 port f (·.serveRd f)) := rfl

theorem exec_rddFlit : exec (.rddFlit port f) s =
    maybe "RDD" (s.receive 2 port f fun s => some (if f.payload.length = 64 ∨ flitCause f ≠ 0 then s.takeRdd f else s)) := by
  simp only [apply_ite some]
  rfl

theorem exec_wrFlit : exec (.wrFlit port f) s = maybe "WR" (s.receive 3 port f (·.serveWr f)) := rfl
theorem exec_wackFlit : exec (.wackFlit port f) s = maybe "WACK" (s.receive 4 port f fun s => some (s.takeWack f)) := rfl
theorem exec_atFlit : exec (.atFlit port f) s = maybe "AT" (s.receive 5 port f (·.whole f State.serveAt)) := rfl
theorem exec_atdFlit : exec (.atdFlit port f) s = maybe "ATD" (s.receive 6 port f (·.whole f fun s f => some (s.takeAtd f))) := rfl
theorem exec_rdoFlit : exec (.rdoFlit port f) s = maybe "RDO" (s.receive 7 port f (·.serveRdo f)) := rfl

theorem exec_frznFlit : exec (.frznFlit port f) s = maybe "FRZN" (s.receive 8 port f fun s => some { s with notices := s.notices ++
    [{ page := pageOf f.paddr, gather := f.aux.getLsbD 0, home := f.spkg, todo := [0, 1, 2, 3], wait := [] }] }) := rfl

theorem exec_fackFlit : exec (.fackFlit port f) s = maybe "FACK" (s.receive 9 port f fun s => some (s.takeFack f)) := rfl
theorem exec_coldFlit : exec (.coldFlit port f) s = maybe "COLD" (s.receive 10 port f fun s => some (s.takeCold f)) := rfl
theorem exec_barmFlit : exec (.barmFlit port f) s = maybe "BARM" (s.receive 11 port f fun s => some (s.takeBarm f)) := rfl

/-- What STR asks for, by its AUX (R408, R409). -/
def State.serveStr (s : State) (f : Flit) : Option State :=
  if f.aux = 0 then s.applyDelta f else if f.aux = 1 then some (s.sendUnit f)
  else if f.aux = 2 then some (s.takeUnit f) else some (if s.erasure.awaits f then s.dropRebuild else s)

theorem exec_strFlit : exec (.strFlit port f) s = maybe "STR" (s.receive 12 port f (·.serveStr f)) := by
  refine congrArg (fun act => maybe "STR" (s.receive 12 port f act)) (funext fun s => ?_)
  have zero : f.aux = 0 ↔ f.aux.toNat = 0 := by bv_omega
  have one : f.aux = 1 ↔ f.aux.toNat = 1 := by bv_omega
  have two : f.aux = 2 ↔ f.aux.toNat = 2 := by bv_omega
  simp only [State.serveStr, zero, one, two]
  split
  next h => rw [if_pos h]
  next h => rw [h]; rfl
  next h => rw [h]; rfl
  next h0 h1 h2 => rw [if_neg h0, if_neg h1, if_neg h2]

theorem exec_bulkFlit : exec (.bulkFlit port f) s = maybe "BULK" (s.receive 13 port f (·.whole f State.serveBulk)) := rfl

theorem exec_badFlit {new : Bool} (bad : 14 ≤ f.type ∨ f.rsv ≠ 0) (taken : s.accept port f = some (new, s1)) :
    exec (.badFlit port f) s = .next (if new then s1.modPort port fun p => { p with bad := min 255 (p.bad + 1) } else s1) := by
  change execBadFlit port f s = _
  rw [execBadFlit, if_neg (by omega), taken]
  rfl

/-! Messages of several flits (R386, R387). -/

/-- Whether a flit is part of the message that another ends. -/
def flitPartOf (f g : Flit) : Bool := g.spkg == f.spkg && g.type == f.type && g.tag == f.tag && g.sdie == f.sdie

/-- The message that a flit ends, with what came of it before. -/
def State.joined (s : State) (f : Flit) : Flit := { f with payload := (s.parts.filter (flitPartOf f)).flatMap (·.payload) ++ f.payload }

/-- The parts of a message leave when it is whole. -/
def State.joinDone (s : State) (f : Flit) : State := { s with parts := s.parts.filter fun g => !flitPartOf f g }

theorem State.whole_of_more {act : State → Flit → Option State} (more : f.aux.getLsbD 31 = true) :
    s.whole f act = some { s with parts := s.parts ++ [f] } := by
  rw [State.whole, State.assemble, if_pos more]

theorem State.whole_of_last {act : State → Flit → Option State} (last : f.aux.getLsbD 31 = false) :
    s.whole f act = act (s.joinDone f) (s.joined f) := by
  rw [State.whole, State.assemble, if_neg (by rw [last]; decide)]
  rfl

end Fabric

end Sys2Proof.Machine
end

section
/-! What a flit asks of its home (R366, R367, R390, R391, R393, R404, R405, R408). -/

namespace Sys2Proof.Machine

section Home

variable {s : State} {f : Flit}

/-- What holds is not denied. -/
theorem not_denied {b : Bool} (h : b = true) : ¬ (!b) = true := by simp [h]

/-! RD and WR (R391). -/

section Read
variable (still : s.sweeping (lineOf f.paddr * 64) = false)
include still

theorem State.serveRd_of_refused
    (refused : s.refusal (lineOf f.paddr * 64) (flitStep f) false (s.readPas (lineOf f.paddr * 64) (flitStep f)) ≠ 0) :
    s.serveRd f = some (s.refuse f 2 (s.refusal (lineOf f.paddr * 64) (flitStep f) false (s.readPas (lineOf f.paddr * 64) (flitStep f))) 0
      (s.readPas (lineOf f.paddr * 64) (flitStep f))) := by
  rw [State.serveRd, if_neg (by rw [still]; decide), if_pos refused]

variable (granted : s.refusal (lineOf f.paddr * 64) (flitStep f) false (s.readPas (lineOf f.paddr * 64) (flitStep f)) = 0)
include granted

theorem State.serveRd_of_stepped (stepped : (s.stepped (lineOf f.paddr * 64)).isSome = true) :
    s.serveRd f = some (s.reply f 2 0 2 (s.homeRead (lineOf f.paddr * 64) 64 (flitStep f))) := by
  rw [State.serveRd, if_neg (by rw [still]; decide), if_neg (not_not.2 granted), if_pos stepped]

variable (plain : s.stepped (lineOf f.paddr * 64) = none)
include plain

theorem State.serveRd_of_plain
    (unsealed : ∀ x, s.dirEnt (pageOf (lineOf f.paddr * 64)) = some x → x.state ≠ .sealed ∨ f.aux.getLsbD 31 = false) :
    s.serveRd f = some (s.reply f 2 0 0 (s.homeRead (lineOf f.paddr * 64) 64 (flitStep f))) := by
  rw [State.serveRd, if_neg (by rw [still]; decide), if_neg (not_not.2 granted), if_neg (by rw [plain]; decide)]
  cases listed : s.dirEnt (pageOf (lineOf f.paddr * 64)) with
  | none => rfl
  | some x =>
    refine if_neg fun ⟨sealed, l1⟩ => ?_
    obtain open_ | quiet := unsealed x listed
    · exact open_ sealed
    · exact absurd (quiet.symm.trans l1) (by decide)

theorem State.serveRd_of_sealed {x : DirEnt} (listed : s.dirEnt (pageOf (lineOf f.paddr * 64)) = some x) (sealed : x.state = .sealed)
    (l1 : f.aux.getLsbD 31 = true) : s.serveRd f =
      some ((s.setDir (pageOf (lineOf f.paddr * 64)) (some { x with pkf := x.pkf ||| (1#32 <<< (f.spkg % 32)) })).reply f 2 0 1
        (s.homeRead (lineOf f.paddr * 64) 64 (flitStep f))) := by
  rw [State.serveRd, if_neg (by rw [still]; decide), if_neg (not_not.2 granted), if_neg (by rw [plain]; decide), listed]
  exact if_pos ⟨sealed, l1⟩

end Read

theorem State.serveWr_of_refused
    (refused : s.refusal (lineOf f.paddr * 64) (flitStep f) true (s.writePas (lineOf f.paddr * 64) 1 (flitStep f)) ≠ 0) :
    s.serveWr f = some (s.refuse f 4 (s.refusal (lineOf f.paddr * 64) (flitStep f) true (s.writePas (lineOf f.paddr * 64) 1 (flitStep f))) 0
      (s.writePas (lineOf f.paddr * 64) 1 (flitStep f))) := by
  rw [State.serveWr, if_pos refused]

theorem State.serveWr_of_written {cells : List Host.Cell}
    (granted : s.refusal (lineOf f.paddr * 64) (flitStep f) true (s.writePas (lineOf f.paddr * 64) 1 (flitStep f)) = 0)
    (room : s.wbqRoom (lineOf f.paddr * 64) = true)
    (written : s.maskedWrite (lineOf f.paddr * 64) (flitStep f) (maskedCells (lineOf f.paddr * 64) (flitBody f)) = some cells) :
    s.serveWr f = some ((s.homeCells cells).reply f 4 0 0 []) := by
  rw [State.serveWr, if_neg (not_not.2 granted), if_neg (not_denied room), written]
  rfl

theorem State.maskedWrite_of_plain {pa st : Nat} {cells : List Host.Cell} (plain : s.stepped pa = none) : s.maskedWrite pa st cells = some cells := by
  rw [State.maskedWrite, plain]

/-! AT and RDO (R393). -/

theorem State.serveAt_of_refused {pas : List Nat}
    (places : pas = s.readPas f.paddr (flitStep f) ++ s.writePas f.paddr (atyBytes (f.aux.toNat / 32 % 8)) (flitStep f))
    (refused : s.refusal f.paddr (flitStep f) true pas ≠ 0) :
    s.serveAt f = some (s.refuse f 6 (s.refusal f.paddr (flitStep f) true pas) 0 pas) := by
  subst places
  exact if_pos refused

theorem State.serveAt_of_written {aop w : Nat} {cells : List Host.Cell} {r : Nat × List (Nat × List Byte)}
    (op : aop = f.aux.toNat / 256 % 16) (width : w = atyBytes (f.aux.toNat / 32 % 8))
    (result : r = atomApply aop (f.aux.toNat / 32 % 8) (ofBytes (s.homeRead f.paddr w (flitStep f)))
      (operandsOf (if aop = 7 then 2 * w else w) (flitBody f)))
    (granted : s.refusal f.paddr (flitStep f) true (s.readPas f.paddr (flitStep f) ++ s.writePas f.paddr w (flitStep f)) = 0)
    (room : s.wbqRoom f.paddr = true) (written : s.writeCells f.paddr (flitStep f) (bytesOf w r.1) = some cells) :
    s.serveAt f = some ((s.homeCells cells).reply f 6 0 0 (r.2.flatMap Prod.snd)) := by
  subst op width result
  refine (if_neg (not_not.2 granted)).trans ((if_neg (not_denied room)).trans ?_)
  exact congrArg (Option.map _) written

/-- The contribution that an RDO flit brings (R286, R393). -/
def redoOfFlit (f : Flit) : RedoMsg :=
  let n (k w : Nat) : Nat := ofBytes ((f.payload.drop k).take w)
  { id := 0, gid := 0, slot := 0, ctx := f.ctx, lane := 0, va := 0, pa := f.paddr, aop := f.aux.toNat / 256 % 16, aty := f.aux.toNat / 32 % 8,
    rslot := n 8 4, n := n 12 4, idx := n 16 4, val := n 0 8, sco := f.aux.toNat / 4 % 8, deps := [] }

theorem State.serveRdo_of_barred (barred : s.areaCause f.paddr ≠ 0) : s.serveRdo f = some (s.reply f 6 (s.areaCause f.paddr) 0 []) := if_pos barred

theorem State.serveRdo_of_taken {r : RedoReply × State} (free : s.areaCause f.paddr = 0) (taken : s.redoTake (redoOfFlit f).ctx (redoOfFlit f).pa
      (redoOfFlit f).aop (redoOfFlit f).aty (redoOfFlit f).n (redoOfFlit f).idx (redoOfFlit f).val (redoOfFlit f).sco (redoOfFlit f).rslot = some r) :
    s.serveRdo f = some (r.2.reply f 6 r.1.code 0 []) :=
  (if_neg (not_not.2 free)).trans (congrArg (Option.map fun r : RedoReply × State => r.2.reply f 6 r.1.code 0 []) taken)

theorem State.areaCause_of_elsewhere {pa : Nat} (away : pkgOf pa ≠ s.pkg) : s.areaCause pa = Cause.dataError.code := by
  rw [State.areaCause, if_pos (by simp [away])]

/-- Where another package may write lies no coded area (R405). -/
theorem State.coded_of_areaCause {pa : Nat} (free : s.areaCause pa = 0) : s.coded pa = false := by
  unfold State.areaCause at free
  split at free
  · exact absurd free (by decide)
  · split at free
    · exact absurd free (by decide)
    · exact absurd free (by decide)
    · split at free
      · exact absurd free (by decide)
      next plain => exact Bool.eq_false_iff.2 plain

/-! STR (R408, R409). -/

theorem State.serveStr_zero (aux : f.aux = 0) : s.serveStr f = s.applyDelta f := if_pos aux

theorem State.serveStr_one (aux : f.aux = 1) : s.serveStr f = some (s.sendUnit f) := by
  rw [State.serveStr, if_neg (by rw [aux]; decide), if_pos aux]

theorem State.serveStr_two (aux : f.aux = 2) : s.serveStr f = some (s.takeUnit f) := by
  rw [State.serveStr, if_neg (by rw [aux]; decide), if_neg (by rw [aux]; decide), if_pos aux]

theorem State.serveStr_three (aux : 3 ≤ f.aux.toNat) : s.serveStr f = some (if s.erasure.awaits f then s.dropRebuild else s) := by
  rw [State.serveStr, if_neg (by bv_omega), if_neg (by bv_omega), if_neg (by bv_omega)]

/-- The stripe that a parity delta names. -/
def deltaStripe (f : Flit) : Nat := ofBytes ((f.payload.drop 64).take 8)

theorem State.holdsUnit_parity {stripe : Nat} : s.holdsUnit stripe true = true ↔
    s.erasure.en = true ∧ stripe < s.erasure.stripes ∧ s.erasure.k ≤ s.erasure.unitAt stripe s.erasure.pos := by
  simp [State.holdsUnit, and_assoc]

theorem State.applyDelta_of_barred (barred : ¬ s.holdsUnit (deltaStripe f) true = true ∨ pkgOf f.paddr ≠ s.pkg) :
    s.applyDelta f = some (s.reply f 4 Cause.pageProtection.code 0 []) := by
  refine if_pos ?_
  obtain unheld | away := barred
  · rw [deltaStripe] at unheld
    simp [unheld]
  · simp [away]

theorem State.applyDelta_of_held {pd : Nat} (place : pd = s.ownUnit (deltaStripe f) + lineOf f.paddr * 64 % 2 ^ 17)
    (held : s.holdsUnit (deltaStripe f) true = true) (own : pkgOf f.paddr = s.pkg) (sound : s.lineBad pd = false) (room : s.wbqRoom pd = true) :
    s.applyDelta f = some ((s.homeBytes pd ((s.bytes pd 64).zipWith (· ^^^ ·) (f.payload.take 64))).reply f 4 0 0 []) := by
  subst place
  refine (if_neg ?_).trans ((if_neg ?_).trans (if_neg ?_))
  · rw [deltaStripe] at held
    simp [held, own]
  · exact (Bool.eq_false_iff.1 sound)
  · exact not_denied room

end Home

end Sys2Proof.Machine
end

section
/-! BULK at its home (R357, R387). -/

namespace Sys2Proof.Machine

/-! What a write at home puts into the write-back queues (R357). -/

theorem homeDie_lt {pa d : Nat} (home : homeDie pa = some d) : d < 4 := by
  simp only [homeDie, bitsOf] at home
  split_ifs at home <;> simp only [Option.some.injEq] at home <;> omega

/-- The lines that an entry of a write-back queue takes up. -/
def linesTaken (cells : List Host.Cell) : Nat := ((cells.map fun c => lineOf c.1).dedup).length

theorem linesTaken_le_one {cells : List Host.Cell} {line : Nat} (within : ∀ c ∈ cells, lineOf c.1 = line) : linesTaken cells ≤ 1 := by
  have sub : (cells.map fun c => lineOf c.1).dedup ⊆ [line] := fun l taken => by
    obtain ⟨c, mem, rfl⟩ := List.mem_map.1 (List.mem_dedup.1 taken)
    exact List.mem_singleton.2 (within c mem)
  exact (List.subperm_of_subset (List.nodup_dedup _) sub).length_le

theorem State.homeCells_wbqUsed (s : State) (cells : List Host.Cell) (d : Nat) :
    ((s.homeCells cells).die d).wbqUsed ≤ (s.die d).wbqUsed + linesTaken cells := by
  unfold State.homeCells
  split
  · exact Nat.le_add_right ..
  · split
    · split
      · rw [State.modDie_get]
        split
        next same =>
          subst same
          exact le_of_eq (List.foldl_append ..)
        · exact Nat.le_add_right ..
      · exact Nat.le_add_right ..
    · exact Nat.le_add_right ..

theorem State.clearError_rest (s : State) (pa n : Nat) : s.clearError pa n = { s with dies := (s.clearError pa n).dies } := by
  unfold State.clearError
  split
  · split <;> rfl
  · rfl

theorem State.clearError_wbqUsed (s : State) (pa n d : Nat) : ((s.clearError pa n).die d).wbqUsed = (s.die d).wbqUsed := by
  unfold State.clearError
  split
  · split
    · rw [State.modDie_get]
      split
      next same => subst same; rfl
      · rfl
    · rfl
  · rfl

theorem State.wbqRoom_of_lt {s : State} {pa d : Nat} (home : homeDie pa = some d) (low : (s.die d).wbqUsed < 4096) : s.wbqRoom pa = true := by
  rw [State.wbqRoom, home]
  simp [low]

/-- Whether a line is stepped the contexts say alone (R366). -/
theorem State.stepped_of_ctxs {s t : State} (same : t.ctxs = s.ctxs) (pa : Nat) : t.stepped pa = s.stepped pa := by
  rw [State.stepped, State.regionAt, same]
  rfl

theorem State.homeDie_of_refusal {s : State} {pa st : Nat} {changes : Bool} {pas : List Nat} (granted : s.refusal pa st changes pas = 0) :
    ∃ d, homeDie pa = some d := by
  rw [← Option.isSome_iff_exists]
  by_contra none
  rw [State.refusal, if_pos (by simp [Option.not_isSome_iff_eq_none.1 none])] at granted
  exact absurd granted (by decide)

/-- The bytes that a mask names lie within 64 of their place. -/
theorem maskedCells_mem {pa : Nat} {body : List Byte} {c : Host.Cell} (mem : c ∈ maskedCells pa body) : ∃ i, i < 64 ∧ c.1 = pa + i := by
  obtain ⟨x, listed, named⟩ := List.mem_filterMap.1 mem
  obtain ⟨i, low, rfl⟩ := List.mem_mapIdx.1 listed
  split at named
  · obtain rfl := Option.some.inj named
    exact ⟨i, by simp at low; omega, rfl⟩
  · cases named

section Bulk

variable {s t : State} {f : Flit}

/-! The lines of a BULK (R387). -/

/-- The number of lines, of 64 bytes and a mask each. -/
def bulkLines (f : Flit) : Nat := (flitBody f).length / 72
/-- The place of a line. -/
def bulkPlace (f : Flit) (k : Nat) : Nat := lineOf f.paddr * 64 + 64 * k
/-- The bytes of a line that its mask names. -/
def bulkCells (f : Flit) (k : Nat) : List Host.Cell := maskedCells (bulkPlace f k) (((flitBody f).drop (72 * k)).take 72)

/-- The places that the write of a line needs whole. -/
def State.bulkNeeds (s : State) (f : Flit) (k : Nat) : List Nat := s.writePas (bulkPlace f k) (bulkCells f k).length (flitStep f)

/-- Why the home refuses a line: a cause code, or 0 (R309). -/
def State.bulkRefusal (s : State) (f : Flit) (k : Nat) : Nat := s.refusal (bulkPlace f k) (flitStep f) true (s.bulkNeeds f k)

/-- A line of a BULK written: a whole line of a Tongs chunk leaves the error set (R314). -/
def State.bulkPut (s : State) (f : Flit) (k : Nat) (cells : List Host.Cell) : State :=
  if f.aux.getLsbD 30 then (s.homeCells cells).clearError ((cells.map Prod.fst).headD (bulkPlace f k)) (bulkCells f k).length else s.homeCells cells

/-- A line of a BULK, where the queue of its home has room for it. -/
def State.bulkLine (s : State) (f : Flit) (k : Nat) : Option State :=
  if !s.wbqRoom (bulkPlace f k) then none
  else (s.maskedWrite (bulkPlace f k) (flitStep f) (bulkCells f k)).map fun cells => s.bulkPut f k cells

theorem State.bulkLine_of_written {k : Nat} {cells : List Host.Cell} (room : s.wbqRoom (bulkPlace f k) = true)
    (written : s.maskedWrite (bulkPlace f k) (flitStep f) (bulkCells f k) = some cells) : s.bulkLine f k = some (s.bulkPut f k cells) := by
  rw [State.bulkLine, if_neg (not_denied room), written]
  rfl

/-- The pair of a line's number and what it writes. -/
def bulkPair (f : Flit) (k : Nat) : Nat × List Host.Cell := (k, bulkCells f k)

theorem State.serveBulk_of_refused (one : bulkLines f = 1) (refused : s.bulkRefusal f 0 ≠ 0) :
    s.serveBulk f = some (s.refuse f 4 (s.bulkRefusal f 0) 0 (s.bulkNeeds f 0)) := by
  have lines : (List.range ((flitBody f).length / 72)).map (bulkPair f) = [bulkPair f 0] := by
    rw [show (flitBody f).length / 72 = 1 from one]
    rfl
  have found : ([bulkPair f 0].find? fun l => s.refusal (lineOf f.paddr * 64 + 64 * l.1) (flitStep f) true
      (s.writePas (lineOf f.paddr * 64 + 64 * l.1) l.2.length (flitStep f)) != 0) = some (bulkPair f 0) :=
    List.find?_cons_of_pos (bne_iff_ne.2 refused)
  rw [← lines] at found
  unfold State.serveBulk
  dsimp only
  split
  next l there =>
    obtain rfl : bulkPair f 0 = l := Option.some.inj (found.symm.trans there)
    rfl
  next none_ => exact absurd (found.symm.trans none_) (by simp)

theorem State.serveBulk_of_granted (granted : ∀ k, k < bulkLines f → s.bulkRefusal f k = 0) : s.serveBulk f =
    ((List.range (bulkLines f)).foldl (fun acc k => acc.bind fun s : State => s.bulkLine f k) (some s)).map fun s => s.reply f 4 0 0 [] := by
  unfold State.serveBulk
  dsimp only
  split
  next l there =>
    obtain ⟨k, low, rfl⟩ := List.mem_map.1 (List.mem_of_find?_eq_some there)
    have refused := List.find?_some there
    exact absurd (granted k (List.mem_range.1 low)) (bne_iff_ne.1 refused)
  · rw [List.foldl_map]
    rfl

theorem State.serveBulk_of_one {cells : List Host.Cell} (one : bulkLines f = 1) (granted : s.bulkRefusal f 0 = 0)
    (room : s.wbqRoom (bulkPlace f 0) = true) (written : s.maskedWrite (bulkPlace f 0) (flitStep f) (bulkCells f 0) = some cells) :
    s.serveBulk f = some ((s.bulkPut f 0 cells).reply f 4 0 0 []) := by
  rw [State.serveBulk_of_granted fun k low => by rwa [show k = 0 by omega], one]
  change ((some s).bind fun s : State => s.bulkLine f 0).map _ = _
  rw [Option.bind_some, State.bulkLine_of_written room written]
  rfl

/-! Several lines, none of them stepped: each takes up one line of a queue, and changes no context. -/

theorem bulkCells_line {k : Nat} {c : Host.Cell} (mem : c ∈ bulkCells f k) : lineOf c.1 = lineOf f.paddr + k := by
  obtain ⟨i, low, place⟩ := maskedCells_mem mem
  rw [place, bulkPlace]
  simp only [lineOf]
  omega

theorem State.bulkPut_ctxs (s : State) (f : Flit) (k : Nat) (cells : List Host.Cell) : (s.bulkPut f k cells).ctxs = s.ctxs := by
  unfold State.bulkPut
  split
  · rw [State.clearError_rest, State.homeCells_rest]
  · rw [State.homeCells_rest]

theorem State.bulkPut_wbqUsed (s : State) (f : Flit) (k d : Nat) :
    ((s.bulkPut f k (bulkCells f k)).die d).wbqUsed ≤ (s.die d).wbqUsed + 1 := by
  have grown : ((s.homeCells (bulkCells f k)).die d).wbqUsed ≤ (s.die d).wbqUsed + 1 :=
    (s.homeCells_wbqUsed _ d).trans (Nat.add_le_add_left (linesTaken_le_one fun c => bulkCells_line) _)
  unfold State.bulkPut
  split
  · rwa [State.clearError_wbqUsed]
  · exact grown

/-- The first lines of a BULK written. -/
def State.bulkPuts (s : State) (f : Flit) (n : Nat) : State := (List.range n).foldl (fun t k => t.bulkPut f k (bulkCells f k)) s

theorem State.bulkPuts_succ (s : State) (f : Flit) (n : Nat) : s.bulkPuts f (n + 1) = (s.bulkPuts f n).bulkPut f n (bulkCells f n) := by
  simp [State.bulkPuts, List.range_succ]

theorem State.bulkPuts_ctxs (s : State) (f : Flit) (n : Nat) : (s.bulkPuts f n).ctxs = s.ctxs := by
  induction n with
  | zero => rfl
  | succ n ih => rw [State.bulkPuts_succ, State.bulkPut_ctxs, ih]

theorem State.bulkPuts_wbqUsed (s : State) (f : Flit) (n d : Nat) : ((s.bulkPuts f n).die d).wbqUsed ≤ (s.die d).wbqUsed + n := by
  induction n with
  | zero => exact le_refl _
  | succ n ih =>
    rw [State.bulkPuts_succ]
    have := (s.bulkPuts f n).bulkPut_wbqUsed f n d
    omega

theorem State.bulkLines_written {n : Nat} (homes : ∀ k, k < n → ∃ d, homeDie (bulkPlace f k) = some d)
    (plain : ∀ k, k < n → s.stepped (bulkPlace f k) = none) (room : ∀ d, d < 4 → (s.die d).wbqUsed + n ≤ 4096) :
    (List.range n).foldl (fun acc k => acc.bind fun s : State => s.bulkLine f k) (some s) = some (s.bulkPuts f n) := by
  induction n with
  | zero => rfl
  | succ n ih =>
    rw [List.range_succ, List.foldl_append, ih (fun k low => homes k (by omega)) (fun k low => plain k (by omega))
      fun d low => by have := room d low; omega]
    obtain ⟨d, home⟩ := homes n (by omega)
    have free : ((s.bulkPuts f n).die d).wbqUsed < 4096 := by
      have := room d (homeDie_lt home)
      have := s.bulkPuts_wbqUsed f n d
      omega
    have still : (s.bulkPuts f n).stepped (bulkPlace f n) = none :=
      (State.stepped_of_ctxs (s.bulkPuts_ctxs f n) _).trans (plain n (by omega))
    rw [State.bulkPuts_succ]
    exact State.bulkLine_of_written (State.wbqRoom_of_lt home free) (State.maskedWrite_of_plain still)

theorem State.serveBulk_of_plain (lines : ∀ k, k < bulkLines f → s.bulkRefusal f k = 0 ∧ s.stepped (bulkPlace f k) = none)
    (room : ∀ d, d < 4 → (s.die d).wbqUsed + bulkLines f ≤ 4096) : s.serveBulk f = some ((s.bulkPuts f (bulkLines f)).reply f 4 0 0 []) := by
  rw [State.serveBulk_of_granted fun k low => (lines k low).1,
    State.bulkLines_written (fun k low => State.homeDie_of_refusal (lines k low).1) (fun k low => (lines k low).2) room]
  rfl

/-! An acknowledgement changes no die (R388). -/

theorem State.ackTo_rest (s : State) (port ack : Nat) : s.ackTo port ack = { s with
    ports := (s.ackTo port ack).ports, out := (s.ackTo port ack).out, outHeld := (s.ackTo port ack).outHeld, resent := (s.ackTo port ack).resent } := by
  unfold State.ackTo
  dsimp only
  split
  · rfl
  · unfold State.flushHeld
    have sends := fun u : State => Sends.fold (fun s f => Sends.emitFlit s f) (u.outHeld.filter fun f => !(u.resent.any fun r => r.1 == f.dpkg))
      { u with outHeld := u.outHeld.filter fun f => u.resent.any fun r => r.1 == f.dpkg }
    rw [show _ = _ from sends _]
    rfl

theorem State.heard_dies (s : State) (port : Nat) (f : Flit) : (s.heard port f).dies = s.dies := by
  rw [State.heard, State.ackTo_rest]
  rfl

theorem State.heard_pkg (s : State) (port : Nat) (f : Flit) : (s.heard port f).pkg = s.pkg := by
  rw [State.heard, State.ackTo_rest]
  rfl

end Bulk

end Sys2Proof.Machine
end

section
/-! Ports, failed packages and erasure groups, and the fabric as a whole (R386 to R394, R399, R404, R405, R408, R409). -/

namespace Sys2Proof.Machine

section Fabric

variable {s t : State} {port n : Nat} {f : Flit} {v : Dword}

/-! Ports (R388, R389). -/

theorem exec_flitCrcFailure (on : s.on = true) (low : port < 16) (up : (s.ports.getD port {}).up = true) :
    exec (.flitCrcFailure port) s = .next s := by
  change execFlitCrcFailure port s = _
  exact event_of (by rw [on, up, decide_eq_true low]; rfl)

theorem exec_flitReplay (on : s.on = true) (low : port < 16) (up : (s.ports.getD port {}).up = true)
    (waits : (s.ports.getD port {}).unacked ≠ []) : let p := s.ports.getD port {}
    exec (.flitReplay port) s = .next (if 8 ≤ p.fails then s.portDown port
      else { s with out := s.out ++ p.unacked.map (fun f => { f with ack := p.ack }),
                    ports := s.ports.set port { p with fails := p.fails + 1, retry := min 255 (p.retry + 1) } }) := by
  intro p
  change execFlitReplay port s = _
  exact event_of (by rw [on, up, decide_eq_true low, List.isEmpty_eq_false_iff.2 waits]; rfl)

theorem exec_fabfailWrite (on : s.on = true) (low : n < 64) : let named := ((List.range 64).filter fun b => v.getLsbD b).map (64 * n + ·)
    exec (.fabfailWrite n v) s = .next ((named.filter fun q => !s.fabFail.contains q).foldl (fun s q => s.resolveFailed q)
      { s with fabFail := (s.fabFail.filter fun q => q / 64 != n) ++ named }) := by
  intro named
  change execFabfailWrite n v s = _
  exact event_of (by rw [on, decide_eq_true low]; rfl)

/-! Erasure groups (R405, R409). -/

theorem exec_egctlEnable (on : s.on = true) (en : v.getLsbD 31 = true) : let e := s.erasure
    let e1 : Erasure := { e with ctl := v &&& 0x8000FFF0 }
    exec (.egctlEnable v) s = .next (if e.en = true then s
      else { s with erasure := if s.egBad e1 = true then { e with ctl := v &&& 0xFFF0 } else e1 }) := by
  intro e e1
  rw [apply_ite fun e : Erasure => ({ s with erasure := e } : State)]
  change execEgctlEnable v s = _
  exact event_of (by rw [on, en]; rfl)

theorem exec_egrbldGo (on : s.on = true) (go : v.getLsbD 31 = true) : let e := s.erasure
    let range := e.range.toNat
    exec (.egrbldGo v) s =
      .next (if e.en = true ∧ e.busy = false ∧ range % 2 ^ 32 ≤ bitsOf range 63 32 ∧ bitsOf range 63 32 < e.stripes then
        ({ s with erasure := { e with busy := true, done := false, run := e.run + 1, at_ := range % 2 ^ 32 } } : State).askStripe
        else { s with erasure := { e with done := e.done && !v.getLsbD 29 } }) := by
  intro e range
  change execEgrbldGo v s = _
  refine (event_of (by rw [on, go]; rfl)).trans (congrArg _ ?_)
  have denied : (!e.en || e.busy || decide (range % 2 ^ 32 > bitsOf range 63 32) || decide (bitsOf range 63 32 ≥ e.stripes)) = true ↔
      ¬ (e.en = true ∧ e.busy = false ∧ range % 2 ^ 32 ≤ bitsOf range 63 32 ∧ bitsOf range 63 32 < e.stripes) := by
    simp only [Bool.or_eq_true, Bool.not_eq_true', decide_eq_true_eq, not_and_or, Bool.not_eq_true, Bool.not_eq_false, not_le, not_lt, or_assoc,
      gt_iff_lt, ge_iff_le]
  exact (if_congr denied rfl rfl).trans (ite_not ..)

theorem exec_rebuildStripe {d : Nat} (ready : s.stripeReady = true)
    (home : homeDie (s.erasure.unitPa s.erasure.at_ s.erasure.pos) = some d) (room : (s.die d).wbqUsed + 2048 ≤ 4096) :
    exec .rebuildStripe s = .next s.rebuildOne := by
  change execRebuildStripe s = _
  exact event_of (by simp [ready, home, room])

end Fabric

/-- Settles O50: what a flit in turn asks of its home is answered by the lemma about that, and each event of the ports and of the erasure
group by its own. -/
theorem fabricEventsComplete : Obligations.FabricEventsComplete := by
  unfold Obligations.FabricEventsComplete
  intro s t port n f v p e e1 range back acts s1 inTurn takes pa part all s2 st rd wr stAll lines cell needs put word
  have dies : s2.dies = s.dies := s.heard_dies port f
  have joined {g : State → Flit → Option State} {u : State} (last : f.aux.getLsbD 31 = false) (acted : g s2 all = some u) :
      s1.whole f g = some u := (State.whole_of_last last).trans acted
  refine ⟨receives exec_nullFlit, receives exec_rdFlit, receives exec_rddFlit, receives exec_wrFlit, receives exec_wackFlit,
    receives exec_atFlit, receives exec_atdFlit, receives exec_rdoFlit, receives exec_frznFlit, receives exec_fackFlit,
    receives exec_coldFlit, receives exec_barmFlit, receives exec_strFlit, receives exec_bulkFlit, ?read, ?write,
    fun turn more => takes_inTurn exec_atFlit turn (State.whole_of_more more), ?atomic, ?redo, ?stripe,
    fun turn more => takes_inTurn exec_bulkFlit turn (State.whole_of_more more), ?one, ?several,
    fun new u bad taken => exec_badFlit bad taken, exec_flitCrcFailure, exec_flitReplay, exec_fabfailWrite, exec_egctlEnable, exec_egrbldGo,
    fun d ready home room => exec_rebuildStripe ready home room⟩
  case read =>
    intro turn still
    exact ⟨fun refused => takes_inTurn exec_rdFlit turn (State.serveRd_of_refused still refused),
      fun granted stepped => takes_inTurn exec_rdFlit turn (State.serveRd_of_stepped still granted stepped),
      fun granted plain unsealed => takes_inTurn exec_rdFlit turn (State.serveRd_of_plain still granted plain unsealed),
      fun x granted plain listed sealed l1 => takes_inTurn exec_rdFlit turn (State.serveRd_of_sealed still granted plain listed sealed l1)⟩
  case write =>
    intro turn
    exact ⟨fun refused => takes_inTurn exec_wrFlit turn (State.serveWr_of_refused refused),
      fun granted room plain => takes_inTurn exec_wrFlit turn (State.serveWr_of_written granted room (State.maskedWrite_of_plain plain)),
      fun cells granted room written => takes_inTurn exec_wrFlit turn (State.serveWr_of_written granted room written)⟩
  case atomic =>
    intro turn last aop aty w pas r
    exact ⟨fun refused => takes_inTurn exec_atFlit turn (joined last (State.serveAt_of_refused rfl refused)),
      fun cells granted room written => takes_inTurn exec_atFlit turn (joined last (State.serveAt_of_written rfl rfl rfl granted room written))⟩
  case redo =>
    intro turn aop aty c
    refine ⟨fun barred => takes_inTurn exec_rdoFlit turn (State.serveRdo_of_barred barred), fun away => ?_, ?_⟩
    · have elsewhere : s1.areaCause f.paddr = Cause.dataError.code := State.areaCause_of_elsewhere (by rwa [show s1.pkg = s.pkg from s.heard_pkg port f])
      have barred := State.serveRdo_of_barred (s := s1) (f := f) (by rw [elsewhere]; decide)
      rw [elsewhere] at barred
      exact takes_inTurn exec_rdoFlit turn barred
    · intro d free own home r r1 agrees
      have plain : s1.coded (redoOfFlit f).pa = false := State.coded_of_areaCause free
      exact ⟨fun differs => takes_inTurn exec_rdoFlit turn (State.serveRdo_of_taken free (State.redoTake_of_disagrees home plain differs)),
        fun same below => takes_inTurn exec_rdoFlit turn (State.serveRdo_of_taken free (State.redoTake_of_below home plain same below))⟩
  case stripe =>
    intro turn stripe pd holds
    have held : s1.holdsUnit stripe true = true ↔ holds := State.holdsUnit_parity
    refine ⟨fun aux barred => takes_inTurn exec_strFlit turn ((State.serveStr_zero aux).trans (State.applyDelta_of_barred (barred.imp_left (mt held.1)))),
      fun aux holds own sound room => takes_inTurn exec_strFlit turn
        ((State.serveStr_zero aux).trans (State.applyDelta_of_held rfl (held.2 holds) own sound room)),
      fun aux => takes_inTurn exec_strFlit turn (State.serveStr_one aux),
      fun aux => takes_inTurn exec_strFlit turn (State.serveStr_two aux), fun aux => ⟨fun idle => ?_, fun awaits => ?_⟩⟩
    · exact takes_inTurn exec_strFlit turn ((State.serveStr_three aux).trans (congrArg some (if_neg (Bool.eq_false_iff.1 idle))))
    · exact takes_inTurn exec_strFlit turn ((State.serveStr_three aux).trans (congrArg some (if_pos awaits)))
  case one =>
    intro turn last one
    exact ⟨fun refused => takes_inTurn exec_bulkFlit turn (joined last (State.serveBulk_of_refused one refused)),
      fun cells granted room written => takes_inTurn exec_bulkFlit turn (joined last (State.serveBulk_of_one one granted room written))⟩
  case several =>
    intro turn last each room
    refine takes_inTurn exec_bulkFlit turn (joined last (State.serveBulk_of_plain each fun d low => ?_))
    have same : s2.die d = s.die d := by rw [State.die, dies]; rfl
    rw [same]
    exact room d low

end Sys2Proof.Machine
end

section
/-! The events of launch queues, quads and contexts (R333 to R345, R348 to R356). -/

namespace Sys2Proof.Machine

section Events

variable {s t : State} {q n ctx grid off : Nat} {v : Dword}

/-! Launch queues (R333 to R335). -/

/-- What the host writes before bring-up is complete, or over a clamped link, has no effect (R351, R385). -/
theorem State.hostDoes_of_shut {k : State → State} (shut : s.power.stage < 7 ∨ s.linkClamped = true) : s.hostDoes k = s := by
  refine if_neg fun goes => ?_
  simp only [State.ready, Bool.and_eq_true, decide_eq_true_eq, Bool.not_eq_true'] at goes
  obtain ⟨ready, free⟩ := goes
  obtain early | clamped := shut
  · omega
  · exact absurd (free.symm.trans clamped) (by decide)

theorem State.hostDoes_of_up {k : State → State} (ready : 7 ≤ s.power.stage) (free : s.linkClamped = false) : s.hostDoes k = k s :=
  if_pos (by simp [State.ready, ready, free])

theorem exec_lqprodWrite (up : s.hostUp = true) (low : q < 64) : let lq := s.lq q
    let pi := v.toNat % 2 ^ 32
    ∃ t, exec (.lqprodWrite q v) s = .next t ∧
      (7 ≤ s.power.stage → s.linkClamped = false →
        t = if lq.src = true ∨ (pi + 2 ^ 32 - lq.ci) % 2 ^ 32 > lq.size then s.clampLink else s.setLq q { lq with pi := pi }) ∧
      (s.power.stage < 7 ∨ s.linkClamped = true → t = s) := by
  intro lq pi
  refine ⟨_, event_of (by rw [up, decide_eq_true low]; rfl), fun ready free => ?_, fun shut => State.hostDoes_of_shut shut⟩
  refine (State.hostDoes_of_up ready free).trans (if_congr ?_ rfl rfl)
  rw [Bool.or_eq_true, decide_eq_true_eq]

theorem exec_recordStart (starts : s.mayStart q = true) : exec (.recordStart q) s = .next (s.tryRecord q) := by
  change execRecordStart q s = _
  exact event_of starts

theorem exec_predecessorRead (starts : s.mayStart q = true) (sound : s.recordBad (s.lq q).ctx (s.recordAt q) = none)
    (waits : n ∈ (s.lq q).unsat (s.recordAt q)) : exec (.predecessorRead q n) s = .next (s.testPred q n) := by
  change execPredecessorRead q n s = _
  exact event_of (by simp [starts, sound, waits])

/-! Grids (R335, R343). -/

theorem exec_gridComplete {x : Grid} (listed : s.grids.get? grid = some x)
    (ends : (if s.gridDone grid x then (if (x.words.getD 20 0).toNat = 0 then some ({ s with grids := s.grids.erase grid } : State)
      else ({ s with grids := s.grids.erase grid } : State).complete x.ctx (x.words.getD 20 0).toNat) else none) = some t) :
    exec (.gridComplete grid) s = .next t := by
  change execGridComplete grid s = _
  rw [execGridComplete, listed]
  dsimp only
  rw [ends]

theorem dword_eq_zero {w : Dword} (zero : w.toNat = 0) : w = 0 := BitVec.eq_of_toNat_eq zero

theorem exec_gridComplete_uncounted {x : Grid} (listed : s.grids.get? grid = some x) (done : s.gridDone grid x = true)
    (none_ : x.words.getD 20 0 = 0) : exec (.gridComplete grid) s = .next { s with grids := s.grids.erase grid } :=
  exec_gridComplete listed (by rw [if_pos done, if_pos (by rw [none_]; rfl)])

theorem exec_gridComplete_counted {x : Grid} (listed : s.grids.get? grid = some x) (done : s.gridDone grid x = true)
    (names : x.words.getD 20 0 ≠ 0)
    (counted : ({ s with grids := s.grids.erase grid } : State).complete x.ctx (x.words.getD 20 0).toNat = some t) :
    exec (.gridComplete grid) s = .next t :=
  exec_gridComplete listed (by rw [if_pos done, if_neg (mt dword_eq_zero names), counted])

theorem exec_blockPlacement {at_ : List Place} (placed : s.placeBlock grid at_ = some t) : exec (.blockPlacement grid at_) s = .next t := by
  change execBlockPlacement grid at_ s = _
  rw [execBlockPlacement, placed]

/-! Quads (R345). -/

theorem exec_gateRequest (on : s.on = true) (low : q < 128) (gate : (s.quad q).gate = .on) (thresh : (s.quad q).thresh ≠ 0)
    (idle : s.quadIdle q = true) (undispatched : (s.quad q).dispatch = none) (gates : s.gate q = some t) :
    exec (.gateRequest q) s = .next t := by
  change execGateRequest q s = _
  rw [execGateRequest, if_pos (by rw [on, decide_eq_true low, gate, bne_iff_ne.2 thresh, idle, undispatched]; rfl), gates]

theorem Tbl.mem_of_get? {α : Type} {t : Tbl α} {k : Nat} {a : α} (here : t.get? k = some a) : (k, a) ∈ t := by
  induction t with
  | nil => cases here
  | cons p t ih =>
    obtain ⟨j, b⟩ := p
    by_cases same : j = k
    · rw [Tbl.get?, if_pos same] at here
      cases here
      exact same ▸ .head _
    · rw [Tbl.get?, if_neg same] at here
      exact .tail _ (ih here)

/-- No line of an L1 array without a dirty byte is dirty, whether it is held or not. -/
theorem State.l1Line_of_clean {l : Nat} (clean : ((s.core l).l1.all fun x => x.2.dirty == 0) = true) (line : Nat) : (s.l1Line l line).dirty = 0 := by
  rw [State.l1Line, Tbl.getD_eq]
  cases held : (s.core l).l1.get? line with
  | none => rfl
  | some x => exact beq_iff_eq.1 (List.all_eq_true.1 clean _ (Tbl.mem_of_get? held))

theorem State.wbAll_of_clean {l : Nat} (clean : ((s.core l).l1.all fun x => x.2.dirty == 0) = true) : s.wbAll l = s :=
  List.foldl_fixed' (fun line => if_pos (State.l1Line_of_clean clean line)) _

/-- L1 arrays that hold no dirty byte are flushed already. -/
theorem State.flush_of_clean {l1s : List Nat} (clean : s.cleanL1s l1s = true) : s.flush l1s = .clean s := by
  have each (l : Nat) (mem : l ∈ l1s) : s.allWbs l = [] ∧ ((s.core l).l1.all fun x => x.2.dirty == 0) = true := by
    have both := List.all_eq_true.1 clean l mem
    rwa [Bool.and_eq_true, List.isEmpty_iff] at both
  have written : l1s.foldl (fun s l => s.wbAll l) s = s := by
    clear clean
    induction l1s with
    | nil => rfl
    | cons l ls ih =>
      rw [List.foldl_cons, State.wbAll_of_clean (each l (.head _)).2]
      exact ih fun k mem => each k (.tail _ mem)
  have none_ : l1s.flatMap s.allWbs = [] := List.flatMap_eq_nil_iff.2 fun l mem => (each l mem).1
  unfold State.flush
  rw [written]
  dsimp only
  rw [none_]
  exact if_pos clean

theorem exec_quadWake (on : s.on = true) (wakes : (s.quad q).gate = .waking) : exec (.quadWake q) s = .next (s.wakeQuad q) := by
  change execQuadWake q s = _
  exact event_of (by simp [on, wakes])

theorem exec_ktvalWrite (on : s.on = true) (low : ctx < 64) (word : n < 4) : exec (.ktvalWrite ctx n v) s =
    .next ((List.range 64).foldl (fun s j => s.setKernel ctx (64 * n + j) (v.getLsbD j)) s) := by
  change execKtvalWrite ctx n v s = _
  exact event_of (by simp [on, low, word])

/-! Contexts (R348, R350 to R353). -/

section Context
variable (on : s.on = true) (low : ctx < 64)
include on low

theorem exec_swout : exec (.swout ctx) s =
    .next (if (s.ctx ctx).valid = true ∧ (s.ctx ctx).state = .active then s.setCtx ctx { s.ctx ctx with state := .switching } else s) := by
  change execSwout ctx s = _
  exact event_of (by simp [on, low])

theorem exec_clamp : exec (.clamp ctx) s =
    .next (if (s.ctx ctx).valid = true ∧ (s.ctx ctx).state ≠ .clamped then s.clampCtx ctx 0 0 0 else s) := by
  change execClamp ctx s = _
  exact event_of (by simp [on, low])

theorem exec_release : exec (.release ctx) s = .next (if (s.ctx ctx).valid = true then s.releaseCtx ctx else s) := by
  change execRelease ctx s = _
  exact event_of (by simp [on, low])

theorem exec_destroy : exec (.destroy ctx) s = .next (if (s.ctx ctx).valid = true then s.destroyCtx ctx else s) := by
  change execDestroy ctx s = _
  exact event_of (by simp [on, low])

theorem exec_mclmpClamp (op : v.getLsbD 61 = false) : exec (.mclmpClamp ctx v) s =
    .next (if (s.ctx ctx).valid = true then s.mclmpClamp ctx v else s) := by
  change execMclmpClamp ctx v s = _
  exact event_of (by rw [on, decide_eq_true low, op]; rfl)

theorem exec_mclmpRelease (op : v.getLsbD 61 = true) : exec (.mclmpRelease ctx v) s =
    .next (if (s.ctx ctx).valid = true ∧ (s.ctx ctx).state ≠ .clamped then s.mclmpRelease ctx v else s) := by
  change execMclmpRelease ctx v s = _
  exact event_of (by rw [on, decide_eq_true low, op]; rfl)

end Context

section Swout
variable (switching : (s.ctx ctx).state = .switching) (drained : (s.groupsOf ctx).all s.drained = true)
include switching drained

theorem exec_swoutComplete_of_clean (flushed : s.flush (s.ctxL1s ctx) = .clean t) : exec (.swoutComplete ctx) s = .next (t.switchOut ctx) := by
  change execSwoutComplete ctx s = _
  rw [execSwoutComplete, if_pos ⟨switching, drained⟩, flushed]

theorem exec_swoutComplete_of_begun (flushed : s.flush (s.ctxL1s ctx) = .begun t) : exec (.swoutComplete ctx) s = .next t := by
  change execSwoutComplete ctx s = _
  rw [execSwoutComplete, if_pos ⟨switching, drained⟩, flushed]

end Swout

/-- A context without a resident group is saved as it is: no save area is written (R348). -/
theorem State.switchOut_of_empty (empty : s.groupsOf ctx = []) : s.switchOut ctx =
    (({ s with fresh := s.fresh + 1 } : State).emptyL1s (s.ctxL1s ctx) true).saveCtx ctx := by
  rw [State.switchOut, empty]
  rfl

/-! Hand-over, registers and host writes (R332, R355, R356). -/

section Host
variable {host : Bool}

theorem exec_todev (up : (if host then s.hostUp else s.on) = true) :
    exec (.todev host) s = .next (s.hostOr host fun s => s.handOver host 1 State.toDevice) := by
  change execTodev host s = _
  exact event_of up

theorem exec_tohost (up : (if host then s.hostUp else s.on) = true) :
    exec (.tohost host) s = .next (s.hostOr host fun s => s.handOver host 2 State.toHost) := by
  change execTohost host s = _
  exact event_of up

/-- A register write that is no row of its own, from the host or from firmware, or before the dies run to the power block (R332). -/
theorem exec_registerWrite (plain : s.regWrite host off v ≠ .other)
    (up : (if host then s.hostUp else s.on || (s.powered && decide (0x600000 ≤ off) && decide (off < 0x600030))) = true) :
    exec (.registerWrite host off v) s = .next (s.hostOr host fun s => s.writeReg host off v) := by
  change execRegisterWrite host off v s = _
  rw [execRegisterWrite]
  refine event_of ?_
  rw [up, Bool.true_and]
  split
  next other => exact absurd other plain
  · rfl

/-- No register of the power block is written by a row of its own (R383). -/
theorem State.powerWrite_ne_other (s : State) (off : Nat) (v : Dword) : s.powerWrite off v ≠ .other := by
  unfold State.powerWrite
  dsimp only
  split <;> simp

theorem State.regWrite_power (above : 0x600000 ≤ off) (below : off < 0x600030) : s.regWrite false off v = s.powerWrite (off - 0x600000) v := by
  rw [State.regWrite, if_neg (by omega), if_neg (by omega), if_neg (by omega), if_neg (by omega), if_neg (by omega), if_neg (by omega),
    if_pos ⟨above, below⟩]
  exact if_neg Bool.false_ne_true

end Host

theorem exec_handoverDone (busy : s.hand.busy = true) (performed : s.hand.op = 2 → ∀ a ∈ s.accs, a.kind = .wb →
      s.inRegion s.hand.capCtx s.hand.capVa s.hand.capLen (lineOf a.pa) = true → a.done = true) :
    exec .handoverDone s = .next { s with hand := { s.hand with busy := false, done := true } } := by
  change execHandoverDone s = _
  have done : (s.hand.busy && !(s.hand.op == 2 && s.accs.any fun a =>
      a.kind == .wb && !a.done && s.inRegion s.hand.capCtx s.hand.capVa s.hand.capLen (lineOf a.pa))) = true := by
    rw [busy, Bool.true_and, Bool.not_eq_true', Bool.eq_false_iff]
    intro left
    simp only [Bool.and_eq_true, beq_iff_eq, List.any_eq_true, Bool.not_eq_true'] at left
    obtain ⟨op, a, mem, ⟨kind, open_⟩, within⟩ := left
    exact absurd ((performed op a mem kind within).symm.trans open_) (by decide)
  exact event_of done

section Write
variable {bs : List Byte} (up : s.hostUp = true) (some_ : bs ≠ []) (fits : n % 64 + bs.length ≤ 64)
include up some_ fits

theorem exec_hostWrite_shut (shut : s.power.stage < 7 ∨ s.linkClamped = true) : exec (.hostWrite ctx n bs) s = .next s := by
  have still : (s.ready && !s.linkClamped) = false := by
    obtain early | clamped := shut
    · rw [State.ready, decide_eq_false (by omega)]
      rfl
    · rw [clamped, Bool.and_comm]
      rfl
  change execHostWrite ctx n bs s = _
  refine (event_of ?_).trans (congrArg _ (State.hostDoes_of_shut shut))
  rw [up, List.isEmpty_eq_false_iff.2 some_, decide_eq_true fits, still]
  rfl

theorem exec_hostWrite_open (ready : 7 ≤ s.power.stage) (free : s.linkClamped = false) (granted : s.hostRefused n bs.length = none)
    (room : s.wbqRoom n = true) : exec (.hostWrite ctx n bs) s = .next (s.homeBytes n bs) := by
  change execHostWrite ctx n bs s = _
  rw [execHostWrite, granted]
  refine (event_of ?_).trans (congrArg _ (State.hostDoes_of_up ready free))
  rw [up, List.isEmpty_eq_false_iff.2 some_, decide_eq_true fits, room, Bool.or_true]
  rfl

end Write

end Events

end Sys2Proof.Machine
end

section
/-! Groups seated, and blocks placed one group at a time (R199, R218, R343, R350). -/

namespace Sys2Proof.Machine

section Seat

variable {s t u : State} {n : BlockNeed} {g : Group} {p : Place} {k : Nat} {ks : List Nat}

/-- A core that changes hands moves deques and planes only (R218, R247). -/
theorem State.takeCore_rest (s : State) (core ctx : Nat) : s.takeCore core ctx = { s with
    ctxs := (s.takeCore core ctx).ctxs, quads := (s.takeCore core ctx).quads, cores := (s.takeCore core ctx).cores } := by
  unfold State.takeCore
  dsimp only
  split
  · rfl
  · split <;> split <;> rfl

/-- The name of a group at a place (R164). -/
def placeGid (p : Place) (k : Nat) : Nat := 96 * p.core + 8 * p.part + k

/-- A group where it has been seated. -/
def Group.seated (g : Group) (p : Place) (k : Nat) : Group := { g with core := p.core, part := p.part, pos := k }

/-- A place that has room for a group of a block (R343). -/
structure State.Room (s : State) (n : BlockNeed) (g : Group) (p : Place) (k : Nat) (ks : List Nat) : Prop where
  core : p.core < 512
  part : p.part < 12
  fused : (s.quad (quadOf p.core)).fused = n.fuse
  spads : ∀ c ∈ n.ranks [p], n.spad ≤ s.freeSpad c
  best : s.bestPart p.core = some p.part
  reserve : n.reserve ≤ s.unreserved p.core p.part
  cap : g.cap ≤ s.unreserved p.core p.part
  free : s.freePositions p.core p.part = k :: ks
  tiles : g.budM ≤ s.freeTiles p.core
  accs : g.budC ≤ s.freeAccs (quadOf p.core)
  mine : s.coreFor p.core n.ctx = true

theorem State.seatOne_of_room (room : s.Room n g p k ks) (rest : t = { s with ctxs := t.ctxs, quads := t.quads, cores := t.cores }) :
    t.seatOne n g p = some (placeGid p k, t.setGroup (placeGid p k) (g.seated p k)) := by
  have free : t.freePositions p.core p.part = k :: ks := by rw [rest]; exact room.free
  have best : t.bestPart p.core = some p.part := by rw [rest]; exact room.best
  have cap : g.cap ≤ t.unreserved p.core p.part := by rw [rest]; exact room.cap
  have tiles : g.budM ≤ t.freeTiles p.core := by rw [rest]; exact room.tiles
  have accs : g.budC ≤ t.freeAccs (quadOf p.core) := by rw [rest]; exact room.accs
  have mine : t.coreFor p.core n.ctx = true := by rw [rest]; exact room.mine
  rw [State.seatOne, free]
  exact if_pos (by simp [best, cap, tiles, accs, mine])

theorem BlockNeed.shape_one (core : p.core < 512) (part : p.part < 12) : n.shape [p] = true := by
  simp only [BlockNeed.shape, List.all_cons, List.all_nil, decide_eq_true core, decide_eq_true part, beq_self_eq_true, Bool.or_true, Bool.and_true,
    Bool.true_and]
  split <;> rfl

/-- One group seated where there is room for it (R343). -/
theorem State.seat_one (room : s.Room n g p k ks) :
    s.seat n [g] [p] = some ([placeGid p k], (s.takeCore p.core n.ctx).setGroup (placeGid p k) (g.seated p k)) := by
  have full : ((n.ranks [p]).any fun c => decide (s.freeSpad c < n.spad)) = false := by
    rw [List.any_eq_false]
    exact fun c mem low => absurd (room.spads c mem) (not_le.2 (of_decide_eq_true low))
  have localOk : (!n.isLocal || (s.bestPart p.core == some p.part && decide (n.reserve ≤ s.unreserved p.core p.part))) = true := by
    rw [room.best, decide_eq_true room.reserve, beq_self_eq_true, Bool.and_true, Bool.or_true]
  have moded : s.fuseQuad (quadOf p.core) n.fuse = some s := if_pos room.fused
  have rest := s.takeCore_rest p.core n.ctx
  have fits : ¬ ([g].length ≠ [p].length ∨ n.shape [p] = false ∨
      (!n.isLocal || (s.bestPart p.core == some p.part && decide (n.reserve ≤ s.unreserved p.core p.part))) = false ∨
      ((n.ranks [p]).any fun c => decide (s.freeSpad c < n.spad)) = true) := by
    simp [BlockNeed.shape_one room.core room.part, full, localOk]
  unfold State.seat
  refine (if_neg fits).trans ?_
  change (match s.fuseQuad (quadOf p.core) n.fuse with
    | none => none
    | some s0 => ((s0.takeCore p.core n.ctx).seatOne n g p).map fun q : Nat × State => ([q.1], q.2)) = _
  rw [moded]
  dsimp only
  rw [State.seatOne_of_room room rest]
  rfl

/-! A grid's next block (R200, R342, R343). -/

/-- No quad of the mode that is needed changes it (R225). -/
theorem State.remoded_of_alike {quads : List Nat} {fuse : Bool} {act : State → Option State} (alike : ∀ q ∈ quads, (s.quad q).fused = fuse) :
    s.remoded quads fuse act = act s := by
  have none_ : s.toRemode quads fuse = [] := List.filter_eq_nil_iff.2 fun q mem => by simp [alike q mem]
  rw [State.remoded, none_]

/-- A grid's next block, of one group. -/
def Grid.block (x : Grid) (grid : Nat) (need : BlockNeed) (p : Place) (gid : Nat) : Block :=
  let (nx, ny, nz) := recGrid x.words
  { ctx := x.ctx, grid := grid, coords := (x.next % nx, x.next / nx % ny, x.next / (nx * ny)), extent := (nx, ny, nz), span := need.span
    cores := need.ranks [p], groups := [gid], ngroups := 1, isLocal := need.isLocal, spad := need.spad
    fmts := (List.range 8).map (recSlot x.words), itt := x.kernel.itt }

/-- A grid's next block seated: its group and its record (R343). -/
def State.blockSeated (s : State) (grid : Nat) (x : Grid) (cap : Nat) (p : Place) (k : Nat) : State :=
  ((s.takeCore p.core x.ctx).setGroup (placeGid p k) ((s.newGroup grid s.nextBlock x 0 cap).seated p k)).setBlock s.nextBlock
    (x.block grid (x.need [cap]) p (placeGid p k))

section Placement
variable {grid cap : Nat} {x : Grid}
variable (listed : s.grids.get? grid = some x) (caps : x.caps = [cap])
variable (room : s.Room (x.need [cap]) (s.newGroup grid s.nextBlock x 0 cap) p k ks)
include listed caps room

theorem State.placeNow_one : s.placeNow grid [p] = some (({ s.blockSeated grid x cap p k with
      nextBlock := s.nextBlock + 1
      grids := (s.blockSeated grid x cap p k).grids.set grid { x with next := x.next + 1, live := x.live + 1, passed := 0 } } : State).settled
        x.ctx s.nextBlock x.entry [p]) := by
  rw [State.placeNow, listed]
  dsimp only
  rw [caps, List.mapIdx_cons, List.mapIdx_nil, State.seat_one room]
  rfl

theorem exec_blockPlacement_one (on : s.on = true) (offers : s.offers x = true) (undispatched : s.dispatched grid = false)
    (passes : s.mayPass (s.passedOver grid x) = true) (gate : (s.quad (quadOf p.core)).gate = .on) :
    exec (.blockPlacement grid [p]) s = .next ((({ s.blockSeated grid x cap p k with
      nextBlock := s.nextBlock + 1
      grids := (s.blockSeated grid x cap p k).grids.set grid { x with next := x.next + 1, live := x.live + 1, passed := 0 } } : State).settled
        x.ctx s.nextBlock x.entry [p]).countPass (s.passedOver grid x)) := by
  refine exec_blockPlacement ?_
  rw [State.placeBlock, listed]
  refine (if_neg (by simp [on, offers, undispatched, passes])).trans ((State.remoded_of_alike ?_).trans ?_)
  · intro q mem
    obtain rfl : q = quadOf p.core := by simpa using mem
    exact room.fused
  · rw [State.placeNow_one listed caps room, Option.map_some]
    exact congrArg some (if_pos (by simp [gate]))

end Placement

/-! SWIN (R350). -/

section Swin
variable {ctx : Nat} {at_ : List (List Place)}

/-- The quads that a SWIN places groups on. -/
def swinQuads (at_ : List (List Place)) : List Nat := (at_.flatMap fun b => b.map fun p => quadOf p.core).dedup

/-- What a SWIN onto quads that are awake comes to: its placement, or it waits for room (R350). -/
def State.swinOutcome (s : State) (ctx : Nat) (placed : Option State) : Host.Outcome State Fault Refusal :=
  match placed with
  | some u => .next u
  | none => if (s.ctx ctx).swin then .refused (.notEnabled "SWIN") else .next (s.awaitRoom ctx)

variable (on : s.on = true) (low : ctx < 64)
include on low

theorem exec_swin_ignored (stands : (s.ctx ctx).valid = false ∨ (s.ctx ctx).state ≠ .switchedOut) : exec (.swin ctx at_) s = .next s := by
  change execSwin ctx at_ s = _
  rw [execSwin, if_neg (by simp [on, low]), if_pos stands]

variable (valid : (s.ctx ctx).valid = true) (out : (s.ctx ctx).state = .switchedOut)
include valid out

theorem exec_swin_gated (gated : ∃ q ∈ swinQuads at_, (s.quad q).gate = .gated) :
    exec (.swin ctx at_) s = .next ((s.wakeFor (swinQuads at_)).awaitRoom ctx) := by
  have some_ : ((swinQuads at_).any fun q => (s.quad q).gate == .gated) = true := by simpa [List.any_eq_true] using gated
  change execSwin ctx at_ s = _
  rw [execSwin, if_neg (by simp [on, low]), if_neg (by simp [valid, out])]
  exact if_pos some_

variable (awake : ∀ q ∈ swinQuads at_, (s.quad q).gate ≠ .gated)
include awake

theorem exec_swin_awake :
    exec (.swin ctx at_) s = s.swinOutcome ctx (s.remoded (swinQuads at_) (s.savedFuse ctx) fun s => s.switchIn ctx at_) := by
  have none_ : ((swinQuads at_).any fun q => (s.quad q).gate == .gated) = false :=
    List.any_eq_false.2 fun q mem gate => awake q mem (beq_iff_eq.1 gate)
  change execSwin ctx at_ s = _
  rw [execSwin, if_neg (by simp [on, low]), if_neg (by simp [valid, out])]
  exact if_neg (Bool.eq_false_iff.1 none_)

theorem exec_swin_placed (placed : s.remoded (swinQuads at_) (s.savedFuse ctx) (fun s => s.switchIn ctx at_) = some u) :
    exec (.swin ctx at_) s = .next u := by
  rw [exec_swin_awake on low valid out awake, placed]
  rfl

theorem exec_swin_waits (full : s.remoded (swinQuads at_) (s.savedFuse ctx) (fun s => s.switchIn ctx at_) = none)
    (first : (s.ctx ctx).swin = false) : exec (.swin ctx at_) s = .next (s.awaitRoom ctx) := by
  rw [exec_swin_awake on low valid out awake, full]
  exact if_neg (Bool.eq_false_iff.1 first)

end Swin

/-! Saved blocks placed again (R350). -/

/-- A context active again, once its saved blocks are placed. -/
def State.swappedIn (s : State) (ctx : Nat) : State := (s.modCtx ctx fun c => { c with savedBlocks := [], swin := false }).setState ctx .active

theorem State.switchIn_nil {ctx : Nat} (none_ : (s.ctx ctx).savedBlocks = []) : s.switchIn ctx [] = some (s.swappedIn ctx) := by
  unfold State.switchIn State.savedAhead
  dsimp only
  rw [none_]
  rfl

section Restore
variable {ctx blk ghost : Nat} {b : Block} {x : Grid}

/-- A saved block with its one group where it is seated again. -/
def Block.reseated (b : Block) (ghost gid : Nat) (cores : List Nat) : Block := { b with
  groups := [gid], claims := b.claims.map fun y => { y with gid := if y.gid = ghost then gid else y.gid }, cores := cores, passed := 0 }

theorem Block.reseated_eq (one : b.groups = [ghost]) (gid : Nat) (cores : List Nat) :
    { (b.rename fun y => (([(ghost, gid)].find? fun p => p.1 == y).map Prod.snd).getD y) with cores := cores, passed := 0 } =
      b.reseated ghost gid cores := by
  have name (y : Nat) : (([(ghost, gid)].find? fun p => p.1 == y).map Prod.snd).getD y = if y = ghost then gid else y := by
    by_cases same : y = ghost
    · simp [same]
    · simp [same, Ne.symm same]
  simp only [name]
  rw [Block.rename, one, Block.reseated]
  simp

/-- A saved block of one group seated: its group and its record (R350). -/
def State.savedSeated (s : State) (ctx blk ghost : Nat) (b : Block) (g : Group) (p : Place) (k : Nat) : State :=
  ((s.takeCore p.core ctx).setGroup (placeGid p k) (g.seated p k)).setBlock blk
    (b.reseated ghost (placeGid p k) ((s.savedNeed b [g]).ranks [p]))

theorem State.savedFuse_one (only : (s.ctx ctx).savedBlocks = [(blk, b)]) : s.savedFuse ctx = (s.savedNeed b [g]).fuse := by
  rw [State.savedFuse, only]
  exact Bool.or_false _

/-- The entry of a saved block's kernel. -/
def State.savedEntry (s : State) (b : Block) : CodeAddr := match s.grids.get? b.grid with | some x => x.entry | none => 0

theorem State.savedEntry_of_listed (listed : s.grids.get? b.grid = some x) : s.savedEntry b = x.entry := by
  rw [State.savedEntry, listed]

variable (owner : b.ctx = ctx) (one : b.groups = [ghost]) (saved : (s.ctx ctx).savedGroups.find? (fun y => y.1 == ghost) = some (ghost, g))
variable (listed : s.grids.get? b.grid = some x) (ranks : ((s.savedNeed b [g]).ranks [p]).length = b.nr)
variable (gate : (s.quad (quadOf p.core)).gate = .on) (room : s.Room (s.savedNeed b [g]) g p k ks)
variable (restored : (s.savedSeated ctx blk ghost b g p k).restoreGroup ctx (placeGid p k) ghost = some t)
include owner one saved listed ranks gate room restored

theorem State.restoreBlock_one : s.restoreBlock ctx blk b [p] = some (t.settled ctx blk x.entry [p]) := by
  unfold State.restoreBlock
  rw [one, List.map_cons, List.map_nil, saved]
  refine (if_neg (by simpa [gate] using ranks)).trans ((congrArg (Option.bind · _) (State.seat_one room)).trans ?_)
  rw [Option.bind_some]
  change (((((s.takeCore p.core b.ctx).setGroup (placeGid p k) (g.seated p k)).setBlock blk
    { (b.rename fun y => (([(ghost, placeGid p k)].find? fun p => p.1 == y).map Prod.snd).getD y) with
      cores := (s.savedNeed b [g]).ranks [p], passed := 0 }).restoreGroup ctx (placeGid p k) ghost).map
    fun u => u.settled ctx blk (s.savedEntry b) [p]) = _
  rw [Block.reseated_eq one, owner, State.savedEntry_of_listed listed]
  change ((s.savedSeated ctx blk ghost b g p k).restoreGroup ctx (placeGid p k) ghost).map _ = _
  rw [restored]
  rfl

theorem State.switchIn_one (only : (s.ctx ctx).savedBlocks = [(blk, b)]) (passes : s.mayPass (s.passedOver b.grid x) = true) :
    s.switchIn ctx [[p]] = some (((t.settled ctx blk x.entry [p]).countPass (s.passedOver b.grid x)).swappedIn ctx) := by
  have ahead : s.savedAhead ctx = [s.passedOver b.grid x] := by rw [State.savedAhead, only, List.filterMap_cons, listed]; rfl
  unfold State.switchIn
  dsimp only
  rw [only, ahead]
  refine (if_neg (by simp [passes])).trans ?_
  change ((some s).bind fun s : State => s.restoreBlock ctx blk b [p]).map _ = _
  rw [Option.bind_some, State.restoreBlock_one owner one saved listed ranks gate room restored]
  rfl

theorem exec_swin_one (on : s.on = true) (low : ctx < 64) (valid : (s.ctx ctx).valid = true) (out : (s.ctx ctx).state = .switchedOut)
    (only : (s.ctx ctx).savedBlocks = [(blk, b)]) (passes : s.mayPass (s.passedOver b.grid x) = true) :
    exec (.swin ctx [[p]]) s = .next (((t.settled ctx blk x.entry [p]).countPass (s.passedOver b.grid x)).swappedIn ctx) := by
  have quad {q : Nat} (mem : q ∈ swinQuads [[p]]) : q = quadOf p.core := by simpa [swinQuads] using mem
  refine exec_swin_placed on low valid out (fun q mem => ?_) ((State.remoded_of_alike fun q mem => ?_).trans
    (State.switchIn_one owner one saved listed ranks gate room restored only passes))
  · rw [quad mem, gate]
    exact Gate.noConfusion
  · rw [quad mem, room.fused, State.savedFuse_one (g := g) only]

end Restore

end Seat

end Sys2Proof.Machine
end

section
/-! A saved group restored where it has been seated (R198, R259, R349, R350). -/

namespace Sys2Proof.Machine

theorem Tbl.getD_map {α : Type} (t : Tbl α) (f : α → α) (k : Nat) (d : α) (kept : f d = d) :
    Tbl.getD (t.map fun c => (c.1, f c.2)) k d = f (t.getD k d) := by
  rw [Tbl.getD_eq, Tbl.getD_eq]
  induction t with
  | nil => exact kept.symm
  | cons p t ih =>
    obtain ⟨j, a⟩ := p
    rw [List.map_cons, Tbl.get?, Tbl.get?]
    dsimp only
    split
    · rfl
    · exact ih

section Restore

variable {s t : State} {ctx gid ghost q : Nat}

/-! The parts of a restore: planes, names, banks (R198, R259, R349). -/

/-- Saved planes in their places, of a group under its new name. -/
def putPlanes (gid : Nat) (ps : List Plane) (saved : List (Nat × Nat × Plane)) : List Plane :=
  saved.foldl (fun ps x => ps.set x.2.1 { x.2.2 with owner := some gid }) ps

theorem putPlanes_length (gid : Nat) (ps : List Plane) (saved : List (Nat × Nat × Plane)) : (putPlanes gid ps saved).length = ps.length := by
  induction saved generalizing ps with
  | nil => rfl
  | cons x saved ih => exact (ih _).trans List.length_set

theorem putPlanes_other {ps : List Plane} {saved : List (Nat × Nat × Plane)} {k : Nat} (other : k ∉ saved.map fun y => y.2.1) :
    (putPlanes gid ps saved).getD k {} = ps.getD k {} := by
  induction saved generalizing ps with
  | nil => rfl
  | cons x saved ih =>
    rw [List.map_cons, List.mem_cons, not_or] at other
    refine (ih other.2).trans ?_
    rw [List.getD_eq_getElem?_getD, List.getElem?_set_ne (Ne.symm other.1), ← List.getD_eq_getElem?_getD]

theorem putPlanes_get {ps : List Plane} {saved : List (Nat × Nat × Plane)} (once : (saved.map fun y => y.2.1).Nodup)
    {y : Nat × Nat × Plane} (mem : y ∈ saved) (low : y.2.1 < ps.length) :
    (putPlanes gid ps saved).getD y.2.1 {} = { y.2.2 with owner := some gid } := by
  induction saved generalizing ps with
  | nil => cases mem
  | cons x saved ih =>
    rw [List.map_cons, List.nodup_cons] at once
    obtain rfl | mem := List.mem_cons.1 mem
    · refine (putPlanes_other once.1).trans ?_
      rw [List.getD_eq_getElem?_getD, List.getElem?_set_self low]
      rfl
    · exact ih once.2 mem (by rwa [List.length_set])

/-- A quad with a group's saved planes in their places again (R259). -/
def State.planesBack (s : State) (q gid : Nat) (saved : List (Nat × Nat × Plane)) : State :=
  saved.foldl (fun s x => s.modQuad q fun z => { z with planes := z.planes.set x.2.1 { x.2.2 with owner := some gid } }) s

theorem State.planesBack_spec (s : State) (q gid : Nat) (saved : List (Nat × Nat × Plane)) :
    s.planesBack q gid saved = { s with quads := (s.planesBack q gid saved).quads } ∧
    ((s.planesBack q gid saved).quad q).planes = putPlanes gid (s.quad q).planes saved := by
  induction saved generalizing s with
  | nil => exact ⟨rfl, rfl⟩
  | cons x saved ih =>
    obtain ⟨rest, planes⟩ := ih (s.modQuad q fun z => { z with planes := z.planes.set x.2.1 { x.2.2 with owner := some gid } })
    refine ⟨rest, planes.trans ?_⟩
    rw [State.modQuad_get, if_pos rfl]
    rfl

/-- A name apart from the physical register that holds it (R198). -/
def nameOf (y : Nat × NameEnt) : Nat × Mask × Vec := (y.1, y.2.live, y.2.val)

/-- A group's names have become others, and all else is as it was (R198). -/
def Renamed (s t : State) (gid : Nat) (names : List (Nat × Mask × Vec)) : Prop :=
  t = { s with groups := t.groups } ∧ t.group gid = { s.group gid with names := (t.group gid).names } ∧ (t.group gid).names.map nameOf = names

theorem State.modGroup_self_eq (s : State) (gid : Nat) (f : Group → Group) : (s.modGroup gid f).group gid = f (s.group gid) := by
  rw [State.modGroup_def, State.setGroup_get, if_pos rfl]

/-- Names that take registers one after another. -/
theorem Renamed.add {ns : List (Nat × NameEnt)} (phys : State → Nat) : ∀ s : State,
    Renamed s (ns.foldl (fun s n => s.modGroup gid fun x => { x with names := x.names ++ [(n.1, { n.2 with phys := phys s })] }) s) gid
      ((s.group gid).names.map nameOf ++ ns.map nameOf) := by
  induction ns with
  | nil => exact fun s => ⟨rfl, rfl, (List.append_nil _).symm⟩
  | cons n ns ih =>
    intro s
    obtain ⟨rest, group, names⟩ := ih (s.modGroup gid fun x => { x with names := x.names ++ [(n.1, { n.2 with phys := phys s })] })
    rw [State.modGroup_self_eq] at group names
    refine ⟨rest, group, names.trans ?_⟩
    rw [List.map_append, List.append_assoc]
    rfl

theorem Renamed.rephys (s : State) (gid : Nat) : Renamed s (s.rephys gid) gid ((s.group gid).names.map nameOf) := by
  obtain ⟨rest, group, names⟩ := Renamed.add (gid := gid) (ns := (s.group gid).names)
    (fun t => t.freePhys (s.group gid).core (s.group gid).part) (s.modGroup gid fun g => { g with names := [] })
  rw [State.modGroup_self_eq] at group names
  exact ⟨rest, group, names⟩

/-- Saved handler banks in their partition (R193, R349). -/
def State.banksBack (s : State) (core part gid : Nat) (banks : List (Nat × Nat × Bank × List Nat)) : State :=
  banks.foldl (fun s x => s.modPart core part fun p => { p with owner := some (gid, x.2.1), bank := x.2.2.1, bankBad := x.2.2.2 }) s

theorem State.banksBack_rest (s : State) (core part gid : Nat) (banks : List (Nat × Nat × Bank × List Nat)) :
    s.banksBack core part gid banks = { s with cores := (s.banksBack core part gid banks).cores } := by
  induction banks generalizing s with
  | nil => rfl
  | cons x banks ih => exact ih _

theorem State.renameOps_part (s : State) (old new core part : Nat) : (s.renameOps old new).part core part = s.part core part := by
  let nm (g : Nat) : Nat := if g = old then new else g
  let marks (ms : List Mark) : List Mark := ms.map fun m => { m with gid := nm m.gid }
  have renamed : (s.renameOps old new).core core =
      { s.core core with l1 := (s.core core).l1.map fun l => (l.1, { l.2 with marks := marks l.2.marks }) } :=
    Tbl.getD_map s.cores (fun c : Core => { c with l1 := c.l1.map fun l => (l.1, { l.2 with marks := marks l.2.marks }) }) core {} rfl
  rw [State.part, renamed]
  rfl

/-! The whole of a restore. -/

/-- The planes saved under a name. -/
def State.planesOfGhost (s : State) (ctx ghost : Nat) : List (Nat × Nat × Plane) := (s.ctx ctx).savedPlanes.filter fun y => y.1 == ghost
/-- The handler banks saved under a name. -/
def State.banksOfGhost (s : State) (ctx ghost : Nat) : List (Nat × Nat × Bank × List Nat) := (s.ctx ctx).savedBanks.filter fun y => y.1 == ghost

/-- Joins start to wait again as a group comes back (R350). -/
def Group.rejoined (g : Group) (cyc : Nat) : Group := { g with joins := g.joins.map fun j => { j with since := j.since.map fun _ => cyc } }

/-- A group's planes, joins and lane registers as they come back. -/
def State.groupBack (s : State) (ctx gid ghost : Nat) : State :=
  ((s.planesBack (quadOf (s.group gid).core) gid (s.planesOfGhost ctx ghost)).modGroup gid fun g =>
    g.rejoined (s.core (s.group gid).core).cyc).rephys gid

theorem State.restoreGroup_eq (restored : s.restoreGroup ctx gid ghost = some t) : ∃ (queue : Part → List (Nat × Nat)) (f : Ctx → Ctx),
    t = ((((s.groupBack ctx gid ghost).banksBack (s.group gid).core (s.group gid).part gid (s.banksOfGhost ctx ghost)).modPart
      (s.group gid).core (s.group gid).part fun p => { p with trapq := queue p }).renameOps ghost gid).modCtx ctx f := by
  unfold State.restoreGroup at restored
  dsimp only at restored
  split at restored
  · cases restored
  · exact ⟨_, _, (Option.some.inj restored).symm⟩

theorem State.groupBack_spec (s : State) (ctx gid ghost : Nat) :
    (s.groupBack ctx gid ghost).mem = s.mem ∧ ((s.groupBack ctx gid ghost).group gid).names.map nameOf = (s.group gid).names.map nameOf ∧
    (s.groupBack ctx gid ghost).group gid =
      { (s.group gid).rejoined (s.core (s.group gid).core).cyc with names := ((s.groupBack ctx gid ghost).group gid).names } ∧
    ((s.groupBack ctx gid ghost).quad (quadOf (s.group gid).core)).planes =
      putPlanes gid (s.quad (quadOf (s.group gid).core)).planes (s.planesOfGhost ctx ghost) := by
  obtain ⟨there, planes⟩ := s.planesBack_spec (quadOf (s.group gid).core) gid (s.planesOfGhost ctx ghost)
  have still : (s.planesBack (quadOf (s.group gid).core) gid (s.planesOfGhost ctx ghost)).group gid = s.group gid := by rw [there]; rfl
  obtain ⟨rest, group, names⟩ := Renamed.rephys ((s.planesBack (quadOf (s.group gid).core) gid (s.planesOfGhost ctx ghost)).modGroup gid fun g =>
    g.rejoined (s.core (s.group gid).core).cyc) gid
  rw [State.modGroup_self_eq, still] at group names
  refine ⟨?_, names, group, ?_⟩
  · rw [State.groupBack, rest]
    have mem := congrArg State.mem there
    exact mem
  · rw [State.groupBack, rest]
    exact planes

section Restored
variable (restored : s.restoreGroup ctx gid ghost = some t)
include restored

theorem State.restoreGroup_quads_groups : t.quads = (s.groupBack ctx gid ghost).quads ∧ t.groups = (s.groupBack ctx gid ghost).groups := by
  obtain ⟨queue, f, rfl⟩ := State.restoreGroup_eq restored
  have rest := State.banksBack_rest (s.groupBack ctx gid ghost) (s.group gid).core (s.group gid).part gid (s.banksOfGhost ctx ghost)
  have quads := congrArg State.quads rest
  have groups := congrArg State.groups rest
  exact ⟨quads, groups⟩

theorem State.restoreGroup_group : ((t.group gid).names.map nameOf = (s.group gid).names.map nameOf) ∧
    t.group gid = { (s.group gid).rejoined (s.core (s.group gid).core).cyc with names := (t.group gid).names } := by
  have same : t.group gid = (s.groupBack ctx gid ghost).group gid := by
    rw [State.group, (State.restoreGroup_quads_groups restored).2]
    rfl
  obtain ⟨-, names, group, -⟩ := s.groupBack_spec ctx gid ghost
  rw [same]
  exact ⟨names, group⟩

theorem State.restoreGroup_plane (once : ((s.planesOfGhost ctx ghost).map fun y => y.2.1).Nodup)
    (two : (s.quad (quadOf (s.group gid).core)).planes.length = 2) {y : Nat × Nat × Plane}
    (mem : y ∈ s.planesOfGhost ctx ghost) (low : y.2.1 < 2) :
    t.plane (quadOf (s.group gid).core) y.2.1 = { y.2.2 with owner := some gid } := by
  have same : (t.quad (quadOf (s.group gid).core)).planes = ((s.groupBack ctx gid ghost).quad (quadOf (s.group gid).core)).planes := by
    rw [State.quad, (State.restoreGroup_quads_groups restored).1]
    rfl
  obtain ⟨-, -, -, planes⟩ := s.groupBack_spec ctx gid ghost
  rw [State.plane, Quad.plane, same, planes]
  exact putPlanes_get once mem (by rwa [two])

theorem State.restoreGroup_bank {slot : Nat} {bank : Bank} {bad : List Nat} (one : s.banksOfGhost ctx ghost = [(ghost, slot, bank, bad)]) :
    let p := t.part (s.group gid).core (s.group gid).part
    p.owner = some (gid, slot) ∧ p.bank = bank ∧ p.bankBad = bad := by
  obtain ⟨queue, f, rfl⟩ := State.restoreGroup_eq restored
  intro p
  have there : p = { ((s.groupBack ctx gid ghost).banksBack (s.group gid).core (s.group gid).part gid (s.banksOfGhost ctx ghost)).part
      (s.group gid).core (s.group gid).part with trapq := p.trapq } := by
    have queued : p = _ := (State.renameOps_part ..).trans (State.modPart_self ..)
    rw [queued]
  have put : ((s.groupBack ctx gid ghost).banksBack (s.group gid).core (s.group gid).part gid [(ghost, slot, bank, bad)]).part
      (s.group gid).core (s.group gid).part = { (s.groupBack ctx gid ghost).part (s.group gid).core (s.group gid).part with
        owner := some (gid, slot), bank := bank, bankBad := bad } := State.modPart_self ..
  rw [one, put] at there
  rw [there]
  exact ⟨rfl, rfl, rfl⟩

end Restored

end Restore

end Sys2Proof.Machine
end

section
/-! Power, thermal limits, bring-up and attestation (R360, R380 to R385), and the package as a whole. -/

namespace Sys2Proof.Machine

section Power

variable {s t : State} {n : Nat}

/-! A package gone dark (R360, R382, R385). -/

/-- What a die of a package that has lost its power keeps: its SCM, with its queue drained, under package number 0 (R360). -/
def State.scmKept (s : State) (d : Nat) : Mem :=
  if s.pkg = 0 then (s.die d).drained else (s.die d).drained.foldl (fun m c => Mem.write m (c.1 % 2 ^ 42) c.2) []

theorem State.setPkg_rest (s : State) (p : Nat) : s.setPkg p = { s with pkg := p, mem := (s.setPkg p).mem, dies := (s.setPkg p).dies } := by
  unfold State.setPkg
  split
  next own => rw [own]
  · rfl

theorem State.dark_rest : s.dark = { State.reset with
    on := false, dies := s.dark.dies, mem := s.dark.mem, fresh := s.fresh, nextId := s.nextId, agenda := s.agenda, focus := s.focus } :=
  State.setPkg_rest _ 0

theorem State.dark_on : s.dark.on = false := congrArg State.on State.dark_rest
theorem State.dark_groups : s.dark.groups = [] := congrArg State.groups State.dark_rest
theorem State.dark_cores : s.dark.cores = [] := congrArg State.cores State.dark_rest
theorem State.dark_ctxs : s.dark.ctxs = [] := congrArg State.ctxs State.dark_rest

/-- The dies of a package that has lost its power, before its number goes. -/
def State.darkDies (s : State) : Tbl Die := (List.range 4).map fun d => (d, { scm := (s.die d).drained })

theorem State.darkDies_get {d : Nat} (low : d < 4) : s.darkDies.getD d {} = { scm := (s.die d).drained } := by
  interval_cases d <;> rfl

/-- A die's addresses under package number 0. -/
def renumbered (d : Die) : Die :=
  let key (a : Nat) : Nat := a % 2 ^ 42 + 0 * 2 ^ 42
  { d with
    scm := d.scm.foldl (fun m c => Mem.write m (key c.1) c.2) [], wbq := d.wbq.map fun e => e.map fun c => (key c.1, c.2)
    errset := d.errset.map fun l => lineOf (key (64 * l)), struck := d.struck.map fun l => lineOf (key (64 * l))
    dir := d.dir.map fun e => (e.1 % 2 ^ 25 + 0 * 2 ^ 25, e.2) }

theorem State.dark_die {d : Nat} (low : d < 4) : s.dark.die d = { scm := s.scmKept d } := by
  unfold State.dark State.setPkg State.scmKept
  dsimp only
  by_cases own : s.pkg = 0
  · rw [if_pos own.symm, if_pos own]
    exact State.darkDies_get low
  · rw [if_neg (Ne.symm own), if_neg own]
    have kept : renumbered {} = {} := rfl
    refine (Tbl.getD_map s.darkDies renumbered d {} kept).trans ?_
    rw [State.darkDies_get low]
    simp only [renumbered, Nat.zero_mul, Nat.add_zero]
    rfl

theorem exec_powerFailure (on : s.on = true) : exec .powerFailure s = .next s.dark := by
  change execPowerFailure s = _
  exact event_of on

/-! Sensors (R380 to R383). -/

theorem exec_bellowsInterval {power : Nat} {cur : Tbl Nat} (powered : s.powered = true)
    (hot : s.power.thrt = true → min s.power.throt 110 ≤ n + 5) (cool : s.power.thrt = false → n < min s.power.throt 110) :
    exec (.bellowsInterval { power := power, tmax := n } cur) s =
      .next (if 6 ≤ s.power.stage then (s.setTmax n).bellows power cur else s.setTmax n) := by
  change execBellowsInterval _ cur s = _
  refine event_of ?_
  rw [powered, Bool.true_and]
  split
  next hot_ => exact decide_eq_true (hot hot_)
  next cool_ => exact decide_eq_true (cool (Bool.eq_false_iff.2 cool_))

theorem exec_currentLimit (on : s.on = true) (low : n < 16) : exec (.currentLimit n) s =
    .next (({ s with power := { s.power with limited := s.power.limited ||| (1#16 <<< n), clim := true } } : State).alert 1) := by
  change execCurrentLimit n s = _
  exact event_of (by rw [on, decide_eq_true low]; rfl)

theorem exec_throttling_starts (powered : s.powered = true) (thrt : s.power.thrt = false) (hot : min s.power.throt 110 ≤ n) :
    exec (.throttling n) s = .next (({ s with power := { s.power with tmax := min n 255, thrt := true } } : State).alert 2) := by
  have starts : (!s.power.thrt && decide (n ≥ s.power.throttle)) = true := by rw [thrt]; exact decide_eq_true hot
  change execThrottling n s = _
  exact (event_of (by rw [powered, starts]; rfl)).trans (congrArg _ (if_pos starts))

theorem exec_throttling_ends (powered : s.powered = true) (thrt : s.power.thrt = true) (cool : n + 5 < min s.power.throt 110) :
    exec (.throttling n) s = .next { s with power := { s.power with tmax := min n 255, thrt := false } } := by
  have ends : (s.power.thrt && decide (n + 5 < s.power.throttle)) = true := by rw [thrt]; exact decide_eq_true cool
  change execThrottling n s = _
  refine (event_of (by rw [powered, ends, Bool.or_true]; rfl)).trans (congrArg _ (if_neg ?_))
  rw [thrt]
  exact Bool.false_ne_true

/-- A package that has tripped, before its alert. -/
def State.tripped (s : State) (n : Nat) : State :=
  { s.dark with power := { s.dark.power with trip := true, tmax := min n 255, alert := s.power.alert, ibi := s.power.ibi } }

theorem exec_thermalTrip (powered : s.powered = true) (hot : 115 ≤ n) : exec (.thermalTrip n) s = .next ((s.tripped n).alert 3) := by
  change execThermalTrip n s = _
  exact event_of (by rw [powered, decide_eq_true hot]; rfl)

/-- A bit of ALERT that is set changes the power block only, and is set from then on (R383). -/
theorem State.alert_spec (s : State) {bit : Nat} (low : bit < 5) : s.alert bit = { s with power := (s.alert bit).power } ∧
    (s.alert bit).power.trip = s.power.trip ∧ (s.alert bit).power.alert.getLsbD bit = true := by
  unfold State.alert
  split
  next set => exact ⟨rfl, rfl, set⟩
  · refine ⟨rfl, rfl, ?_⟩
    simp [low]

theorem State.tripped_spec : ((s.tripped n).alert 3).on = false ∧ ((s.tripped n).alert 3).power.trip = true ∧
    ((s.tripped n).alert 3).power.alert.getLsbD 3 = true ∧
    ((s.tripped n).alert 3).dies = s.dark.dies ∧ ((s.tripped n).alert 3).mem = s.dark.mem := by
  obtain ⟨rest, trip, alert⟩ := (s.tripped n).alert_spec (bit := 3) (by decide)
  have on := congrArg State.on rest
  have dies := congrArg State.dies rest
  have mem := congrArg State.mem rest
  exact ⟨on.trans State.dark_on, trip, alert, dies, mem⟩

/-! Bring-up (R384, R385). -/

theorem exec_bringUp {b : BringUp} (goes : s.bringUp b = some t) : exec (.bringUp b) s = .next t := by
  change execBringUp b s = _
  rw [execBringUp, goes]

theorem State.bringUp_start {i3c : Bool} (starts : s.on = false ∨ i3c = true ∨ s.power.stage = 0) :
    s.bringUp (.start i3c) = some (s.startUp i3c) := by
  refine if_pos ?_
  rw [Bool.or_eq_true, Bool.or_eq_true, Bool.not_eq_true', beq_iff_eq, or_assoc]
  exact starts

theorem State.imageOk_iff (img : FwImage) : s.imageOk img = true ↔ img.key.length = 64 ∧ img.sig.length = 29792 ∧
    shake256 img.key = bytesOf 64 Config.fusedDigest.toNat ∧ Config.verifies img.key (bytesOf 2 img.version.toNat ++ img.body) img.sig = true ∧
    s.power.svn.toNat ≤ img.version.toNat := by
  rw [State.imageOk]
  simp only [Bool.and_eq_true, decide_eq_true_eq, beq_iff_eq, and_assoc]
  rfl

theorem State.bringUp_firmware_good {img : FwImage} (stage : s.power.stage = 1) (good : s.imageOk img = true) :
    s.bringUp (.firmware img) = some { s with power := { s.power with
      stage := 2, vrf := true
      meas := s.power.meas.set 0 (extendMeasure (s.power.meas.getD 0 0)
        (BitVec.ofNat 512 (ofBytes (shake256 (bytesOf 2 img.version.toNat ++ img.body))))) } } :=
  (if_pos stage).trans (congrArg some (if_pos good))

theorem State.bringUp_firmware_bad {img : FwImage} (stage : s.power.stage = 1) (bad : ¬ s.imageOk img = true) :
    s.bringUp (.firmware img) = some (({ s with power := { s.power with stage := 2, vrf := false } } : State).alert 4) :=
  (if_pos stage).trans (congrArg some (if_neg bad))

theorem State.bringUp_stage (vrf : s.power.vrf = true)
    (stage : s.power.stage = 2 ∨ s.power.stage = 3 ∨ s.power.stage = 5 ∨ s.power.stage = 6) :
    s.bringUp .stage = some { s with on := true, power := { s.power with stage := s.power.stage + 1 } } := if_pos ⟨vrf, stage⟩

theorem State.bringUp_measure {d : BitVec 512} (vrf : s.power.vrf = true) (begun : 2 ≤ s.power.stage) (before : s.power.stage < 7) (low : n < 8) :
    s.bringUp (.measure n d) = some { s with power := { s.power with meas := s.power.meas.set n (extendMeasure (s.power.meas.getD n 0) d) } } :=
  if_pos ⟨vrf, begun, before, low⟩

theorem State.bringUp_links {ports : BitVec 16} {pkg : BitVec 12} (stage : s.power.stage = 4) :
    s.bringUp (.links ports pkg) = some (s.trainPorts ports pkg) := if_pos stage

/-- The links trained, and the package's number written (R385, R389). -/
theorem State.trainPorts_spec (s : State) (ports : BitVec 16) (pkg : BitVec 12) :
    (s.trainPorts ports pkg).power = { s.power with stage := 5 } ∧ (s.trainPorts ports pkg).pkg = pkg.toNat ∧
    ∀ k, k < 16 → (s.trainPorts ports pkg).ports.getD k {} = { up := ports.getLsbD k } := by
  unfold State.trainPorts
  rw [State.setPkg_rest]
  refine ⟨rfl, rfl, fun k low => ?_⟩
  change ((List.range 16).map fun k => ({ up := ports.getLsbD k } : Port)).getD k {} = _
  simp [List.getD_eq_getElem?_getD, low]

theorem exec_attestationRequest {nonce : BitVec 256} (begun : 2 ≤ s.power.stage) : exec (.attestationRequest nonce) s =
    .next { s with power := { s.power with reports := s.power.reports ++ [s.report nonce] } } := by
  change execAttestationRequest nonce s = _
  exact event_of (decide_eq_true begun)

end Power

/-- Settles O49: each event by the lemma about it, and by what its part of the state comes to. -/
theorem packageEventsComplete : Obligations.PackageEventsComplete := by
  unfold Obligations.PackageEventsComplete
  intro s t q n ctx grid off host v lq c pi h p
  refine ⟨exec_lqprodWrite, exec_recordStart, ?predecessor,
    fun x listed done => ⟨exec_gridComplete_uncounted listed done, exec_gridComplete_counted listed done⟩,
    fun at_ placed => exec_blockPlacement placed, ?placement, ?gate, exec_quadWake, exec_ktvalWrite, exec_swout, ?swout,
    fun on low stands at_ => exec_swin_ignored on low stands, ?empty,
    fun at_ on low valid out gated => exec_swin_gated on low valid out gated,
    fun at_ on low valid out awake => ⟨fun u placed => exec_swin_placed on low valid out awake placed,
      fun full first => exec_swin_waits on low valid out awake full first⟩,
    ?swin, ?restore,
    fun on low => ⟨exec_clamp on low, exec_release on low, exec_destroy on low, exec_mclmpClamp on low, exec_mclmpRelease on low⟩,
    ?host, ?power, exec_handoverDone,
    fun bs up some_ fits => ⟨exec_hostWrite_shut up some_ fits, exec_hostWrite_open up some_ fits⟩,
    ?failure, fun power cur powered hot cool => exec_bellowsInterval powered hot cool, exec_currentLimit,
    exec_throttling_starts, exec_throttling_ends, ?trip, ?start, ?firmware,
    fun vrf stage => exec_bringUp (State.bringUp_stage vrf stage),
    fun ports pkg stage => ⟨_, exec_bringUp (State.bringUp_links stage), s.trainPorts_spec ports pkg⟩,
    fun d vrf begun before low => exec_bringUp (State.bringUp_measure vrf begun before low),
    fun nonce begun => exec_attestationRequest begun⟩
  case predecessor =>
    intro starts sound waits va
    refine (exec_predecessorRead starts sound waits).trans ?_
    unfold State.testPred
    dsimp only
    split
    next e failed => rw [failed]
    next sat => rw [sat]; rfl
    next unsat => rw [unsat]; rfl
  case placement =>
    intro x cap at_ k ks qd need
    rcases size : recGrid x.words with ⟨nx, ny, nz⟩
    intro on listed offers undispatched passes caps core part gate fused spads best capacity free tiles accs mine
    have room : s.Room need (s.newGroup grid s.nextBlock x 0 cap) at_ k ks :=
      ⟨core, part, fused, spads, best, le_of_eq_of_le (Nat.zero_add cap) capacity, capacity, free, tiles, accs, mine⟩
    have placed := exec_blockPlacement_one listed caps room on offers undispatched passes gate
    rw [State.blockSeated, Grid.block, size] at placed
    exact placed
  case gate =>
    intro on low gate thresh idle undispatched
    exact ⟨fun gates => exec_gateRequest on low gate thresh idle undispatched gates, fun clean =>
      exec_gateRequest on low gate thresh idle undispatched (by rw [State.gate, State.flush_of_clean clean])⟩
  case swout =>
    intro s1 switching drained
    exact ⟨exec_swoutComplete_of_begun switching drained, exec_swoutComplete_of_clean switching drained, fun clean =>
      ⟨exec_swoutComplete_of_clean switching drained (State.flush_of_clean clean), State.switchOut_of_empty⟩⟩
  case empty =>
    intro on low valid out none_
    exact exec_swin_placed on low valid out (fun q mem => by cases mem)
      ((State.remoded_of_alike fun q mem => by cases mem).trans (State.switchIn_nil none_))
  case swin =>
    intro at_ blk b x ghost g0 k ks s2 qd gid need s1 on low valid out only owner one saved listed passes ranks core part gate fused spads best
      capacity free tiles accs mine restored
    have fuse : need.fuse = resFuse x.res := by simp only [need, State.savedNeed, listed]
    have room : s.Room need g0 at_ k ks :=
      ⟨core, part, fused.trans fuse.symm, spads, best, le_of_eq_of_le (Nat.add_comm b.pool g0.cap) capacity,
        (Nat.le_add_right ..).trans capacity, free, tiles, accs, (congrArg (s.coreFor at_.core) owner).trans mine⟩
    exact exec_swin_one owner one saved listed ranks gate room restored on low valid out only passes
  case restore =>
    intro gid ghost s2 restored g names planes
    obtain ⟨named, group⟩ := State.restoreGroup_group restored
    exact ⟨State.restoreGroup_mem restored, named, group, fun once two y mem low => State.restoreGroup_plane restored once two mem low,
      fun slot bank bad one => State.restoreGroup_bank restored one⟩
  case host =>
    intro up
    refine ⟨exec_todev up, exec_tohost up, fun plain => exec_registerWrite plain ?_⟩
    cases host with
    | false => exact Bool.or_eq_true_iff.2 (.inl up)
    | true => exact up
  case power =>
    intro powered above below
    refine exec_registerWrite ?_ ?_
    · rw [State.regWrite_power above below]
      exact State.powerWrite_ne_other _ _ _
    · exact Bool.or_eq_true_iff.2 (.inr (by rw [powered, decide_eq_true above, decide_eq_true below]; rfl))
  case failure =>
    intro on
    refine ⟨s.dark, exec_powerFailure on, ?_⟩
    exact ⟨State.dark_on, State.dark_groups, State.dark_cores, State.dark_ctxs, congrArg State.accs State.dark_rest,
      congrArg State.pkg State.dark_rest, fun d low => State.dark_die low⟩
  case trip =>
    intro powered hot
    exact ⟨_, exec_thermalTrip powered hot, State.tripped_spec⟩
  case start =>
    intro i3c starts
    exact ⟨_, exec_bringUp (State.bringUp_start starts), State.dark_groups, State.dark_cores, State.dark_ctxs, rfl, rfl, rfl, rfl⟩
  case firmware =>
    intro img stage whole good m0
    have ok : s.imageOk img = true ↔ good := State.imageOk_iff img
    exact ⟨fun fine => exec_bringUp (State.bringUp_firmware_good stage (ok.2 fine)),
      fun refused => exec_bringUp (State.bringUp_firmware_bad stage (mt ok.1 refused))⟩

end Sys2Proof.Machine
end
